-- ==== Sys2Proof/Word.lean ====
section
/-! DEFINITION. The byte, the numbers 1 to 4 of channels and tanks, and a record of four like things. -/

namespace Sys2Proof

/-- A byte of a frame, of the setup image or of the panel line. -/
abbrev Byte := BitVec 8

/-- The number n = 1..4 that valve channel VCn, analogue input ANn, tank Tn and switch HHn share
(00_scope: "Tank Tn always uses valve channel VCn, level channel ANn and high-high switch HHn"). -/
inductive Ch
  | n1 | n2 | n3 | n4
  deriving DecidableEq, Repr

/-- The number as the manual writes it. -/
def Ch.num : Ch → Nat
  | .n1 => 1
  | .n2 => 2
  | .n3 => 3
  | .n4 => 4

/-- All four numbers, in order. -/
def Ch.all : List Ch := [.n1, .n2, .n3, .n4]

/-- The channel of a number, for 1 to 4. -/
def Ch.ofNum : Nat → Option Ch
  | 1 => some .n1
  | 2 => some .n2
  | 3 => some .n3
  | 4 => some .n4
  | _ => none

/-- Four like things, one for each number. -/
structure Quad (α : Type) where
  n1 : α
  n2 : α
  n3 : α
  n4 : α
  deriving DecidableEq, Repr

/-- The thing with number `n`. -/
def Quad.get {α : Type} (q : Quad α) : Ch → α
  | .n1 => q.n1
  | .n2 => q.n2
  | .n3 => q.n3
  | .n4 => q.n4

/-- Replace the thing with number `n`. -/
def Quad.set {α : Type} (q : Quad α) (n : Ch) (x : α) : Quad α :=
  match n with
  | .n1 => { q with n1 := x }
  | .n2 => { q with n2 := x }
  | .n3 => { q with n3 := x }
  | .n4 => { q with n4 := x }

/-- Four times the same thing. -/
def Quad.fill {α : Type} (x : α) : Quad α := ⟨x, x, x, x⟩

/-- Apply a function to each of the four. -/
def Quad.map {α β : Type} (f : α → β) (q : Quad α) : Quad β := ⟨f q.n1, f q.n2, f q.n3, f q.n4⟩

/-- One thing per number, from a function of its index 0 to 3. -/
def Quad.ofIndex {α : Type} (f : Nat → α) : Quad α := ⟨f 0, f 1, f 2, f 3⟩

end Sys2Proof
end

