-- ==== Sys2Proof/Syntax.lean ====
section
/-! DEFINITION. The commands of spec/opcode_table.json, one constructor per row, and the operand types they use. -/

namespace Sys2Proof

/-- One character as a serial receiver takes it (R158, R197): with its stop bit right, or bad. -/
inductive LineChar
  | good (b : Byte)
  | bad
  deriving DecidableEq, Repr

/-- The two switches of a valve channel: VCn_OS and VCn_CS. -/
inductive Switch
  | openSw
  | shutSw
  deriving DecidableEq, Repr

/-- The two annunciator outputs (R79). -/
inductive Sounder
  | horn
  | beacon
  deriving DecidableEq, Repr

/-- The qualification timers TU holds (R62). -/
inductive QualId
  | overfill (tank : Ch)
  | surge
  | leak
  deriving DecidableEq, Repr

/-- The six classes of EVENT reports (R199, R200). -/
inductive EventClass
  | phase | trip | tank | roster | alarm | link
  deriving DecidableEq, Repr

/-- The words after MASK (R201): class names, or ALL. -/
inductive MaskWords
  | names (l : List EventClass)
  | all
  deriving DecidableEq, Repr

/-- The setup image of 86 bytes (R189). -/
abbrev Image := Vector Byte 86

/-- The commands. Each is one row of spec/opcode_table.json, with the operands that row's rule takes from outside. -/
inductive Instr
  /-- START_UP (R186) -/
  | startUp
  /-- RESET_IN_OFF (R186): with the levels of SN[3:0] and RL[2:0] that the STRAPS step reads (R187) -/
  | resetInOff (sn : BitVec 4) (rl : BitVec 3)
  /-- SETUP_READ (R188): with the bytes SM_DIO showed -/
  | setupRead (image : Image)
  /-- JOIN_WINDOW_END (R194) -/
  | joinWindowEnd
  /-- LINE_CHARACTER (R169) -/
  | lineCharacter (c : LineChar)
  /-- ECHO_TIMEOUT (R164) -/
  | echoTimeout
  /-- LINE_IDLE (R159) -/
  | lineIdle
  /-- ATTEMPT (R164) -/
  | attempt
  /-- HEARTBEAT (R184) -/
  | heartbeat
  /-- ROSTER_TAKE_FRAME (R29) -/
  | rosterTakeFrame
  /-- SILENCE_LIMIT (R35): of the entry of a station -/
  | silenceLimit (station : Nat)
  /-- REMOVAL_LIMIT (R37): of the entry of a station -/
  | removalLimit (station : Nat)
  /-- STEP_CONFIRMATION_TIMEOUT (R10) -/
  | stepConfirmationTimeout
  /-- ANSWER_TIMER_EXPIRY (R50) -/
  | answerTimerExpiry
  /-- PANEL_CHARACTER (R197) -/
  | panelCharacter (c : LineChar)
  /-- NOMINATE q r (R49) -/
  | nominate (q r : Nat)
  /-- START (R49) -/
  | start
  /-- PAUSE (R49) -/
  | pause
  /-- RESUME (R49) -/
  | resume
  /-- STOP (R49) -/
  | stop
  /-- RESET (R49) -/
  | reset
  /-- ENDACK (R49) -/
  | endack
  /-- TRIP (R198) -/
  | trip
  /-- SILENCE (R78) -/
  | silence
  /-- ASSIGN t (R119) -/
  | assign (t : Nat)
  /-- UNASSIGN t (R120) -/
  | unassign (t : Nat)
  /-- MASK (R201) -/
  | mask (w : MaskWords)
  /-- READ PHASE (R203) -/
  | readPhase
  /-- READ ROSTER, with a station number or none (R46) -/
  | readRoster (n : Option Nat)
  /-- READ TRIP (R80) -/
  | readTrip
  /-- READ ALARM (R80) -/
  | readAlarm
  /-- READ VALVE, with a channel or none (R93) -/
  | readValve (n : Option Nat)
  /-- READ PUMP (R99) -/
  | readPump
  /-- READ SCAN (R116) -/
  | readScan
  /-- READ TANK, with a tank or none (R137) -/
  | readTank (n : Option Nat)
  /-- READ RECORD (R157) -/
  | readRecord
  /-- READ SETUP (R196) -/
  | readSetup
  /-- READ PANEL (R203) -/
  | readPanel
  /-- REPORT_SENT (R202) -/
  | reportSent
  /-- ESD_IN_CHANGE (R61): to the level given -/
  | esdInChange (on : Bool)
  /-- SEP_IN_CHANGE (R115) -/
  | sepInChange (on : Bool)
  /-- ACK_IN_CHANGE (R78) -/
  | ackInChange (on : Bool)
  /-- CADENCE_TOGGLE (R79) -/
  | cadenceToggle (o : Sounder)
  /-- HH_CHANGE (R127) -/
  | hhChange (n : Ch) (on : Bool)
  /-- QUALIFICATION_EXPIRY (R62) -/
  | qualificationExpiry (q : QualId)
  /-- VALVE_SWITCH_CHANGE (R88) -/
  | valveSwitchChange (n : Ch) (sw : Switch) (on : Bool)
  /-- DWELL_EXPIRY (R83) -/
  | dwellExpiry (n : Ch)
  /-- TRAVEL_LIMIT_EXPIRY (R87) -/
  | travelLimitExpiry (n : Ch)
  /-- HOLD_OFF_EXPIRY (R90) -/
  | holdOffExpiry
  /-- PUMP_FB_CHANGE (R97) -/
  | pumpFbChange (on : Bool)
  /-- FEEDBACK_TIMER_EXPIRY (R95) -/
  | feedbackTimerExpiry
  /-- STOP_TIMER_EXPIRY (R96) -/
  | stopTimerExpiry
  /-- METER_PULSE (R139) -/
  | meterPulse
  /-- RATE_WINDOW (R141) -/
  | rateWindow
  /-- START_LIMIT_EXPIRY (R142) -/
  | startLimitExpiry
  /-- SCAN_SET_START (R101) -/
  | scanSetStart
  /-- SCAN_READING (R102): the raw value of the reading under way -/
  | scanReading (raw : BitVec 12)
  /-- ALLOWANCE_EXPIRY (R110) -/
  | allowanceExpiry
  /-- RELAX_EXPIRY (R110) -/
  | relaxExpiry
  /-- CLAIM_WAIT_EXPIRY (R131) -/
  | claimWaitExpiry
  /-- SETTLE_WINDOW_EXPIRY (R135) -/
  | settleWindowExpiry
  /-- SETTLE_LIMIT_EXPIRY (R135) -/
  | settleLimitExpiry
  deriving DecidableEq, Repr

end Sys2Proof
end

