-- ==== Sys2Proof/Decode.lean ====
section
/-! DEFINITION. The command a word spells by the bits of spec/opcode_table.json: no row gives bits, so none. -/

namespace Sys2Proof

/-- The command that a word of `nbits` bits spells by the table's bits. No row of the table has "fixed" bits or
"fields" (98_reader: "n_rows_with_fixed": 0), so no word spells a command. -/
def decodeTableWord (_nbits _w : Nat) : Option Instr := none

end Sys2Proof
end

