-- ==== Sys2Proof/Machine/Types.lean ====
section
/-! DEFINITION. The value types and the block records of the station: one structure for each block of the manual. -/

namespace Sys2Proof.Machine

/-! ## Names -/

/-- R1 -/
inductive StationState
  | startup | joining | running | offline
  deriving DecidableEq, Repr

/-- The eleven phases (01_transfer_phases). -/
inductive Phase
  | idle | lineup | opening | starting | pumping | topping | paused | stopping | closing | ended | tripped
  deriving DecidableEq, Repr

/-- The roles of 00_scope. -/
inductive Role
  | pu | bv | sv | tw | mn
  deriving DecidableEq, Repr

/-- The twelve trip causes (R61), in the order of its table. -/
inductive Cause
  | manual | separation | overfill | surge | hardlimit | leak | linkloss | valve | pump | noflow | sensor | phase
  deriving DecidableEq, Repr

/-- R60 -/
inductive OriginKind
  | localOrigin | remoteOrigin
  deriving DecidableEq, Repr

/-- R27 -/
inductive Presence
  | absent | present | silent
  deriving DecidableEq, Repr

/-- R94 -/
inductive PumpState
  | stopped | starting | running | stopping
  deriving DecidableEq, Repr

/-- R81 -/
inductive ValveState
  | shut | opening | opened | closing | stopped | fault
  deriving DecidableEq, Repr

/-- R81: the end a channel has been told to reach. -/
inductive ValveCommand
  | none | opened | close
  deriving DecidableEq, Repr

/-- R81: which drive output is on. One value, so the two drives of a channel are never on together (R83). -/
inductive Drive
  | off | opened | close
  deriving DecidableEq, Repr

/-- R90 -/
inductive HoldOff
  | none | holding | released
  deriving DecidableEq, Repr

/-- R90: the name of a release. -/
inductive ReleaseReason
  | pumpStopped | holdOff | leaving
  deriving DecidableEq, Repr

/-- R145 -/
inductive EndKind
  | none | metered | receiverfull | operator | trip
  deriving DecidableEq, Repr

/-- R134 -/
inductive ReceiptState
  | none | receiving | allfull | settling | complete
  deriving DecidableEq, Repr

/-- R117 -/
inductive TankState
  | excluded | assigned | opened | filling | topping | full | held | overfill
  deriving DecidableEq, Repr

/-- R47 -/
inductive ReqKind
  | nominate | start | pause | resume | stop | reset | endack
  deriving DecidableEq, Repr

/-- The outcomes decided at PU (R54). -/
inductive Decision
  | taken | busy | wrongphase | notready | causeactive | badarg
  deriving DecidableEq, Repr

/-- R186 -/
inductive SeqStep
  | hold | straps | read | check | frozen | rejected
  deriving DecidableEq, Repr

/-- R108 -/
inductive Excursion
  | none | allowed | excursion | relax
  deriving DecidableEq, Repr

/-- R145 -/
inductive RecordState
  | empty | opened | sampled
  deriving DecidableEq, Repr

/-- R145 -/
inductive SampleKind
  | none | normal | forced
  deriving DecidableEq, Repr

/-- R159 -/
inductive LineState
  | quiet | receiving | sending | backingOff
  deriving DecidableEq, Repr

/-- The four frame kinds (R174). -/
inductive FrameKind
  | status | request | answer | trip
  deriving DecidableEq, Repr

/-- R79 -/
inductive Cadence
  | off | fast | slow | steady
  deriving DecidableEq, Repr

/-! ## Timers -/

/-- A timer: running or not, and the milliseconds it shows. DESIGN CHOICE (log 66): a stopped timer shows 0, but for the
timers that an OFFLINE station halts "where they stand" (R94, R108). -/
structure Timer where
  running : Bool
  elapsed : Nat
  deriving DecidableEq, Repr

/-- Stopped at zero. -/
def Timer.stopped : Timer := ⟨false, 0⟩

/-- Started from zero. -/
def Timer.fromZero : Timer := ⟨true, 0⟩

/-- Stopped where it stands. -/
def Timer.halted (t : Timer) : Timer := { t with running := false }

/-- One millisecond passes; the timer is held at its limit until the command of its expiry (log 7). -/
def Timer.tick (limit : Nat) (t : Timer) : Timer :=
  if t.running then { t with elapsed := min (t.elapsed + 1) limit } else t

/-! ## Setup Loader -/

/-- The fault record (R191). -/
inductive FaultRecord
  | none
  /-- STRAP: SN is named when `isSn`, RL otherwise, with the value read -/
  | strap (isSn : Bool) (value : Nat)
  /-- SETUP: the failed check of R190 and the offset named -/
  | setup (check offset : Nat)
  /-- CLASH: the sender station and role of the clash frame -/
  | clash (station : Nat) (role : Role)
  deriving DecidableEq, Repr

/-- The profile mask (R63): set means enabled. -/
structure ProfileMask where
  surge : Bool
  leak : Bool
  noflow : Bool
  sensor : Bool
  deriving DecidableEq, Repr

/-- The setup record of one tank (R189). -/
structure TankSetup where
  topping : Nat
  target : Nat
  high : Nat
  highHigh : Nat
  litresPerMm : Nat
  deriving DecidableEq, Repr

/-- The frozen setup (R192), in the units the rules use. -/
structure Setup where
  /-- 38,400 bit/s, else 19,200 -/
  fastLink : Bool
  /-- ms -/
  silence : Nat
  /-- the line-up list as stored, eight values 0..15 -/
  lineup : List Nat
  tankCount : Nat
  mask : ProfileMask
  /-- s -/
  holdOff : Nat
  /-- s -/
  startLimit : Nat
  /-- rated pressure P_w, kPa -/
  rated : Nat
  surgeCode : Nat
  /-- ms -/
  surgeQual : Nat
  /-- s -/
  allowance : Nat
  /-- s -/
  relax : Nat
  /-- kPa -/
  leakBand : Nat
  /-- ms -/
  leakQual : Nat
  /-- s -/
  travel : Quad Nat
  span : Quad Nat
  /-- meter factor K -/
  meterK : Nat
  quantityTol : Nat
  mismatchTol : Nat
  toppingMargin : Nat
  tanks : Quad TankSetup
  checkWord : BitVec 16
  deriving DecidableEq, Repr

/-- One period of SM_CLK in the serial read, as SM_DIO carries it (R188): a level that SL sends, or, the pin turned round
to input, a level that SL takes. -/
inductive SmPeriod
  | sent (level : Bool)
  | taken (level : Bool)
  deriving DecidableEq, Repr

/-- SL (11_straps_and_setup_memory). -/
structure SetupLoader where
  step : SeqStep
  /-- the station number kept by the STRAPS step; 0 until then -/
  sn : BitVec 4
  /-- the role code kept by the STRAPS step; 0 until then -/
  rl : BitVec 3
  /-- the image read in this start-up -/
  image : Option Image
  /-- the serial read of this start-up, period by period of SM_CLK; empty until it completes -/
  serial : List SmPeriod
  fault : FaultRecord
  setup : Setup
  /-- the join window (R194) -/
  joinWindow : Timer
  deriving DecidableEq, Repr

/-! ## Phase Controller -/

/-- R9 -/
structure StepInHand where
  target : Phase
  gen : BitVec 8
  timer : Timer
  deriving DecidableEq, Repr

/-- A standing order (R18, R21, R24). -/
inductive Order
  | openVc1 | closeVc1 | closeTanks
  deriving DecidableEq, Repr

/-- PC (01_transfer_phases). -/
structure PhaseController where
  station : StationState
  phase : Phase
  transfer : BitVec 8
  gen : BitVec 8
  inHand : Option StepInHand
  ready : Bool
  path : Bool
  closed : Bool
  order : Option Order
  deriving DecidableEq, Repr

/-! ## Station Roster -/

/-- One item of a tank list (R177). -/
structure TankItem where
  state : TankState
  level : Nat
  valid : Bool
  deriving DecidableEq, Repr

/-- The role body of a STATUS (R176, R177). -/
inductive RoleBody
  | pu (pump : PumpState) (pressure : Nat) (valid : Bool) (delivered : Nat) (endKind : EndKind)
      (nomination maxRate : Nat)
  | valve (state : ValveState) (pressure : Nat) (valid : Bool)
  | tw (receipt : ReceiptState) (received : Nat) (items : List TankItem)
  | mn
  deriving DecidableEq, Repr

/-- What one STATUS carried (R27, R175). -/
structure Status where
  transfer : BitVec 8
  gen : BitVec 8
  phase : Phase
  ready : Bool
  cause : Bool
  closed : Bool
  path : Bool
  claim : Bool
  firstCause : Option Cause
  firstOrigin : Nat
  body : RoleBody
  deriving DecidableEq, Repr

/-- A roster entry (R27). -/
structure Entry where
  number : Nat
  role : Option Role
  protected' : Bool
  presence : Presence
  /-- ms -/
  age : Nat
  last : Option Status
  deriving DecidableEq, Repr

/-- The join summary (R38). An item no frame has updated is empty. -/
structure JoinSummary where
  genPu : Option (BitVec 8)
  genAny : Option (BitVec 8)
  transferPu : Option (BitVec 8)
  transferAny : Option (BitVec 8)
  heard : Bool
  deriving DecidableEq, Repr

/-- SR (02_the_station_roster). `entries` is the table in recency order, the most recently heard first; a table of
twelve places holds at most twelve of them (log 10). -/
structure Roster where
  entries : List Entry
  join : JoinSummary
  deriving DecidableEq, Repr

/-! ## Request Handler -/

/-- R48 -/
structure Outstanding where
  kind : ReqKind
  number : BitVec 8
  nomination : Nat
  maxRate : Nat
  timer : Timer
  deriving DecidableEq, Repr

/-- RH (03_requests_and_answers). -/
structure RequestHandler where
  nextNumber : BitVec 8
  outstanding : Option Outstanding
  deriving DecidableEq, Repr

/-! ## Trip Unit -/

/-- The first-out (R60). `cause` is none for a trip honoured from a frame that carried NONE (R69, R182). -/
structure FirstOut where
  cause : Option Cause
  kind : OriginKind
  origin : Nat
  detail : Option Nat
  deriving DecidableEq, Repr

/-- A member of the latched set (R60): tank, station or channel number as its detail, where the cause has one. -/
structure Latched where
  cause : Cause
  detail : Option Nat
  deriving DecidableEq, Repr

/-- A qualification timer (R62) and whether its condition stood in a listed phase when last evaluated. -/
structure QualTimer where
  armed : Bool
  timer : Timer
  deriving DecidableEq, Repr

/-- TU (04_trips_and_alarms). -/
structure TripUnit where
  firstOut : Option FirstOut
  latched : List Latched
  cause : Bool
  mask : ProfileMask
  overfill : Quad QualTimer
  surge : QualTimer
  leak : QualTimer
  /-- tanks an OVERFILL event has named since the record was last cleared (R62) -/
  named : Quad Bool
  /-- the qualified fact of a disabled SURGE (R76) -/
  surgeQualified : Bool
  /-- the qualified fact of a disabled LEAK (R76) -/
  leakQualified : Bool
  deriving DecidableEq, Repr

/-! ## Annunciator -/

/-- The reason of a SETUP alarm (R76). -/
inductive OfflineReason
  | strap | setup | clash
  deriving DecidableEq, Repr

/-- Kind and detail of an alarm (R76). -/
inductive AlarmKey
  | trip
  | setup (r : OfflineReason)
  | highlevel (n : Ch)
  | ratecap
  | sensor (n : Ch)
  | silent (station : Nat)
  | surge
  | leak
  | noflow
  deriving DecidableEq, Repr

/-- R75 -/
inductive AlarmState
  | activeNew | activeAcked | clearNew
  deriving DecidableEq, Repr

/-- R75 -/
structure AlarmEntry where
  key : AlarmKey
  state : AlarmState
  deriving DecidableEq, Repr

/-- HORN or BEACON (R79): its cadence, its output level and the time in the present half. -/
structure Sounding where
  cadence : Cadence
  on : Bool
  half : Timer
  deriving DecidableEq, Repr

/-- AN (04_trips_and_alarms). -/
structure Annunciator where
  set : List AlarmEntry
  horn : Sounding
  beacon : Sounding
  deriving DecidableEq, Repr

/-! ## Valve and Pump Channels -/

/-- A channel record (R81). -/
structure Channel where
  state : ValveState
  command : ValveCommand
  pending : Bool
  drive : Drive
  dwell : Timer
  travel : Timer
  deriving DecidableEq, Repr

/-- VP (05_valve_and_pump_channels). -/
structure ValvePump where
  channels : Quad Channel
  holdOff : HoldOff
  holdOffTimer : Timer
  pump : PumpState
  feedback : Timer
  stopTimer : Timer
  pumpRun : Bool
  rateLow : Bool
  deriving DecidableEq, Repr

/-! ## Hose Watch -/

/-- A scan channel record (R100). -/
structure ScanChannel where
  enabled : Bool
  span : Nat
  lastRaw : Option Nat
  value : Option Nat
  fault : Bool
  badCount : Nat
  goodCount : Nat
  deriving DecidableEq, Repr

/-- HW (06_hose_watch). -/
structure HoseWatch where
  chans : Quad ScanChannel
  /-- the channel whose reading is under way; none while no set is under way -/
  slot : Option Ch
  /-- time since the start of the last set (R101) -/
  setTimer : Timer
  surgeThreshold : Nat
  hardLimit : Nat
  settleLevel : Nat
  hardCount : Nat
  excursion : Excursion
  allowance : Timer
  relax : Timer
  /-- the surge condition as last handed to TU (R111) -/
  surgeCond : Bool
  /-- the leak condition as last evaluated (R113) -/
  leakCond : Bool
  deriving DecidableEq, Repr

/-! ## Overflow Watch -/

/-- A tank record (R117); its set levels and litres per mm are read from the frozen setup. -/
structure Tank where
  state : TankState
  takingPart : Bool
  level : Option Nat
  levelValid : Bool
  startLevel : Nat
  highAlarm : Bool
  overfill : Bool
  reference : Nat
  deriving DecidableEq, Repr

/-- The claim record (R129). The tank is absent again once the claim state has returned to NONE (log 64). -/
structure Claim where
  waiting : Bool
  tank : Option Ch
  timer : Timer
  deriving DecidableEq, Repr

/-- OW (07_overflow_watch). -/
structure OverflowWatch where
  tanks : Quad Tank
  claim : Claim
  receipt : ReceiptState
  settleWindow : Timer
  settleLimit : Timer
  received : Nat
  /-- the open-route condition as last read (R130) -/
  routeSeen : Bool
  deriving DecidableEq, Repr

/-! ## Meter and Record -/

/-- The members of an outcome (R153). -/
structure OutcomeSet where
  short : Bool
  exceeds : Bool
  mismatch : Bool
  tripped : Bool
  deriving DecidableEq, Repr

/-- The transfer record (R145). -/
structure Record where
  state : RecordState
  transfer : BitVec 8
  nomination : Nat
  maxRate : Nat
  counting : Bool
  delivered : Nat
  received : Nat
  afterFlow : Nat
  externalEnd : Bool
  internalEnd : Bool
  endKind : EndKind
  tripMark : Bool
  sampleKind : SampleKind
  outcome : OutcomeSet
  deriving DecidableEq, Repr

/-- MR (08_meter_and_transfer_record). -/
structure MeterRecord where
  residual : Nat
  stray : Nat
  window : Timer
  windowLitres : Nat
  lastRate : Option Nat
  startFlow : Bool
  startLimit : Timer
  zeroCount : Nat
  cap : Bool
  belowCount : Nat
  record : Record
  deriving DecidableEq, Repr

/-! ## Link Controller -/

/-- A frame header (R174). -/
structure Header where
  sender : Nat
  role : Role
  transfer : BitVec 8
  gen : BitVec 8
  deriving DecidableEq, Repr

/-- A REQUEST or ANSWER frame as it is built when it is placed (R162, R174): header and contents. -/
inductive HeldFrame
  | request (h : Header) (kind : ReqKind) (number : BitVec 8) (nomination maxRate : Nat)
  | answer (h : Header) (requester : Nat) (number : BitVec 8) (outcome : Decision)
  deriving DecidableEq, Repr

/-- An occupied place of the transmit queue (R162). A STATUS or TRIP place holds only the request to send one. -/
structure Place where
  frame : Option HeldFrame
  attempts : Nat
  askedAgain : Bool
  deriving DecidableEq, Repr

/-- The attempt under way (R164): its kind, whether it is detached from its place (R167), and the characters whose
echoes are still awaited. -/
structure Attempt where
  kind : FrameKind
  detached : Bool
  awaited : List Byte
  deriving DecidableEq, Repr

/-- R169 -/
inductive AsmCondition
  | hunting | building | full
  deriving DecidableEq, Repr

/-- The assembly slot (R169). -/
structure Assembly where
  condition : AsmCondition
  markSeen : Bool
  bytes : List Byte
  damaged : Bool
  echo : Bool
  deriving DecidableEq, Repr

/-- LC (09_the_station_link). The check and delivery slots are full exactly when they hold a frame. -/
structure LinkController where
  line : LineState
  /-- hundredths of a character time since the last character -/
  idle : Nat
  trip : Option Place
  answer : Option Place
  request : Option Place
  status : Option Place
  attempt : Option Attempt
  assembly : Assembly
  check : Option (List Byte)
  delivery : Option (List Byte)
  heartbeat : Timer
  deriving DecidableEq, Repr

/-! ## Reports -/

/-- The reason of a REFUSED panel answer (R119, R197, R198). -/
inductive RefuseReason
  | role | state | phase | tank | valve | level | syntaxError | length
  deriving DecidableEq, Repr

/-- The panel command words (R198). -/
inductive CommandWord
  | request (k : ReqKind)
  | trip | silence | assign | unassign | read | mask
  deriving DecidableEq, Repr

/-- The outcome of an ANSWER report (R199). -/
inductive PanelOutcome
  | decided (d : Decision)
  | noanswer | pending | nothere | refused
  deriving DecidableEq, Repr

/-- The name after the outcome of an ANSWER report (R199). -/
inductive AnswerName
  | none
  | station (n : Nat)
  | cause (c : Cause)
  | reason (r : RefuseReason)
  deriving DecidableEq, Repr

/-- How a claim event names the claim (R129). -/
inductive ClaimEvent
  | began | won | lost | ended
  deriving DecidableEq, Repr

/-- The reasons of LINK events for frames (R173). -/
inductive FrameFault
  | framing | length | overrun | character | check | kind | sender
  deriving DecidableEq, Repr

/-- The facts of an EVENT report. -/
inductive Event
  /-- R4 -/
  | phaseChange (old new : Phase) (transfer : BitVec 8)
  /-- R146 -/
  | recordOpened (transfer : BitVec 8) (nomination maxRate : Nat)
  /-- R148 -/
  | endKindSet (k : EndKind)
  /-- R149 -/
  | externalEnd
  /-- R150 -/
  | internalEnd
  /-- R153 -/
  | sampled (k : SampleKind) (delivered received : Nat) (endKind : EndKind) (outcome : OutcomeSet)
  /-- R155 -/
  | recordCleared
  /-- R65 -/
  | latched (c : Cause) (detail : Option Nat) (firstOut : Bool)
  /-- R66 -/
  | joined (c : Cause) (detail : Option Nat)
  /-- R62: an OVERFILL tank named for the first time -/
  | overfillTank (n : Ch)
  /-- R69 -/
  | remoteTrip (origin : Nat) (c : Option Cause)
  /-- R71 -/
  | tripCleared
  /-- R80: PHASE handed for a step that timed out -/
  | stepTimeout (target : Phase)
  /-- R80: PHASE handed for a clash -/
  | clashHanded (station : Nat) (role : Role)
  /-- R90 -/
  | released (r : ReleaseReason)
  /-- R119 to R128 -/
  | tankState (n : Ch) (st : TankState)
  /-- R134 -/
  | receipt (r : ReceiptState)
  /-- R129 -/
  | claim (n : Ch) (e : ClaimEvent)
  /-- R31: creation of an unprotected entry -/
  | entryCreated (n : Nat)
  /-- R31 -/
  | evicted (n successor : Nat)
  /-- R37 -/
  | removed (n : Nat)
  /-- R35 -/
  | presence (n : Nat) (old new : Presence)
  /-- R32 -/
  | roleChange (n : Nat) (old new : Role)
  /-- R30 -/
  | clash (n : Nat) (role : Role)
  /-- R80: the new state, or none when the entry leaves the set -/
  | alarm (k : AlarmKey) (st : Option AlarmState)
  /-- R173: abandoned in assembly, overrun or discarded in the check slot, with kind and sender when held -/
  | frameLost (r : FrameFault) (kind sender : Option Byte)
  /-- R166 -/
  | dropped (k : FrameKind) (number : Option (BitVec 8))
  /-- R53: the sender, the request kind as its code was carried (in its table or not, R182) and the request number -/
  | undecided (sender code : Nat) (number : BitVec 8)
  /-- R51 -/
  | strayAnswer (number : BitVec 8) (d : Decision)
  /-- R182: reason FIELD -/
  | field (sender : Nat) (k : FrameKind)
  deriving DecidableEq, Repr

/-- The class of an EVENT (R200). -/
def Event.cls : Event → EventClass
  | .phaseChange _ _ _ | .recordOpened _ _ _ | .endKindSet _ | .externalEnd | .internalEnd | .sampled _ _ _ _ _
  | .recordCleared => .phase
  | .latched _ _ _ | .joined _ _ | .overfillTank _ | .remoteTrip _ _ | .tripCleared | .stepTimeout _
  | .clashHanded _ _ | .released _ => .trip
  | .tankState _ _ | .receipt _ | .claim _ _ => .tank
  | .entryCreated _ | .evicted _ _ | .removed _ | .presence _ _ _ | .roleChange _ _ _ | .clash _ _ => .roster
  | .alarm _ _ => .alarm
  | .frameLost _ _ _ | .dropped _ _ | .undecided _ _ _ | .strayAnswer _ _ | .field _ _ => .link

/-- One line of READ ROSTER without a number (R46). -/
structure RosterLine where
  number : Nat
  role : Option Role
  presence : Presence
  age : Nat
  deriving DecidableEq, Repr

/-- READ ROSTER with a number (R46). -/
structure EntryView where
  number : Nat
  role : Option Role
  protected' : Bool
  presence : Presence
  /-- to the nearest 10 ms -/
  age : Nat
  /-- the place in the recency order, 1 for the most recently heard -/
  position : Nat
  last : Option Status
  deriving DecidableEq, Repr

/-- The pressure watch of READ SCAN (R116). -/
structure ScanWatch where
  surgeThreshold : Nat
  hardLimit : Nat
  settleLevel : Nat
  hardCount : Nat
  excursion : Excursion
  allowance : Timer
  relax : Timer
  aboveThreshold : Bool
  surgeCond : Bool
  /-- at PU -/
  settleFact : Option Bool
  /-- at SV: the leak band, the BV pressure read, the difference and the leak condition -/
  leak : Option (Nat × Option Nat × Option Int × Bool)
  deriving DecidableEq, Repr

/-- The tank record of READ TANK n (R137). -/
structure TankView where
  number : Ch
  state : TankState
  takingPart : Bool
  level : Option Nat
  levelValid : Bool
  startLevel : Nat
  setup : TankSetup
  highAlarm : Bool
  overfill : Bool
  valve : ValveState
  /-- while SETTLING -/
  reference : Option Nat
  deriving DecidableEq, Repr

/-- The record as READ RECORD gives it (R157). -/
structure RecordView where
  state : RecordState
  transfer : BitVec 8
  nomination : Nat
  maxRate : Nat
  delivered : Nat
  received : Nat
  /-- at PU -/
  afterFlow : Option Nat
  externalEnd : Bool
  internalEnd : Bool
  endKind : EndKind
  tripMark : Bool
  sampleKind : SampleKind
  outcome : OutcomeSet
  deriving DecidableEq, Repr

/-- The meter part of READ RECORD at PU (R157). -/
structure MeterView where
  k : Nat
  residual : Nat
  stray : Nat
  windowLitres : Nat
  window : Timer
  lastRate : Option Nat
  startFlow : Bool
  startLimit : Timer
  zeroCount : Nat
  cap : Bool
  belowCount : Nat
  capClearLevel : Nat
  deriving DecidableEq, Repr

/-- The contents of a DATA report, one constructor for each item of R203. -/
inductive DataBody
  /-- the item's block holds nothing for the role: the line NONE -/
  | nothing
  | phase (station : StationState) (phase : Phase) (transfer gen : BitVec 8) (inHand : Option StepInHand)
      (requester : RequestHandler)
  | rosterEntry (v : EntryView)
  /-- the line NOT IN ROSTER -/
  | notInRoster
  | rosterList (l : List RosterLine)
  | trip (firstOut : Option FirstOut) (latched : List (Latched × Bool)) (cause : Bool) (mask : ProfileMask)
      (timers : List (QualId × Nat))
  | alarm (set : List AlarmEntry) (firstOut : Option FirstOut) (horn beacon : Cadence)
  | valve (l : List (Ch × Channel)) (holdOff : HoldOff) (remaining : Option Nat)
  | pump (state : PumpState) (run low fb : Bool) (feedback stopTimer : Timer)
  | scan (l : List (Ch × ScanChannel × Bool)) (watch : Option ScanWatch)
  | tank (v : TankView)
  | tankTable (l : List (Ch × TankState × Option Nat)) (receipt : ReceiptState) (received : Nat) (claim : Claim)
      (settleWindow settleLimit : Timer)
  | record (r : RecordView) (meter : Option MeterView)
  | setup (sn : BitVec 4) (rl : BitVec 3) (step : SeqStep) (fault : FaultRecord) (frozen : Option Setup)
      (rejected : Option Image)
  | panel (mask : List EventClass) (length : Nat) (lost : Bool)
  deriving DecidableEq, Repr

/-- What one line of a DATA report holds where its words are facts that a rule names (R199, R203). -/
inductive DataLine
  | phase (station : StationState) (phase : Phase) (transfer gen : BitVec 8) (inHand : Option StepInHand)
      (requester : RequestHandler)
  | entry (v : EntryView)
  | listed (l : RosterLine)
  | firstOut (f : FirstOut)
  /-- a cause of the latched set, and whether its active condition holds -/
  | latched (l : Latched) (active : Bool)
  | causeAndMask (cause : Bool) (mask : ProfileMask)
  | qualTimer (q : QualId) (elapsed : Nat)
  | alarm (e : AlarmEntry)
  | cadences (horn beacon : Cadence)
  | channel (n : Ch) (c : Channel)
  | holdOff (h : HoldOff) (remaining : Option Nat)
  | pump (state : PumpState) (run low fb : Bool) (feedback stopTimer : Timer)
  | scanChannel (n : Ch) (c : ScanChannel) (valid : Bool)
  | watch (w : ScanWatch)
  | tank (v : TankView)
  | tankListed (n : Ch) (st : TankState) (level : Option Nat)
  | receipt (receipt : ReceiptState) (received : Nat) (claim : Claim) (settleWindow settleLimit : Timer)
  | record (r : RecordView)
  | meter (m : MeterView)
  | straps (sn : BitVec 4) (rl : BitVec 3) (step : SeqStep) (fault : FaultRecord)
  | frozen (c : Setup)
  | rejected (i : Image)
  | panel (mask : List EventClass) (length : Nat) (lost : Bool)
  deriving DecidableEq, Repr

/-- The three kinds of report (R199). -/
inductive Report
  /-- the command word (none for a line that names no command), the request number for a request made over the
  link, the outcome, and the name its rule gives -/
  | answer (word : Option CommandWord) (number : Option (BitVec 8)) (o : PanelOutcome) (name : AnswerName)
  | event (e : Event)
  | data (d : DataBody)
  deriving DecidableEq, Repr

/-- A report in the queue, with its LOST mark (R202). -/
structure Queued where
  report : Report
  lostMark : Bool
  deriving DecidableEq, Repr

/-! ## Panel Port -/

/-- The report mask: a set drawn from the six classes (R201). -/
structure ClassMask where
  phase : Bool
  trip : Bool
  tank : Bool
  roster : Bool
  alarm : Bool
  link : Bool
  deriving DecidableEq, Repr

/-- PP (12_panel_port). The head of the queue is the report being sent. -/
structure PanelPort where
  buffer : List Byte
  overlong : Bool
  mask : ClassMask
  queue : List Queued
  lost : Bool
  deriving DecidableEq, Repr

/-! ## Inputs -/

/-- The levels of the discrete inputs as last debounced (log 1). -/
structure Inputs where
  resetIn : Bool
  esd : Bool
  sep : Bool
  ack : Bool
  pumpFb : Bool
  hh : Quad Bool
  openSw : Quad Bool
  shutSw : Quad Bool
  deriving DecidableEq, Repr

end Sys2Proof.Machine
end

