-- ==== Sys2Proof/Machine/Codes.lean ====
section
/-! DEFINITION. The code tables of the link frames (R181) and the role codes of the straps (R187), in both directions. -/

namespace Sys2Proof.Machine

/-- Role codes 1 to 5 (R181, R187). -/
def Role.code : Role → Nat
  | .pu => 1
  | .bv => 2
  | .sv => 3
  | .tw => 4
  | .mn => 5

/-- The role of a code; 0, 6, 7 and above are invalid (R187, R182). -/
def Role.ofCode : Nat → Option Role
  | 1 => some .pu
  | 2 => some .bv
  | 3 => some .sv
  | 4 => some .tw
  | 5 => some .mn
  | _ => none

/-- Kind codes (R181). -/
def FrameKind.code : FrameKind → Nat
  | .status => 0x21
  | .request => 0x22
  | .answer => 0x23
  | .trip => 0x24

/-- The frame kind of a code. -/
def FrameKind.ofCode : Nat → Option FrameKind
  | 0x21 => some .status
  | 0x22 => some .request
  | 0x23 => some .answer
  | 0x24 => some .trip
  | _ => none

/-- Phase codes (R181). -/
def Phase.code : Phase → Nat
  | .idle => 1
  | .lineup => 2
  | .opening => 3
  | .starting => 4
  | .pumping => 5
  | .topping => 6
  | .paused => 7
  | .stopping => 8
  | .closing => 9
  | .ended => 10
  | .tripped => 11

/-- The phase of a code. -/
def Phase.ofCode : Nat → Option Phase
  | 1 => some .idle
  | 2 => some .lineup
  | 3 => some .opening
  | 4 => some .starting
  | 5 => some .pumping
  | 6 => some .topping
  | 7 => some .paused
  | 8 => some .stopping
  | 9 => some .closing
  | 10 => some .ended
  | 11 => some .tripped
  | _ => none

/-- Cause codes, 1 to 12 in the order of the table of R61 (R181). -/
def Cause.code : Cause → Nat
  | .manual => 1
  | .separation => 2
  | .overfill => 3
  | .surge => 4
  | .hardlimit => 5
  | .leak => 6
  | .linkloss => 7
  | .valve => 8
  | .pump => 9
  | .noflow => 10
  | .sensor => 11
  | .phase => 12

/-- The cause of a code. Code 0 is NONE, and a code outside the table is read as NONE (R182). -/
def Cause.ofCode : Nat → Option Cause
  | 1 => some .manual
  | 2 => some .separation
  | 3 => some .overfill
  | 4 => some .surge
  | 5 => some .hardlimit
  | 6 => some .leak
  | 7 => some .linkloss
  | 8 => some .valve
  | 9 => some .pump
  | 10 => some .noflow
  | 11 => some .sensor
  | 12 => some .phase
  | _ => none

/-- A cause or NONE as a byte. -/
def causeCode : Option Cause → Nat
  | none => 0
  | some c => c.code

/-- Pump state codes (R181). -/
def PumpState.code : PumpState → Nat
  | .stopped => 0
  | .starting => 1
  | .running => 2
  | .stopping => 3

/-- The pump state of a code. -/
def PumpState.ofCode : Nat → Option PumpState
  | 0 => some .stopped
  | 1 => some .starting
  | 2 => some .running
  | 3 => some .stopping
  | _ => none

/-- Valve state codes (R181). -/
def ValveState.code : ValveState → Nat
  | .shut => 0
  | .opening => 1
  | .opened => 2
  | .closing => 3
  | .stopped => 4
  | .fault => 5

/-- The valve state of a code. -/
def ValveState.ofCode : Nat → Option ValveState
  | 0 => some .shut
  | 1 => some .opening
  | 2 => some .opened
  | 3 => some .closing
  | 4 => some .stopped
  | 5 => some .fault
  | _ => none

/-- End kind codes (R181). -/
def EndKind.code : EndKind → Nat
  | .none => 0
  | .metered => 1
  | .receiverfull => 2
  | .operator => 3
  | .trip => 4

/-- The end kind of a code. -/
def EndKind.ofCode : Nat → Option EndKind
  | 0 => some .none
  | 1 => some .metered
  | 2 => some .receiverfull
  | 3 => some .operator
  | 4 => some .trip
  | _ => Option.none

/-- Receipt state codes (R181). -/
def ReceiptState.code : ReceiptState → Nat
  | .none => 0
  | .receiving => 1
  | .allfull => 2
  | .settling => 3
  | .complete => 4

/-- The receipt state of a code. -/
def ReceiptState.ofCode : Nat → Option ReceiptState
  | 0 => some .none
  | 1 => some .receiving
  | 2 => some .allfull
  | 3 => some .settling
  | 4 => some .complete
  | _ => Option.none

/-- Tank state codes (R181). -/
def TankState.code : TankState → Nat
  | .excluded => 0
  | .assigned => 1
  | .opened => 2
  | .filling => 3
  | .topping => 4
  | .full => 5
  | .held => 6
  | .overfill => 7

/-- The tank state of a code. -/
def TankState.ofCode : Nat → Option TankState
  | 0 => some .excluded
  | 1 => some .assigned
  | 2 => some .opened
  | 3 => some .filling
  | 4 => some .topping
  | 5 => some .full
  | 6 => some .held
  | 7 => some .overfill
  | _ => none

/-- Request kind codes (R181). -/
def ReqKind.code : ReqKind → Nat
  | .nominate => 1
  | .start => 2
  | .pause => 3
  | .resume => 4
  | .stop => 5
  | .reset => 6
  | .endack => 7

/-- The request kind of a code. -/
def ReqKind.ofCode : Nat → Option ReqKind
  | 1 => some .nominate
  | 2 => some .start
  | 3 => some .pause
  | 4 => some .resume
  | 5 => some .stop
  | 6 => some .reset
  | 7 => some .endack
  | _ => none

/-- Outcome codes (R181). -/
def Decision.code : Decision → Nat
  | .taken => 0
  | .busy => 1
  | .wrongphase => 2
  | .notready => 3
  | .causeactive => 4
  | .badarg => 5

/-- The outcome of a code. -/
def Decision.ofCode : Nat → Option Decision
  | 0 => some .taken
  | 1 => some .busy
  | 2 => some .wrongphase
  | 3 => some .notready
  | 4 => some .causeactive
  | 5 => some .badarg
  | _ => none

end Sys2Proof.Machine
end

