-- ==== Sys2Proof/Machine/State.lean ====
section
/-! DEFINITION. The state of one station, the machine right after reset, and the reasons a step can stop. -/

namespace Sys2Proof.Machine

/-- Why a step ends in a fault: the manual gives the station no condition that stops it (trips, alarms, FAULT channels
and OFFLINE are states of the station), so there is none. -/
inductive Fault
  deriving DecidableEq, Repr

/-- Why a step is refused. -/
inductive Refusal
  /-- Raised by exec's arm for a command that has no meaning yet. Safe: the model stops where the hardware goes on. -/
  | notModelled (mnemonic : String)
  deriving DecidableEq, Repr

/-- One FL412 station. -/
structure State where
  inputs : Inputs
  sl : SetupLoader
  pc : PhaseController
  sr : Roster
  rh : RequestHandler
  tu : TripUnit
  an : Annunciator
  vp : ValvePump
  hw : HoseWatch
  ow : OverflowWatch
  mr : MeterRecord
  lc : LinkController
  pp : PanelPort
  /-- the commands that are waiting, the first to be taken first -/
  pending : List Instr
  /-- MODEL'S OWN: how many free values have been drawn (log 20) -/
  draws : Nat
  deriving DecidableEq, Repr

/-! ### The start-up value of each block -/

/-- Log 1: RESET_IN held on, every other input off, until a command says otherwise. -/
def Inputs.start : Inputs :=
  ⟨true, false, false, false, false, .fill false, .fill false, .fill false⟩

/-- Log 3: no setup is frozen; R63: start-up sets all four causes enabled. -/
def Setup.start : Setup where
  fastLink := false
  silence := 0
  lineup := []
  tankCount := 0
  mask := ⟨true, true, true, true⟩
  holdOff := 0
  startLimit := 0
  rated := 0
  surgeCode := 0
  surgeQual := 0
  allowance := 0
  relax := 0
  leakBand := 0
  leakQual := 0
  travel := .fill 0
  span := .fill 0
  meterK := 0
  quantityTol := 0
  mismatchTol := 0
  toppingMargin := 0
  tanks := .fill ⟨0, 0, 0, 0, 0⟩
  checkWord := 0

/-- R186, R188, R191 -/
def SetupLoader.start : SetupLoader := ⟨.hold, 0, 0, none, [], .none, .start, .stopped⟩

/-- R2 -/
def PhaseController.start : PhaseController := ⟨.startup, .idle, 0, 0, none, false, false, false, none⟩

/-- R38: the summary starts empty -/
def JoinSummary.start : JoinSummary := ⟨none, none, none, none, false⟩

/-- R27 -/
def Roster.start : Roster := ⟨[], .start⟩

/-- R48 -/
def RequestHandler.start : RequestHandler := ⟨0, none⟩

/-- R62 -/
def QualTimer.start : QualTimer := ⟨false, .stopped⟩

/-- R60, R63 -/
def TripUnit.start : TripUnit :=
  ⟨none, [], false, ⟨true, true, true, true⟩, .fill .start, .start, .start, .fill false, false, false⟩

/-- R79: both outputs off -/
def Sounding.start : Sounding := ⟨.off, false, .stopped⟩

/-- R75, R79 -/
def Annunciator.start : Annunciator := ⟨[], .start, .start⟩

/-- R81 -/
def Channel.start : Channel := ⟨.stopped, .none, false, .off, .stopped, .stopped⟩

/-- R81, R90, R94 -/
def ValvePump.start : ValvePump :=
  ⟨.fill .start, .none, .stopped, .stopping, .stopped, .stopped, false, false⟩

/-- R100 -/
def ScanChannel.start : ScanChannel := ⟨false, 0, none, none, false, 0, 0⟩

/-- R100, R107, R108. DESIGN CHOICE (log 25): the leak condition is gone. -/
def HoseWatch.start : HoseWatch :=
  ⟨.fill .start, none, .stopped, 0, 0, 0, 0, .none, .stopped, .stopped, false, false⟩

/-- R117 -/
def Tank.start : Tank := ⟨.excluded, false, none, false, 0, false, false, 0⟩

/-- R129 -/
def Claim.start : Claim := ⟨false, none, .stopped⟩

/-- R117, R129, R134, R136 -/
def OverflowWatch.start : OverflowWatch := ⟨.fill .start, .start, .none, .stopped, .stopped, 0, false⟩

/-- R145: every field at its EMPTY value -/
def Record.empty : Record :=
  ⟨.empty, 0, 0, 0, false, 0, 0, 0, false, false, .none, false, .none, ⟨false, false, false, false⟩⟩

/-- R138, R145 -/
def MeterRecord.start : MeterRecord :=
  ⟨0, 0, .stopped, 0, none, false, .stopped, 0, false, 0, .empty⟩

/-- R169: HUNTING with the flags clear -/
def Assembly.start : Assembly := ⟨.hunting, false, [], false, false⟩

/-- R159, R162, R168, R184 -/
def LinkController.start : LinkController :=
  ⟨.quiet, 0, none, none, none, none, none, .start, none, none, .stopped⟩

/-- R201: PHASE, TRIP, TANK, ROSTER and ALARM, with LINK off -/
def ClassMask.start : ClassMask := ⟨true, true, true, true, true, false⟩

/-- R197, R201, R202 -/
def PanelPort.start : PanelPort := ⟨[], false, .start, [], false⟩

/-- The machine right after reset: start-up has just happened (R186), and no command waits. -/
def State.reset : State where
  inputs := .start
  sl := .start
  pc := .start
  sr := .start
  rh := .start
  tu := .start
  an := .start
  vp := .start
  hw := .start
  ow := .start
  mr := .start
  lc := .start
  pp := .start
  pending := []
  draws := 0

end Sys2Proof.Machine
end

