-- ==== Sys2Proof/Machine/Basics.lean ====
section
/-! DEFINITION. Readings of the state that every block shares: role, phase sets, channels in use, valid values. -/

namespace Sys2Proof.Machine

/-! ## Phases -/

/-- R4: the active phases. -/
def Phase.active : Phase → Bool
  | .opening | .starting | .pumping | .topping | .paused | .stopping | .closing => true
  | .idle | .lineup | .ended | .tripped => false

/-- The phases in which the pump's run is on at PU (R94), and from which a trip hands end kind TRIP (R26). -/
def Phase.pumpOn : Phase → Bool
  | .starting | .pumping | .topping => true
  | _ => false

/-- The phases of the zero-window count and of LEAK (R143, R61). -/
def Phase.flowing : Phase → Bool
  | .pumping | .topping => true
  | _ => false

/-! ## The station -/

/-- The station's role (R187); none before the STRAPS step. -/
def State.role (s : State) : Option Role := Role.ofCode s.sl.rl.toNat

/-- Whether the station has a role. -/
def State.hasRole (s : State) (r : Role) : Bool := s.role == some r

/-- The station's number (R187). -/
def State.number (s : State) : Nat := s.sl.sn.toNat

/-- Whether the station state is RUNNING (R1). -/
def State.running (s : State) : Bool := s.pc.station == .running

/-- Whether the station takes part at all: JOINING or RUNNING (R1). -/
def State.listening (s : State) : Bool := s.pc.station == .joining || s.pc.station == .running

/-- PU and RUNNING. -/
def State.runningPu (s : State) : Bool := s.running && s.hasRole .pu

/-- TW and RUNNING. -/
def State.runningTw (s : State) : Bool := s.running && s.hasRole .tw

/-- Roles with a pressure watch on AN1 (R106). -/
def Role.pressure : Role → Bool
  | .pu | .bv | .sv => true
  | _ => false

/-- Whether the station has a pressure watch (R106). -/
def State.pressureRole (s : State) : Bool := s.role.any Role.pressure

/-- Whether the station is BV or SV. -/
def State.valveRole (s : State) : Bool := s.hasRole .bv || s.hasRole .sv

/-- Whether the station has channels in use: BV, SV or TW (R81). -/
def State.closingRole (s : State) : Bool := s.valveRole || s.hasRole .tw

/-- R81: the channels in use, VC1 at BV and SV, VC1 to VCk at TW. -/
def State.channelUsed (s : State) (n : Ch) : Bool :=
  match s.role with
  | some .bv | some .sv => n == .n1
  | some .tw => decide (n.num ≤ s.sl.setup.tankCount)
  | _ => false

/-- R117: tanks in use, T1 to Tk at TW. -/
def State.tankUsed (s : State) (n : Ch) : Bool := s.hasRole .tw && decide (n.num ≤ s.sl.setup.tankCount)

/-- The tanks in use, T1 first. -/
def State.tanksUsed (s : State) : List Ch := Ch.all.filter s.tankUsed

/-- The channels in use, VC1 first. -/
def State.channelsUsed (s : State) : List Ch := Ch.all.filter s.channelUsed

/-- R100: which scan channels a role and tank count enable. -/
def scanEnabled (role : Option Role) (tankCount : Nat) (n : Ch) : Bool :=
  match role with
  | some .pu | some .bv | some .sv => n == .n1
  | some .tw => decide (n.num ≤ tankCount)
  | _ => false

/-- A tank is open when it is OPEN, FILLING or TOPPING (R117). -/
def TankState.isOpen : TankState → Bool
  | .opened | .filling | .topping => true
  | _ => false

/-- FULL or HELD (R134). -/
def TankState.fullOrHeld : TankState → Bool
  | .full | .held => true
  | _ => false

/-- TOPPING, FULL or HELD (R41). -/
def TankState.toppingSeen : TankState → Bool
  | .topping | .full | .held => true
  | _ => false

/-- R103: a channel has a valid value while it is not in fault and its value field is not none. -/
def ScanChannel.valid (c : ScanChannel) : Option Nat := if c.fault then none else c.value

/-- The valid value of AN1. -/
def State.pressure (s : State) : Option Nat := s.hw.chans.n1.valid

/-- R111: the above-threshold fact. -/
def State.aboveThreshold (s : State) : Bool :=
  s.pressureRole && s.pressure.any fun p => decide (s.hw.surgeThreshold < p)

/-- R107: the above-hard-limit fact. -/
def State.aboveHardLimit (s : State) : Bool :=
  s.pressureRole && s.pressure.any fun p => decide (s.hw.hardLimit < p)

/-- R112: the settle fact. -/
def State.settleFact (s : State) : Bool :=
  s.hasRole .pu && s.pressure.any fun p => decide (p < s.hw.settleLevel)

/-- R129: the CLAIM flag. -/
def State.claimFlag (s : State) : Bool := s.ow.claim.waiting

/-- The header every frame of the station carries (R174); none without a role. -/
def State.header (s : State) : Option Header :=
  s.role.map fun r => ⟨s.number, r, s.mr.record.transfer, s.pc.gen⟩

/-- R81: a channel is at rest (R82) when its drive is OFF and it has no command or is close pending. -/
def Channel.atRest (c : Channel) : Bool := c.drive == .off && (c.command == .none || c.pending)

/-- The open switch of a channel. -/
def State.openOn (s : State) (n : Ch) : Bool := s.inputs.openSw.get n

/-- The shut switch of a channel. -/
def State.shutOn (s : State) (n : Ch) : Bool := s.inputs.shutSw.get n

end Sys2Proof.Machine
end

