-- ==== Sys2Proof/Machine/Clock.lean ====
section
/-! DEFINITION. One millisecond with no command waiting (log 6): every running timer, every age and the idle time advance,
each held at its limit until the command of its expiry is taken (log 7). -/

namespace Sys2Proof.Machine

/-- R35, R37: an entry's age after a millisecond. A protected entry is held at the silence limit until it is SILENT, an
unprotected one at the silence limit until it has passed it and then at four times the limit; every age stops at 600,000
ms. -/
def Entry.tick (limit : Nat) (e : Entry) : Entry :=
  if e.protected' then
    { e with age := min (if e.presence = .silent then 600000 else limit) (e.age + 1) }
  else { e with age := min (if e.age ≤ limit then limit else 4 * limit) (e.age + 1) }

/-- R62 -/
def QualTimer.tick (limit : Nat) (q : QualTimer) : QualTimer := { q with timer := q.timer.tick limit }

/-- R79: the half of a cadence, in ms. -/
def Cadence.half : Cadence → Nat
  | .fast => 250
  | _ => 1000

/-- R79 -/
def Sounding.tick (o : Sounding) : Sounding := { o with half := o.half.tick o.cadence.half }

/-- R83, R87: dwell up to 500 ms, travel up to the channel's limit in s. -/
def Channel.tick (limit : Nat) (c : Channel) : Channel :=
  { c with dwell := c.dwell.tick 500, travel := c.travel.tick (1000 * limit) }

/-- R90, R94 -/
def ValvePump.tick (c : Setup) (v : ValvePump) : ValvePump :=
  { v with
    channels := ⟨v.channels.n1.tick c.travel.n1, v.channels.n2.tick c.travel.n2, v.channels.n3.tick c.travel.n3,
      v.channels.n4.tick c.travel.n4⟩
    holdOffTimer := v.holdOffTimer.tick (1000 * c.holdOff)
    feedback := v.feedback.tick 10000
    stopTimer := v.stopTimer.tick 30000 }

/-- R101, R108 -/
def HoseWatch.tick (c : Setup) (h : HoseWatch) : HoseWatch :=
  { h with setTimer := h.setTimer.tick 1000, allowance := h.allowance.tick (1000 * c.allowance)
           relax := h.relax.tick (1000 * c.relax) }

/-- R129, R135 -/
def OverflowWatch.tick (o : OverflowWatch) : OverflowWatch :=
  { o with claim := { o.claim with timer := o.claim.timer.tick 500 }
           settleWindow := o.settleWindow.tick 20000, settleLimit := o.settleLimit.tick 120000 }

/-- R138 -/
def MeterRecord.tick (c : Setup) (m : MeterRecord) : MeterRecord :=
  { m with window := m.window.tick 10000, startLimit := m.startLimit.tick (1000 * c.startLimit) }

/-- R60, R62 -/
def TripUnit.tick (c : Setup) (t : TripUnit) : TripUnit :=
  { t with overfill := t.overfill.map (QualTimer.tick 1000), surge := t.surge.tick c.surgeQual
           leak := t.leak.tick c.leakQual }

/-- R159: hundredths of a character time in a millisecond: 1.92 characters at 19,200 bit/s, 3.84 at 38,400. -/
def charHundredths (fast : Bool) : Nat := if fast then 384 else 192

/-- A millisecond passes. -/
def State.tick (s : State) : State :=
  { s with
    sl := { s.sl with joinWindow := s.sl.joinWindow.tick (2 * s.sl.setup.silence) }
    pc := { s.pc with inHand := s.pc.inHand.map fun h => { h with timer := h.timer.tick 5000 } }
    sr := { s.sr with
      entries := if s.listening then s.sr.entries.map (Entry.tick s.sl.setup.silence) else s.sr.entries }
    rh := { s.rh with outstanding := s.rh.outstanding.map fun o => { o with timer := o.timer.tick 1000 } }
    tu := s.tu.tick s.sl.setup
    an := { s.an with horn := s.an.horn.tick, beacon := s.an.beacon.tick }
    vp := s.vp.tick s.sl.setup
    hw := s.hw.tick s.sl.setup
    ow := s.ow.tick
    mr := s.mr.tick s.sl.setup
    lc := { s.lc with
      idle := if s.listening then s.lc.idle + charHundredths s.sl.setup.fastLink else s.lc.idle
      heartbeat := s.lc.heartbeat.tick 250 } }

end Sys2Proof.Machine
end

