-- ==== Sys2Proof/Machine/Conditions.lean ====
section
/-! DEFINITION. The roster conditions that other blocks use (R39 to R45), and the conditions MR and OW read from them. -/

namespace Sys2Proof.Machine

/-- R39: the last status, if its generation is this station's own. -/
def Entry.current (e : Entry) (gen : BitVec 8) : Option Status := e.last.filter fun st => st.gen == gen

/-- Whether an entry's current last status meets a condition. -/
def Entry.shows (e : Entry) (gen : BitVec 8) (f : Status → Bool) : Bool := (e.current gen).any f

/-- Whether an entry has a role. -/
def Entry.hasRole (e : Entry) (r : Role) : Bool := e.role == some r

/-- R35: PRESENT, and the age has not passed the silence limit. -/
def Entry.live (e : Entry) (silence : Nat) : Bool :=
  e.presence == .present && (e.protected' || decide (e.age ≤ silence))

/-- The entry of a station number. -/
def Roster.find (r : Roster) (n : Nat) : Option Entry := r.entries.find? fun e => e.number == n

/-- The entry of a role that is single on a link (PU, BV, SV). -/
def Roster.ofRole (r : Roster) (role : Role) : Option Entry := r.entries.find? fun e => e.hasRole role

/-- The protected entries, in recency order. -/
def Roster.guarded (r : Roster) : List Entry := r.entries.filter fun e => e.protected'

/-- The protected entries of role TW. -/
def Roster.guardedTw (r : Roster) : List Entry := r.guarded.filter fun e => e.hasRole .tw

/-- The protected entries in line-up list order (R40, R45). -/
def State.lineupEntries (s : State) : List Entry :=
  s.sl.setup.lineup.filterMap fun n => s.sr.guarded.find? fun e => e.number == n

/-- Whether every protected entry is PRESENT (R40). -/
def State.allPresent (s : State) : Bool := s.sr.guarded.all fun e => e.presence == .present

/-- Whether some protected entry is SILENT (R64, LINKLOSS). -/
def State.someSilent (s : State) : Bool := s.sr.guarded.any fun e => e.presence == .silent

/-- R40: whether one protected entry passes the line-up ready set. -/
def Entry.readyInLineup (e : Entry) (gen : BitVec 8) : Bool :=
  e.presence == .present && e.shows gen fun st => st.phase == .lineup && st.ready

/-- R40: the line-up ready set. -/
def State.lineupReadySet (s : State) : Bool :=
  s.sr.guarded.all (fun e => e.readyInLineup s.pc.gen)
    && (s.sr.guarded.any fun e => e.hasRole .bv)
    && (s.sr.guarded.any fun e => e.hasRole .sv)
    && (s.sr.guarded.any fun e => e.hasRole .tw)

/-- R45: whether one protected entry meets the reset conditions. -/
def Entry.resettable (e : Entry) (gen : BitVec 8) : Bool :=
  e.presence == .present && e.shows gen fun st => !st.cause && st.closed

/-- R45: the reset conditions for peers. -/
def State.peersResettable (s : State) : Bool := s.sr.guarded.all fun e => e.resettable s.pc.gen

/-- The station number of the first protected entry, in line-up list order, that fails a test. -/
def State.firstFailing (s : State) (ok : Entry → Bool) : Option Nat :=
  (s.lineupEntries.find? fun e => !ok e).map fun e => e.number

/-- Whether the entry of a role shows, in a current last status, what a test asks (R41). -/
def State.roleShows (s : State) (r : Role) (f : Status → Bool) : Bool :=
  (s.sr.ofRole r).any fun e => e.shows s.pc.gen f

/-- A STATUS body of BV or SV with the valve OPEN. -/
def RoleBody.valveOpen : RoleBody → Bool
  | .valve .opened _ _ => true
  | _ => false

/-- The tank items of a STATUS body; none but at TW. -/
def RoleBody.items : RoleBody → List TankItem
  | .tw _ _ items => items
  | _ => []

/-- The receipt state of a TW body. -/
def RoleBody.receipt : RoleBody → ReceiptState
  | .tw r _ _ => r
  | _ => .none

/-- The pump state of a PU body. -/
def RoleBody.pump : RoleBody → Option PumpState
  | .pu p _ _ _ _ _ _ => some p
  | _ => none

/-- R41: BV open. -/
def State.bvOpen (s : State) : Bool := s.roleShows .bv fun st => st.body.valveOpen

/-- R41: SV open. -/
def State.svOpen (s : State) : Bool := s.roleShows .sv fun st => st.body.valveOpen

/-- R41: BV closed. -/
def State.bvClosed (s : State) : Bool := s.roleShows .bv fun st => st.closed

/-- R41: SV closed. -/
def State.svClosed (s : State) : Bool := s.roleShows .sv fun st => st.closed

/-- Whether there is a protected TW entry and every one of them shows what a test asks (R41, R43). -/
def State.everyTw (s : State) (f : Status → Bool) : Bool :=
  !s.sr.guardedTw.isEmpty && s.sr.guardedTw.all fun e => e.shows s.pc.gen f

/-- R41: path proved. -/
def State.pathProved (s : State) : Bool := s.everyTw fun st => st.path

/-- R41: topping seen. -/
def State.toppingSeen (s : State) : Bool :=
  s.sr.entries.any fun e =>
    e.hasRole .tw && e.shows s.pc.gen fun st => st.body.items.any fun i => i.state.toppingSeen

/-- R41: receivers full. -/
def State.receiversFull (s : State) : Bool := s.everyTw fun st => st.body.receipt == .allfull

/-- R41: all closed. -/
def State.allClosed (s : State) : Bool := s.sr.guarded.all fun e => e.shows s.pc.gen fun st => st.closed

/-- R10: confirmation, for the target phase and generation of the step in hand. -/
def State.confirmed (s : State) (h : StepInHand) : Bool :=
  (s.sr.guarded.filter fun e => e.presence == .present).all fun e => e.shows h.gen fun st => st.phase == h.target

/-- R42: a peer shows an open route. -/
def State.peerRoute (s : State) : Bool :=
  s.sr.entries.any fun e =>
    e.hasRole .tw && e.live s.sl.setup.silence
      && e.shows s.pc.gen fun st => !st.claim && st.body.items.any fun i => i.state.isOpen

/-- R42: peer claim below. -/
def State.peerClaimBelow (s : State) : Bool :=
  s.sr.entries.any fun e =>
    e.hasRole .tw && decide (e.number < s.number) && e.live s.sl.setup.silence
      && e.shows s.pc.gen fun st => st.claim

/-- R43: the last status of an entry, if it carries the record's transfer number. -/
def Entry.figures (e : Entry) (transfer : BitVec 8) : Option Status := e.last.filter fun st => st.transfer == transfer

/-- R43: the received quantity one entry adds to the sum. -/
def Entry.receivedPart (e : Entry) (transfer : BitVec 8) : Nat :=
  match e.hasRole .tw, e.figures transfer with
  | true, some st =>
      match st.body with
      | .tw _ received _ => received
      | _ => 0
  | _, _ => 0

/-- R43: the sum of the received quantities the roster offers. -/
def State.peersReceived (s : State) : Nat :=
  (s.sr.entries.map fun e => e.receivedPart s.mr.record.transfer).sum

/-- R43: external end seen. -/
def State.externalEndSeen (s : State) : Bool :=
  s.roleShows .pu fun st => st.body.pump == some .stopped
    && (st.phase == .stopping || st.phase == .closing || st.phase == .ended || st.phase == .tripped)

/-- R43: the internal-end test on a peer's receipt state and tank items. -/
def Status.internalEnd (st : Status) : Bool :=
  match st.body with
  | .tw .allfull _ _ | .tw .complete _ _ => true
  | .tw .settling _ items => items.all fun i => i.state == .excluded || i.state.fullOrHeld
  | _ => false

/-- R44: PU stopped, the release condition for close pending. -/
def State.puStopped (s : State) : Bool :=
  (s.sr.ofRole .pu).any fun e =>
    e.live s.sl.setup.silence && e.last.any fun st => st.body.pump == some .stopped

/-- R44, R113: the BV pressure SV reads: the BV entry PRESENT, its last status' pressure not marked not valid. -/
def State.bvPressure (s : State) : Option Nat :=
  (s.sr.ofRole .bv).bind fun e =>
    if e.presence == .present then
      e.last.bind fun st =>
        match st.body with
        | .valve _ p true => some p
        | _ => none
    else none

/-- R113: the leak condition, evaluated. -/
def State.leakNow (s : State) : Bool :=
  s.hasRole .sv
    && match s.pressure, s.bvPressure with
       | some own, some bv => decide (own + s.sl.setup.leakBand < bv)
       | _, _ => false

/-- R49: whether the roster holds a live entry of role PU. -/
def State.puLive (s : State) : Bool := (s.sr.ofRole .pu).any fun e => e.live s.sl.setup.silence

/-! ## Conditions with the station's own part -/

/-- R150: the internal-end test on the station's own tanks (TW). -/
def State.ownInternalEnd (s : State) : Bool :=
  match s.ow.receipt with
  | .allfull | .complete => true
  | .settling => s.tanksUsed.all fun n =>
      (s.ow.tanks.get n).state == .excluded || (s.ow.tanks.get n).state.fullOrHeld
  | _ => false

/-- R150: the internal-end condition. -/
def State.internalEndNow (s : State) : Bool :=
  if s.hasRole .tw then
    s.ownInternalEnd && s.sr.guardedTw.all fun e => e.shows s.pc.gen Status.internalEnd
  else s.everyTw Status.internalEnd

/-- R151: the all-complete condition. -/
def State.allComplete (s : State) : Bool :=
  if s.hasRole .tw then
    s.ow.receipt == .complete
      && s.sr.guardedTw.all fun e => e.shows s.pc.gen fun st => st.body.receipt == .complete
  else s.everyTw fun st => st.body.receipt == .complete

/-- R147: received, own figure included at TW, stopping at 99,999,999 L. -/
def State.receivedNow (s : State) : Nat :=
  min 99999999 (s.peersReceived + if s.hasRole .tw then s.ow.received else 0)

end Sys2Proof.Machine
end

