-- ==== Sys2Proof/Machine/Flags.lean ====
section
/-! DEFINITION. Every flag the station computes: active conditions and CAUSE (R64), READY, PATH and CLOSED (R17, R19,
R20, R40), the conditions of the alarms (R76) and the cadences (R79). -/

namespace Sys2Proof.Machine

/-! ## Causes -/

/-- The twelve causes in the order of the table of R61. -/
def Cause.all : List Cause :=
  [.manual, .separation, .overfill, .surge, .hardlimit, .leak, .linkloss, .valve, .pump, .noflow, .sensor, .phase]

/-- R63: whether a cause is enabled. -/
def ProfileMask.enables (m : ProfileMask) : Cause → Bool
  | .surge => m.surge
  | .leak => m.leak
  | .noflow => m.noflow
  | .sensor => m.sensor
  | _ => true

/-- R61: the phases in which a cause latches. PUMP's phases depend on its reason (R97) and are given where it is handed;
here stands their union. -/
def Cause.latchesIn (c : Cause) (p : Phase) : Bool :=
  match c with
  | .manual | .overfill | .phase => true
  | .separation => p != .idle && p != .ended
  | .surge | .hardlimit | .pump => p.active || p == .tripped
  | .leak => p.flowing
  | .linkloss | .valve | .sensor => p.active
  | .noflow => p.pumpOn

/-- R64: the active condition of a cause. -/
def State.causeActive (s : State) : Cause → Bool
  | .manual => s.inputs.esd
  | .separation => s.valveRole && s.inputs.sep
  | .overfill => s.tanksUsed.any fun n => (s.ow.tanks.get n).overfill
  | .surge => s.aboveThreshold
  | .hardlimit => s.aboveHardLimit
  | .leak => s.hw.leakCond
  | .linkloss => s.someSilent
  | .valve => s.channelsUsed.any fun n => (s.vp.channels.get n).state == .fault
  | .pump => s.hasRole .pu && (s.inputs.pumpFb != s.vp.pumpRun)
  | .noflow | .phase => false
  | .sensor => Ch.all.any fun n => (s.hw.chans.get n).enabled && (s.hw.chans.get n).fault

/-- R64: the CAUSE flag. -/
def State.causeFlag (s : State) : Bool := s.tu.latched.any fun l => s.causeActive l.cause

/-- R72: the first active cause of the latched set, in the order of the table of R61. -/
def State.firstActiveCause (s : State) : Option Cause :=
  Cause.all.find? fun c => (s.tu.latched.any fun l => l.cause == c) && s.causeActive c

/-- R19, R64: some enabled cause for PU's role has its active condition, latched or not. -/
def State.causePresentAtPu (s : State) : Bool :=
  [Cause.manual, .surge, .hardlimit, .linkloss, .pump, .sensor].any fun c => s.tu.mask.enables c && s.causeActive c

/-! ## READY, PATH, CLOSED -/

/-- R19: READY for the role, the phase apart. -/
def State.readyForRole (s : State) : Bool :=
  match s.role with
  | some .pu => s.vp.pump == .stopped && !s.inputs.pumpFb && !s.causePresentAtPu && s.allPresent
  | some .bv | some .sv =>
      s.vp.channels.n1.state == .shut && !s.hw.chans.n1.fault && !s.inputs.sep && s.allPresent
  | some .tw =>
      (s.tanksUsed.any fun n => (s.ow.tanks.get n).state == .assigned)
        && (s.tanksUsed.all fun n =>
              (s.ow.tanks.get n).state != .assigned
                || ((s.vp.channels.get n).state == .shut && (s.ow.tanks.get n).levelValid
                    && (s.ow.tanks.get n).level.any fun l => decide (l < (s.sl.setup.tanks.get n).topping)))
        && (s.tanksUsed.all fun n => !s.inputs.hh.get n) && s.allPresent
  | some .mn => true
  | none => false

/-- R17: READY. -/
def State.readyNow (s : State) : Bool := s.running && s.pc.phase == .lineup && s.readyForRole

/-- R20: every channel of a tank taking part is OPEN. -/
def State.allRoutesOpen (s : State) : Bool :=
  s.tanksUsed.all fun n => !(s.ow.tanks.get n).takingPart || (s.vp.channels.get n).state == .opened

/-- R17, R20: PATH. -/
def State.pathNow (s : State) : Bool :=
  s.runningTw
    && match s.pc.phase with
       | .opening => s.pc.path || s.allRoutesOpen
       | .starting | .pumping | .topping | .paused | .stopping => s.pc.path
       | .idle | .lineup | .closing | .ended | .tripped => false

/-- R17: CLOSED. -/
def State.closedNow (s : State) : Bool :=
  s.running
    && match s.role with
       | some .bv | some .sv => s.vp.channels.n1.state == .shut
       | some .tw => s.tanksUsed.all fun n => (s.vp.channels.get n).state == .shut
       | some .pu => s.vp.pump == .stopped
       | some .mn => true
       | none => false

/-! ## Qualification timers -/

/-- The qualification timer of a name (R62). -/
def TripUnit.qualTimer (t : TripUnit) : QualId → Timer
  | .overfill n => (t.overfill.get n).timer
  | .surge => t.surge.timer
  | .leak => t.leak.timer

/-! ## Alarms -/

/-- R191: the reason of a SETUP alarm. -/
def FaultRecord.reason : FaultRecord → Option OfflineReason
  | .none => Option.none
  | .strap _ _ => some .strap
  | .setup _ _ => some .setup
  | .clash _ _ => some .clash

/-- R76: whether the condition of an alarm holds. Outside RUNNING only SETUP is taken. NOFLOW is momentary: its
condition never stands. -/
def State.alarmCondition (s : State) : AlarmKey → Bool
  | .trip => s.running && s.pc.phase == .tripped
  | .setup r => s.pc.station == .offline && s.sl.fault.reason == some r
  | .highlevel n => s.running && s.tankUsed n && (s.ow.tanks.get n).highAlarm
  | .ratecap => s.running && s.mr.cap
  | .sensor n =>
      s.running && (s.hw.chans.get n).enabled && (s.hw.chans.get n).fault
        && (!s.pc.phase.active || !s.tu.mask.sensor)
  | .silent st =>
      s.running && !s.pc.phase.active && s.sr.guarded.any fun e => e.number == st && e.presence == .silent
  | .surge => s.running && !s.tu.mask.surge && s.tu.surgeQualified && s.aboveThreshold
  | .leak => s.running && !s.tu.mask.leak && s.tu.leakQualified && s.hw.leakCond
  | .noflow => false

/-- The alarms in the order they are evaluated when several change in one step. DESIGN CHOICE (log 29), for no rule orders
them: the order of the table of R76, tanks and channels by rising number, and the SILENT alarms in the recency order of
the protected entries. -/
def State.alarmKeys (s : State) : List AlarmKey :=
  [.trip, .setup .strap, .setup .setup, .setup .clash] ++ Ch.all.map .highlevel ++ [.ratecap] ++ Ch.all.map .sensor
    ++ s.sr.guarded.map (fun e => .silent e.number) ++ [.surge, .leak]

/-- The entry of an alarm. -/
def alarmEntry (set : List AlarmEntry) (k : AlarmKey) : Option AlarmEntry := set.find? fun e => e.key == k

/-- Give an alarm's entry a new state, keeping its place. -/
def alarmSet (set : List AlarmEntry) (k : AlarmKey) (st : AlarmState) : List AlarmEntry :=
  set.map fun e => if e.key == k then { e with state := st } else e

/-- The set without an alarm's entry. -/
def alarmDrop (set : List AlarmEntry) (k : AlarmKey) : List AlarmEntry := set.filter fun e => e.key != k

/-- R75: one alarm's condition taken, standing or not: the set, and the ALARM event of R80 if the set changed. -/
def alarmTake (set : List AlarmEntry) (k : AlarmKey) (holds : Bool) : List AlarmEntry × Option Event :=
  match holds, (alarmEntry set k).map (·.state) with
  | true, none => (set ++ [⟨k, .activeNew⟩], some (.alarm k (some .activeNew)))
  | true, some .clearNew => (alarmSet set k .activeNew, some (.alarm k (some .activeNew)))
  | false, some .activeNew => (alarmSet set k .clearNew, some (.alarm k (some .clearNew)))
  | false, some .activeAcked => (alarmDrop set k, some (.alarm k none))
  | _, _ => (set, none)

/-- R75: a momentary condition. -/
def alarmMomentary (set : List AlarmEntry) (k : AlarmKey) : List AlarmEntry × Option Event :=
  match (alarmEntry set k).map (·.state) with
  | none => (set ++ [⟨k, .clearNew⟩], some (.alarm k (some .clearNew)))
  | some .activeNew | some .activeAcked => (alarmSet set k .clearNew, some (.alarm k (some .clearNew)))
  | some .clearNew => (set, none)

/-- R75, R78: an acknowledge, on every entry of the set at that moment. DESIGN CHOICE (log 62): the events stand in set
order. -/
def alarmAcknowledge : List AlarmEntry → List AlarmEntry × List Event
  | [] => ([], [])
  | e :: rest =>
      match e.state with
      | .activeNew =>
          (⟨e.key, .activeAcked⟩ :: (alarmAcknowledge rest).1,
            .alarm e.key (some .activeAcked) :: (alarmAcknowledge rest).2)
      | .activeAcked => (e :: (alarmAcknowledge rest).1, (alarmAcknowledge rest).2)
      | .clearNew => ((alarmAcknowledge rest).1, .alarm e.key none :: (alarmAcknowledge rest).2)

/-- R76: every alarm's condition taken in order. -/
def alarmSweep (cond : AlarmKey → Bool) : List AlarmKey → List AlarmEntry → List AlarmEntry × List Event
  | [], set => (set, [])
  | k :: rest, set =>
      let r := alarmTake set k (cond k)
      let q := alarmSweep cond rest r.1
      (q.1, r.2.toList ++ q.2)

/-- R79: HORN's cadence. -/
def hornCadence (set : List AlarmEntry) : Cadence :=
  if set.any fun e => e.key == .trip && e.state == .activeNew then .fast
  else if set.any fun e => e.state == .activeNew then .slow
  else .off

/-- R79: BEACON's cadence. -/
def beaconCadence (set : List AlarmEntry) : Cadence :=
  if set.any fun e => e.key == .trip && (e.state == .activeNew || e.state == .clearNew) then .fast
  else if set.any fun e => e.key == .trip && e.state == .activeAcked then .steady
  else if !set.isEmpty then .slow
  else .off

/-- Whether a cadence alternates. -/
def Cadence.alternates : Cadence → Bool
  | .fast | .slow => true
  | _ => false

/-- R79: an output takes a cadence. A new cadence begins with its on half; the same cadence runs on unbroken. -/
def Sounding.take (o : Sounding) (c : Cadence) : Sounding :=
  if o.cadence = c then o
  else ⟨c, c != .off, if c.alternates then .fromZero else .stopped⟩

/-- R79: HORN and BEACON driven from a set. -/
def Annunciator.drive (a : Annunciator) (set : List AlarmEntry) : Annunciator :=
  ⟨set, a.horn.take (hornCadence set), a.beacon.take (beaconCadence set)⟩

end Sys2Proof.Machine
end

