-- ==== Sys2Proof/Machine/Ops.lean ====
section
/-! DEFINITION. The shared operations: giving a report, asking for a frame, withdrawing one, `watch`, which brings
every level-driven fact (qualification timers, flags, alarms, cadences) into line with the state, and `watchLeak`, which
evaluates the leak condition (R113). -/

namespace Sys2Proof.Machine

/-! ## Reports (R202) -/

/-- The report queue's limit (R202). -/
def queueLimit : Nat := 8

/-- Whether a report is an EVENT. -/
def Queued.isEvent (q : Queued) : Bool :=
  match q.report with
  | .event _ => true
  | _ => false

/-- R201: whether a class is in the mask. -/
def ClassMask.has (m : ClassMask) : EventClass → Bool
  | .phase => m.phase
  | .trip => m.trip
  | .tank => m.tank
  | .roster => m.roster
  | .alarm => m.alarm
  | .link => m.link

/-- A report placed at the end of a queue with room. Into an empty queue it begins at once, and then takes the LOST mark
if the lost flag is set (R202). -/
def PanelPort.append (p : PanelPort) (r : Report) : PanelPort :=
  if p.queue.isEmpty then { p with queue := [⟨r, p.lost⟩], lost := false }
  else { p with queue := p.queue ++ [⟨r, false⟩] }

/-- R201, R202: an EVENT handed over. -/
def PanelPort.placeEvent (p : PanelPort) (e : Event) : PanelPort :=
  if !p.mask.has e.cls then p
  else if p.queue.length < queueLimit then p.append (.event e)
  else { p with lost := true }

/-- The reports behind the one being sent, without the newest EVENT among them; none if there is no EVENT. -/
def dropNewestEvent : List Queued → Option (List Queued)
  | [] => none
  | q :: rest =>
      match dropNewestEvent rest with
      | some l => some (q :: l)
      | none => if q.isEvent then some rest else none

/-- R202: an ANSWER or DATA report. With the queue full, the newest EVENT other than the one being sent is discarded to
make room; with no such EVENT the report finds no place (the room check of R202 keeps this from happening: log 31). -/
def PanelPort.placeReply (p : PanelPort) (r : Report) : PanelPort :=
  if p.queue.length < queueLimit then p.append r
  else
    match p.queue with
    | [] => p
    | sent :: rest =>
        match dropNewestEvent rest with
        | some l => { p with queue := sent :: (l ++ [⟨r, false⟩]), lost := true }
        | none => { p with lost := true }

/-- R202: the oldest report leaves the queue and the next begins, with the LOST mark if the lost flag is set. -/
def PanelPort.finish (p : PanelPort) : PanelPort :=
  match p.queue with
  | _ :: next :: rest => { p with queue := ⟨next.report, next.lostMark || p.lost⟩ :: rest, lost := false }
  | _ => { p with queue := [] }

/-- R200: an event handed to the Panel Port. DESIGN CHOICE (log 65): events of one command that no rule orders stand in
the order in which the definitions hand them over. -/
def State.emit (s : State) (e : Event) : State := { s with pp := s.pp.placeEvent e }

/-- An event handed over if something holds. -/
def State.emitIf (s : State) (b : Bool) (e : Event) : State := if b then s.emit e else s

/-- Events handed over in order. -/
def State.emitAll (s : State) (l : List Event) : State := { s with pp := l.foldl PanelPort.placeEvent s.pp }

/-- An ANSWER or DATA report handed to the Panel Port. -/
def State.report (s : State) (r : Report) : State := { s with pp := s.pp.placeReply r }

/-! ## The transmit queue (R162, R167) -/

/-- Whether an attempt of a kind is under way and not detached from its place (R167). -/
def LinkController.underWay (l : LinkController) (k : FrameKind) : Bool :=
  l.attempt.any fun a => a.kind == k && !a.detached

/-- The place of a kind. -/
def LinkController.place (l : LinkController) : FrameKind → Option Place
  | .trip => l.trip
  | .answer => l.answer
  | .request => l.request
  | .status => l.status

/-- Fill or free the place of a kind. -/
def LinkController.setPlace (l : LinkController) (k : FrameKind) (p : Option Place) : LinkController :=
  match k with
  | .trip => { l with trip := p }
  | .answer => { l with answer := p }
  | .request => { l with request := p }
  | .status => { l with status := p }

/-- R162: a STATUS or TRIP asked for. -/
def LinkController.ask (l : LinkController) (k : FrameKind) : LinkController :=
  match l.place k with
  | none => l.setPlace k (some ⟨none, 0, false⟩)
  | some p => l.setPlace k (some { p with askedAgain := p.askedAgain || l.underWay k })

/-- R167: a frame withdrawn. One whose attempt is under way is detached and completed on the line. -/
def LinkController.withdraw (l : LinkController) (k : FrameKind) : LinkController :=
  { l.setPlace k none with
    attempt := if l.underWay k then l.attempt.map fun a => { a with detached := true } else l.attempt }

/-- R162: a REQUEST or ANSWER placed, whole. DESIGN CHOICE (log 51): R162 says that an occupied place does not arise, yet
R51 can end a request whose REQUEST still waits or is under way; the frame that stood there is then withdrawn as in
R167. -/
def LinkController.hold (l : LinkController) (k : FrameKind) (f : HeldFrame) : LinkController :=
  (l.withdraw k).setPlace k (some ⟨some f, 0, false⟩)

/-- R162: a block asks for a STATUS or TRIP. Outside RUNNING the request has no effect. -/
def State.ask (s : State) (k : FrameKind) : State := if s.running then { s with lc := s.lc.ask k } else s

/-- R183: a block asks for a STATUS. -/
def State.askStatus (s : State) : State := s.ask .status

/-- A STATUS asked for if something changed. -/
def State.askStatusIf (s : State) (b : Bool) : State := if b then s.askStatus else s

/-! ## Watching levels -/

/-- R62: a qualification timer starts from zero when its condition comes to stand in a listed phase, and stops at zero
when it stands no more. A timer that has run out does not start again while its condition goes on standing (log 15). -/
def QualTimer.take (q : QualTimer) (present : Bool) : QualTimer :=
  if present then (if q.armed then q else ⟨true, .fromZero⟩) else .start

/-- R62: whether the OVERFILL condition of a tank is reported present in a listed phase (every phase). -/
def State.overfillPresent (s : State) (n : Ch) : Bool :=
  s.running && s.tankUsed n && (s.ow.tanks.get n).overfill

/-- R62: whether the SURGE condition is reported present in a listed phase. -/
def State.surgePresent (s : State) : Bool :=
  s.running && s.hw.surgeCond && Cause.surge.latchesIn s.pc.phase

/-- R62: whether the LEAK condition is reported present in a listed phase. -/
def State.leakPresent (s : State) : Bool :=
  s.running && s.hw.leakCond && Cause.leak.latchesIn s.pc.phase

/-- R113: the leak condition evaluated, which is done at the events the rule names alone: a good reading of the own AN1
and its entry into or exit from sensor fault, in JOINING and RUNNING, and what a roster change gives, in RUNNING alone
(R29, log 25). -/
def State.watchLeak (s : State) : State := { s with hw := { s.hw with leakCond := s.leakNow } }

/-- R62, R76: the qualification timers and the qualified facts of disabled causes. -/
def State.watchTimers (s : State) : State :=
  { s with tu := { s.tu with
      overfill := ⟨s.tu.overfill.n1.take (s.overfillPresent .n1), s.tu.overfill.n2.take (s.overfillPresent .n2),
        s.tu.overfill.n3.take (s.overfillPresent .n3), s.tu.overfill.n4.take (s.overfillPresent .n4)⟩
      surge := s.tu.surge.take s.surgePresent
      leak := s.tu.leak.take s.leakPresent
      surgeQualified := s.tu.surgeQualified && s.aboveThreshold
      leakQualified := s.tu.leakQualified && s.hw.leakCond } }

/-- R17, R183: READY, PATH and CLOSED. A change of any asks for a STATUS. -/
def State.watchFlags (s : State) : State :=
  ({ s with pc := { s.pc with ready := s.readyNow, path := s.pathNow, closed := s.closedNow } }).askStatusIf
    (s.pc.ready != s.readyNow || s.pc.path != s.pathNow || s.pc.closed != s.closedNow)

/-- R64, R183: the CAUSE flag. A change asks for a STATUS. -/
def State.watchCause (s : State) : State :=
  ({ s with tu := { s.tu with cause := s.causeFlag } }).askStatusIf (s.tu.cause != s.causeFlag)

/-- R75, R76, R79, R80: some alarms' conditions taken in order: the set, its events, HORN and BEACON. -/
def State.sweepAlarms (s : State) (l : List AlarmKey) : State :=
  let r := alarmSweep s.alarmCondition l s.an.set
  { s with an := s.an.drive r.1 }.emitAll r.2

/-- Every alarm's condition taken. -/
def State.watchAlarms (s : State) : State := s.sweepAlarms s.alarmKeys

/-- Every level-driven fact brought into line (log 11), the leak condition apart, which is evaluated at its own events
(R113). -/
def State.watch (s : State) : State := s.watchTimers.watchFlags.watchCause.watchAlarms

end Sys2Proof.Machine
end

