-- ==== Sys2Proof/Machine/Movement.lean ====
section
/-! DEFINITION. Movement in the plant: what a valve channel does with a command, a reading or a timer (R82 to R92), the
close hold-off (R90), the pump's start, stop and proof (R95, R96), and the excursion allowance they open (R109). -/

namespace Sys2Proof.Machine

/-! ## One channel. `os` and `cs` are the levels of its open and shut switches. -/

/-- R83: a drive goes off; the dwell starts and the travel timer stops. -/
def Channel.driveOff (c : Channel) : Channel :=
  if c.drive = .off then c else { c with drive := .off, dwell := .fromZero, travel := .stopped }

/-- R86: whether the channel is at the end of its command. -/
def Channel.arrived (c : Channel) (os cs : Bool) : Bool :=
  match c.command with
  | .opened => os && !cs
  | .close => cs && !os
  | .none => false

/-- R86: arrival. -/
def Channel.arrive (c : Channel) : Channel :=
  { c.driveOff with
    command := .none, pending := false, state := if c.command = .opened then .opened else .shut }

/-- R83: whether a drive goes on. -/
def Channel.mayDrive (c : Channel) (os cs : Bool) : Bool :=
  c.command != .none && !c.pending && !c.dwell.running && !(os && cs) && c.drive == .off

/-- R83: the drive in the direction of the command goes on. -/
def Channel.driveOn (c : Channel) : Channel :=
  { c with drive := if c.command = .opened then .opened else .close, travel := .fromZero }

/-- What a channel with a command does next: arrive if it is at its end (R86, log 16), else drive on if it may (R83). -/
def Channel.progress (c : Channel) (os cs : Bool) : Channel :=
  if c.arrived os cs then c.arrive else if c.mayDrive os cs then c.driveOn else c

/-- R84: an open command. A FAULT channel refuses it, and a close-pending channel disregards it. -/
def Channel.open' (c : Channel) (os cs : Bool) : Channel :=
  if c.pending then c
  else
    match c.state with
    | .shut | .stopped => { c with command := .opened, state := .opening }.progress os cs
    | .closing => { c.driveOff with command := .opened, state := .opening }.progress os cs
    | .opening | .opened | .fault => c

/-- R84: whether an open command is refused because the channel is in FAULT. -/
def Channel.refusesOpen (c : Channel) : Bool := c.state == .fault && !c.pending

/-- R85: an immediate close command. -/
def Channel.close (c : Channel) (os cs : Bool) : Channel :=
  match c.state with
  | .shut | .closing => { c with pending := false }
  | .opened | .stopped | .fault =>
      { c with pending := false, command := .close, state := .closing }.progress os cs
  | .opening => { c.driveOff with pending := false, command := .close, state := .closing }.progress os cs

/-- R89: a close command with close pending. -/
def Channel.closePending (c : Channel) : Channel :=
  match c.state with
  | .opened | .stopped | .fault => { c with command := .close, pending := true }
  | .opening => { c.driveOff with state := .stopped, command := .close, pending := true }
  | .closing | .shut => c

/-- R90: release of a close-pending channel. -/
def Channel.release (c : Channel) (os cs : Bool) : Channel :=
  if c.pending then { c with pending := false, command := .close, state := .closing }.progress os cs else c

/-- R87, R88: a channel put into FAULT. -/
def Channel.toFault (c : Channel) : Channel :=
  { c.driveOff with command := .none, pending := false, state := .fault }

/-- R82: the state a channel at rest takes from its switches. -/
def Channel.follow (c : Channel) (os cs : Bool) : Channel :=
  match os, cs with
  | false, true => { c with state := .shut, pending := false, command := .none }
  | true, false => { c with state := .opened }
  | false, false => if c.state = .shut ∨ c.state = .opened then { c with state := .stopped } else c
  | true, true => { c with state := .fault }

/-- R82, R88: a channel in use at rest follows its switches outside the active phases of a RUNNING station; with both
switches on it goes into FAULT. -/
def Channel.followUsed (c : Channel) (os cs : Bool) : Channel :=
  if os && cs then (if c.state = .fault then c else c.toFault) else c.follow os cs

/-- R92: the close given to a channel that leaves FAULT for OPEN in TRIPPED and is not close pending. -/
def Channel.afterFault (c old : Channel) (h : HoldOff) (os cs : Bool) : Channel :=
  if old.state = .fault ∧ c.state = .opened ∧ c.pending = false then
    (match h with
     | .holding => c.closePending
     | .released => c.close os cs
     | .none => c)
  else c

/-! ## The excursion allowance -/

/-- R109: an opening of the excursion allowance. The surge condition is gone in ALLOWED and EXCURSION (R111). -/
def HoseWatch.openAllowance (h : HoseWatch) : HoseWatch :=
  match h.chans.n1.valid with
  | none => h
  | some p =>
      match h.excursion with
      | .none =>
          { h with excursion := if h.surgeThreshold < p then .excursion else .allowed
                   allowance := .fromZero, surgeCond := false }
      | .allowed | .excursion => { h with allowance := .fromZero }
      | .relax => h

/-- R109: a movement of which HW is told, at a RUNNING station with a pressure watch. -/
def State.movement (s : State) : State :=
  if s.running && s.pressureRole then { s with hw := s.hw.openAllowance } else s

/-- A movement told if something holds. -/
def State.movementIf (s : State) (b : Bool) : State := if b then s.movement else s

/-! ## Channels of the station -/

/-- A channel takes a new record. A change of the state of a channel in use asks for a STATUS (R93); a drive of VC1
going on at BV or SV is told to HW (R83, R109). -/
def State.putChannel (s : State) (n : Ch) (c : Channel) : State :=
  (({ s with vp := { s.vp with channels := s.vp.channels.set n c } }).askStatusIf
      (s.channelUsed n && (s.vp.channels.get n).state != c.state)).movementIf
    (s.valveRole && n == Ch.n1 && (s.vp.channels.get n).drive == Drive.off && c.drive != Drive.off)

/-- R85: an immediate close command to a channel. -/
def State.closeChannel (s : State) (n : Ch) : State :=
  s.putChannel n ((s.vp.channels.get n).close (s.openOn n) (s.shutOn n))

/-- R84: an open command to a channel. -/
def State.openChannel (s : State) (n : Ch) : State :=
  s.putChannel n ((s.vp.channels.get n).open' (s.openOn n) (s.shutOn n))

/-- R89: a close with close pending to a channel. -/
def State.pendChannel (s : State) (n : Ch) : State := s.putChannel n (s.vp.channels.get n).closePending

/-- R90: release of a channel. -/
def State.releaseChannel (s : State) (n : Ch) : State :=
  s.putChannel n ((s.vp.channels.get n).release (s.openOn n) (s.shutOn n))

/-- R82, R88, R92: a channel in use follows its switches outside the active phases, if it is at rest. -/
def State.followChannel (s : State) (n : Ch) : State :=
  if (s.vp.channels.get n).atRest then
    s.putChannel n
      (let c := (s.vp.channels.get n).followUsed (s.openOn n) (s.shutOn n)
       if s.pc.phase = .tripped then
         c.afterFault (s.vp.channels.get n) s.vp.holdOff (s.openOn n) (s.shutOn n)
       else c)
  else s

/-- The same operation on several channels, in order. -/
def State.eachChannel (s : State) (f : State → Ch → State) (l : List Ch) : State := l.foldl f s

/-- R82: every channel in use that is at rest follows its switches, on entry to a phase that is not active (log 18). -/
def State.followAll (s : State) : State :=
  if s.running && !s.pc.phase.active then s.eachChannel State.followChannel s.channelsUsed else s

/-- R90: the hold-off leaves HOLDING for RELEASED, every pending channel is released, and the TRIP event names why. -/
def State.releaseAll (s : State) (r : ReleaseReason) : State :=
  (({ s with vp := { s.vp with holdOff := .released, holdOffTimer := .stopped } }).eachChannel
      State.releaseChannel s.channelsUsed).emit (.released r)

/-- R90: the release if the station is HOLDING and PU is seen stopped. -/
def State.releaseIfStopped (s : State) : State :=
  if s.vp.holdOff == .holding && s.puStopped then s.releaseAll .pumpStopped else s

/-- R90: when the phase leaves TRIPPED, a HOLDING station releases, and the hold-off returns to NONE. -/
def State.leaveHoldOff (s : State) : State :=
  let t := if s.vp.holdOff == .holding then s.releaseAll .leaving else s
  { t with vp := { t.vp with holdOff := .none, holdOffTimer := .stopped } }

/-- R89, R90: TRIPPED entry at BV, SV and TW: close pending, hold-off, and the release if it holds already. -/
def State.pendAll (s : State) : State :=
  let t := s.eachChannel State.pendChannel s.channelsUsed
  ({ t with vp := { t.vp with holdOff := .holding, holdOffTimer := .fromZero } }).releaseIfStopped

/-! ## The pump (PU) -/

/-- R95: a start command; `fb` is PUMP_FB. -/
def ValvePump.startPump (v : ValvePump) (fb : Bool) : ValvePump :=
  match v.pump with
  | .stopped => { v with pump := .starting, feedback := .fromZero, pumpRun := true, rateLow := true }
  | .stopping =>
      { v with pump := if fb then .running else .starting, feedback := if fb then .stopped else .fromZero
               stopTimer := .stopped, pumpRun := true, rateLow := true }
  | .starting | .running => v

/-- R96: a stop command. -/
def ValvePump.stopPump (v : ValvePump) : ValvePump :=
  match v.pump with
  | .starting | .running =>
      { v with pump := .stopping, feedback := .stopped, stopTimer := .fromZero, pumpRun := false, rateLow := false }
  | .stopping | .stopped => { v with feedback := .stopped, pumpRun := false, rateLow := false }

/-- Whether the pump is STARTING or RUNNING. -/
def PumpState.turning : PumpState → Bool
  | .starting | .running => true
  | .stopped | .stopping => false

/-- The pump record changes; a change of the pump state asks for a STATUS (R94). -/
def State.putPump (s : State) (v : ValvePump) : State :=
  ({ s with vp := v }).askStatusIf (s.vp.pump != v.pump)

/-- R95: a start command, and the movement it is (R109). -/
def State.startPump (s : State) : State :=
  (s.putPump (s.vp.startPump s.inputs.pumpFb)).movementIf (!s.vp.pump.turning)

/-- R96: a stop command, and the movement it is (R109). -/
def State.stopPump (s : State) : State := (s.putPump s.vp.stopPump).movementIf s.vp.pump.turning

/-- R96: whether the pump is proved stopped. -/
def State.pumpProved (s : State) : Bool :=
  s.hasRole .pu && s.vp.pump == .stopping && !s.inputs.pumpFb && s.settleFact

/-- R98: RATE_LOW while PUMP_RUN is on; off whenever PUMP_RUN is off. -/
def State.setRateLow (s : State) (b : Bool) : State :=
  { s with vp := { s.vp with rateLow := s.vp.pumpRun && b } }

end Sys2Proof.Machine
end

