-- ==== Sys2Proof/Machine/Record.lean ====
section
/-! DEFINITION. The transfer record and its ends (R146 to R155), the settling they start (R135), the receipt state (R134),
the received quantity (R136), the claim's beginning and end (R130, R132), the meter's placing of a litre (R140) and the rate cap (R144). -/

namespace Sys2Proof.Machine

/-- The ceiling of the litre counts (R138, R145). -/
def litreCeiling : Nat := 99999999

/-- The record changed by a function. -/
def State.mapRecord (s : State) (f : Record → Record) : State :=
  { s with mr := { s.mr with record := f s.mr.record } }

/-- Whether the record is OPEN. -/
def State.recordOpen (s : State) : Bool := s.mr.record.state == .opened

/-! ## Opening, end kind, clearing -/

/-- R146: the record opens at LINEUP entry; at PU the rate cap is cleared with its below count (R144). -/
def State.openRecord (s : State) (nomination maxRate : Nat) : State :=
  ({ s with mr := { s.mr with
      record := { Record.empty with
        state := .opened, transfer := s.pc.transfer, nomination := nomination, maxRate := maxRate }
      cap := false, belowCount := 0 } }).emit (.recordOpened s.pc.transfer nomination maxRate)

/-- R148: an end kind handed over. -/
def State.handEndKind (s : State) (k : EndKind) : State :=
  if s.recordOpen && s.mr.record.endKind == .none && k != .none then
    (s.mapRecord fun r => { r with endKind := k }).emit (.endKindSet k)
  else s

/-- R155: the record cleared, and with it the rate cap and its below count. -/
def State.clearRecord (s : State) : State :=
  ({ s with mr := { s.mr with record := .empty, cap := false, belowCount := 0 } }).emit .recordCleared

/-- R148: the trip mark, at TRIPPED entry with the record OPEN. -/
def State.markTrip (s : State) : State :=
  if s.recordOpen then s.mapRecord fun r => { r with tripMark := true } else s

/-- R146: counting, at OPENING entry at PU. -/
def State.startCounting (s : State) : State :=
  if s.recordOpen then s.mapRecord fun r => { r with counting := true } else s

/-! ## The sample -/

/-- R153: the outcome of a record. -/
def Record.judge (r : Record) (quantityTol mismatchTol : Nat) : OutcomeSet where
  short := decide (r.delivered < r.nomination - quantityTol)
  exceeds := decide (r.nomination + quantityTol < r.delivered)
  mismatch := decide (mismatchTol < (r.delivered - r.received) + (r.received - r.delivered))
  tripped := r.tripMark

/-- R153: the record sampled. -/
def Record.sample (r : Record) (k : SampleKind) (quantityTol mismatchTol : Nat) : Record :=
  { r with state := .sampled, counting := false, sampleKind := k, outcome := r.judge quantityTol mismatchTol }

/-- R153: the sample, and its event. -/
def State.sample (s : State) (k : SampleKind) : State :=
  (s.mapRecord fun r => r.sample k s.sl.setup.quantityTol s.sl.setup.mismatchTol).emit
    (.sampled k s.mr.record.delivered s.mr.record.received s.mr.record.endKind
      (s.mr.record.judge s.sl.setup.quantityTol s.sl.setup.mismatchTol))

/-- R152: the forced sample. -/
def State.forceSample (s : State) : State := if s.recordOpen then s.sample .forced else s

/-- R150: the internal end, if its condition holds. DESIGN CHOICE (log 55): a condition that holds already when the record
opens counts as one that comes to hold. -/
def State.judgeInternalEnd (s : State) : State :=
  if s.recordOpen && !s.mr.record.internalEnd && s.internalEndNow then
    (s.mapRecord fun r => { r with internalEnd := true }).emit .internalEnd
  else s

/-- R151: the normal sample, if all it needs holds. -/
def State.judgeSample (s : State) : State :=
  if s.recordOpen && s.mr.record.externalEnd && s.mr.record.internalEnd && s.allComplete then s.sample .normal else s

/-- R150, R151: the internal end and the normal sample evaluated. -/
def State.judgeEnds (s : State) : State := s.judgeInternalEnd.judgeSample

/-! ## Receipt, settling and the external end -/

/-- R134: the receipt state changes. -/
def State.setReceipt (s : State) (r : ReceiptState) : State :=
  if s.ow.receipt = r then s
  else (({ s with ow := { s.ow with receipt := r } }).askStatus).emit (.receipt r)

/-- R135: whether some tank taking part has no valid level, which holds the settle window at zero. -/
def OverflowWatch.windowHeld (o : OverflowWatch) : Bool :=
  Ch.all.any fun n => (o.tanks.get n).takingPart && !(o.tanks.get n).levelValid

/-- R135: a tank takes its level as its reference. -/
def Tank.takeReference (t : Tank) : Tank :=
  if t.takingPart && t.levelValid then { t with reference := t.level.getD 0 } else t

/-- R135: the settle timers and references on entry to SETTLING. -/
def OverflowWatch.startSettling (o : OverflowWatch) : OverflowWatch :=
  { o with tanks := o.tanks.map Tank.takeReference, settleLimit := .fromZero
           settleWindow := if o.windowHeld then .stopped else .fromZero }

/-- R135: the external end handed to the Overflow Watch. -/
def State.settle (s : State) : State :=
  if s.ow.receipt == .receiving || s.ow.receipt == .allfull then
    ({ s with ow := s.ow.startSettling }).setReceipt .settling
  else s

/-- R149: the external end set, the tanks settling, and the sample judged. -/
def State.setExternalEnd (s : State) : State :=
  if s.recordOpen && !s.mr.record.externalEnd then
    ((s.mapRecord fun r => { r with externalEnd := true }).emit .externalEnd).settle.judgeEnds
  else s

/-- R134: RECEIVING becomes ALLFULL. -/
def State.judgeAllFull (s : State) : State :=
  if s.ow.receipt == .receiving
      && (Ch.all.any fun n => (s.ow.tanks.get n).takingPart)
      && (Ch.all.all fun n => !(s.ow.tanks.get n).takingPart || (s.ow.tanks.get n).state.fullOrHeld) then
    s.setReceipt .allfull
  else s

/-! ## Received -/

/-- R136: the litres one tank has received. -/
def Tank.receivedLitres (t : Tank) (litresPerMm : Nat) : Nat :=
  if t.takingPart then (t.level.getD 0 - t.startLevel) * litresPerMm else 0

/-- R136: the station's own received quantity. -/
def State.ownReceived (s : State) : Nat :=
  min litreCeiling
    ((Ch.all.map fun n => (s.ow.tanks.get n).receivedLitres (s.sl.setup.tanks.get n).litresPerMm).sum)

/-- R136: the own received quantity recomputed while the receipt state is not NONE. -/
def State.takeOwnReceived (s : State) : State :=
  if s.ow.receipt = .none then s else { s with ow := { s.ow with received := s.ownReceived } }

/-- R147: the record's received while it is OPEN. -/
def State.takeReceived (s : State) : State :=
  if s.recordOpen then s.mapRecord fun r => { r with received := s.receivedNow } else s

/-! ## The closure claim -/

/-- R129: the claim record changes, with its STATUS and its event. -/
def State.setClaim (s : State) (c : Claim) (tank : Ch) (e : ClaimEvent) : State :=
  (({ s with ow := { s.ow with claim := c } }).askStatus).emit (.claim tank e)

/-- R130: a claim begins for a tank. -/
def State.startClaim (s : State) (n : Ch) : State := s.setClaim ⟨true, some n, .fromZero⟩ n .began

/-- R132: a waiting claim ends without a decision. DESIGN CHOICE (log 64): the claim tank becomes absent. -/
def State.endClaim (s : State) : State :=
  match s.ow.claim.waiting, s.ow.claim.tank with
  | true, some n => s.setClaim .start n .ended
  | _, _ => s

/-- R129: the HELD tank of the station; there is at most one. -/
def State.heldTank (s : State) : Option Ch := s.tanksUsed.find? fun n => (s.ow.tanks.get n).state == .held

/-- R130: whether a retry from HELD may begin: an active phase, no claim, a HELD tank and an open route. -/
def State.retryTank (s : State) : Option Ch :=
  if s.runningTw && s.pc.phase.active && !s.ow.claim.waiting && s.peerRoute then s.heldTank else none

/-- A tank takes a new record. -/
def State.putTank (s : State) (n : Ch) (t : Tank) : State :=
  { s with ow := { s.ow with tanks := s.ow.tanks.set n t } }

/-- R117, R137: a tank's state changes, with its event and its STATUS. -/
def State.setTank (s : State) (n : Ch) (st : TankState) : State :=
  if (s.ow.tanks.get n).state = st then s
  else
    ((s.putTank n { s.ow.tanks.get n with state := st }).askStatus).emit (.tankState n st)

/-- R127: the overfill condition of a tank in use, from its level and its switch. -/
def Tank.overfillNow (t : Tank) (hh : Bool) (highHigh : Nat) : Bool :=
  hh || (t.levelValid && t.level.any fun l => decide (highHigh ≤ l))

/-- R127: a tank's overfill condition evaluated. -/
def State.takeOverfill (s : State) (n : Ch) : State :=
  s.putTank n { s.ow.tanks.get n with
    overfill :=
      s.tankUsed n && (s.ow.tanks.get n).overfillNow (s.inputs.hh.get n) (s.sl.setup.tanks.get n).highHigh }

/-- R125: one tank returned to EXCLUDED at entry to IDLE from ENDED. -/
def State.excludeTank (s : State) (n : Ch) : State :=
  let t := s.setTank n .excluded
  t.putTank n { t.ow.tanks.get n with takingPart := false, startLevel := 0 }

/-- R125: every tank in use returned, the claim ended, the receipt state NONE and the received quantity 0. -/
def State.excludeTanks (s : State) : State :=
  let t := ((s.tanksUsed.foldl State.excludeTank s).endClaim).setReceipt .none
  { t with ow := { t.ow with received := 0, settleWindow := .stopped, settleLimit := .stopped } }

/-- R121: one ASSIGNED tank opened at OPENING entry. -/
def State.beginTank (s : State) (n : Ch) : State :=
  if (s.ow.tanks.get n).state = .assigned then
    let t := s.setTank n .opened
    t.putTank n
      { t.ow.tanks.get n with takingPart := true, startLevel := (t.ow.tanks.get n).level.getD 0 }
  else s

/-- R121: the Overflow Watch at OPENING entry: tanks, receipt state, received quantity from 0. -/
def State.beginReceipt (s : State) : State :=
  let t := (s.tanksUsed.foldl State.beginTank s).setReceipt .receiving
  { t with ow := { t.ow with received := 0 } }

/-! ## The meter -/

/-- R140: the record and stray count after one litre at PU, as the record stands. -/
def MeterRecord.placeLitre (m : MeterRecord) : MeterRecord :=
  match m.record.state, m.record.counting with
  | .opened, true =>
      if m.record.delivered < litreCeiling then
        { m with record := { m.record with delivered := m.record.delivered + 1 } }
      else { m with stray := min litreCeiling (m.stray + 1) }
  | .sampled, _ => { m with record := { m.record with afterFlow := min litreCeiling (m.record.afterFlow + 1) } }
  | _, _ => { m with stray := min litreCeiling (m.stray + 1) }

/-- R138, R139, R141: the window litres after one litre. DESIGN CHOICE (log 74): a litre produced while no window runs, in
JOINING before the first begins, enters none. Past 99,999,999 the manual states no result: `past` stands there
(log 20). -/
def MeterRecord.windowLitre (m : MeterRecord) (past : Nat) : MeterRecord :=
  if m.window.running then
    { m with windowLitres := if m.windowLitres < litreCeiling then m.windowLitres + 1 else past }
  else m

/-- R142: at STARTING entry the window is abandoned, the start-flow fact cleared and the start limit started. -/
def MeterRecord.enterStarting (m : MeterRecord) : MeterRecord :=
  { m with windowLitres := 0, window := .fromZero, startFlow := false, startLimit := .fromZero }

/-- R142, R143: what leaving a phase for another does to the meter at PU. -/
def MeterRecord.changePhase (m : MeterRecord) (old new : Phase) : MeterRecord :=
  { m with startFlow := if old = .starting then false else m.startFlow
           startLimit := if old = .starting then .stopped else m.startLimit
           zeroCount := if new = .pumping ∨ (old.flowing ∧ ¬ new.flowing) then 0 else m.zeroCount }

/-- R142: the start threshold. -/
def Record.startThreshold (r : Record) : Nat := r.maxRate * 10 / 100

/-- R144: the cap-clear level. -/
def Record.capClearLevel (r : Record) : Nat := r.maxRate * 90 / 100

/-- R144: the rate cap and its below count after a window of a rate, in a phase. While the record is EMPTY no window is
judged. -/
def MeterRecord.judgeCap (m : MeterRecord) (p : Phase) (rate : Nat) : MeterRecord :=
  if m.record.state = .empty then m
  else if p = .pumping ∧ m.record.maxRate < rate then { m with cap := true, belowCount := 0 }
  else if m.cap then
    (if rate < m.record.capClearLevel then
       (if 1 ≤ m.belowCount then { m with cap := false, belowCount := 0 } else { m with belowCount := m.belowCount + 1 })
     else { m with belowCount := 0 })
  else { m with belowCount := 0 }

/-- R141 to R144: a completed window, against the phase `p` as it stands then. -/
def MeterRecord.completeWindow (m : MeterRecord) (p : Phase) : MeterRecord :=
  let rate := m.windowLitres * 360
  let m1 := { m with lastRate := some rate
                     startFlow := m.startFlow || (p == Phase.starting && decide (m.record.startThreshold ≤ rate)) }
  let m2 := if p.flowing then
      { m1 with zeroCount := if m.windowLitres = 0 then (if m.zeroCount = 0 then 1 else 0) else 0 } else m1
  { m2.judgeCap p rate with windowLitres := 0, window := .fromZero }

/-- R143: whether the window completes the second empty one in a row. -/
def MeterRecord.secondEmpty (m : MeterRecord) (p : Phase) : Bool :=
  p.flowing && m.windowLitres == 0 && decide (1 ≤ m.zeroCount)

end Sys2Proof.Machine
end

