-- ==== Sys2Proof/Machine/Trips.lean ====
section
/-! DEFINITION. The phase change with its entry actions (R4, R18 to R26), and the trip: latching (R65, R66), honouring a
remote trip (R69), clearing the record (R71), handing a cause (R61 to R63). -/

namespace Sys2Proof.Machine

/-! ## Changing the phase -/

/-- The standing order a phase's entry places (R21, R24). -/
def orderOf (p : Phase) (role : Option Role) : Option Order :=
  match p, role with
  | .opening, some .bv | .opening, some .sv => some .openVc1
  | .closing, some .sv => some .closeVc1
  | .closing, some .tw => some .closeTanks
  | _, _ => none

/-- The phase set, the standing order of the old phase lapsed (R18), and at PU the step in hand (R9). -/
def State.setPhase (s : State) (p : Phase) : State :=
  { s with pc := { s.pc with
      phase := p, order := orderOf p s.role
      inHand := if s.hasRole .pu then some ⟨p, s.pc.gen, .fromZero⟩ else s.pc.inHand } }

/-- What leaving a phase for the one now held does: the meter (R142, R143), the hold-off (R90), the claim (R132). DESIGN
CHOICE: the release named LEAVING with its TRIP event (log 63) and the end of the claim with its event (log 54) come
before the entry actions of the new phase. -/
def State.leavePhase (s : State) (old : Phase) : State :=
  let t := { s with mr := s.mr.changePhase old s.pc.phase }
  let t := if old = .tripped ∧ s.pc.phase ≠ .tripped then t.leaveHoldOff else t
  if s.pc.phase.active then t else t.endClaim

/-- R121: the tanks taking part, whose channels are opened at OPENING entry (R20). -/
def State.tanksTakingPart (s : State) : List Ch := s.tanksUsed.filter fun n => (s.ow.tanks.get n).takingPart

/-- R20, R121: OPENING entry at TW. -/
def State.openTanks (s : State) : State :=
  let t := s.beginReceipt
  t.eachChannel State.openChannel t.tanksTakingPart

/-- R22: STARTING entry at PU. -/
def State.enterStarting (s : State) : State := { s with mr := s.mr.enterStarting }.startPump

/-- R23, R149: a pump stop at STOPPING entry, with the external end if the pump is STOPPED already. -/
def State.enterStopping (s : State) : State :=
  if s.vp.pump = .stopped then s.stopPump.setExternalEnd else s.stopPump

/-- R26: the field actions of TRIPPED entry. -/
def State.tripField (s : State) : State :=
  if s.hasRole .pu then s.stopPump else if s.closingRole then s.pendAll else s

/-- R26, R148: MR told of TRIPPED entry. -/
def State.tripRecord (s : State) (old : Phase) : State :=
  if old.pumpOn then s.markTrip.handEndKind .trip else s.markTrip

/-- R149: TRIPPED entered with PU's pump STOPPED sets the external end. -/
def State.tripExternal (s : State) : State :=
  if s.hasRole .pu && s.vp.pump == .stopped then s.setExternalEnd else s

/-- R18 to R26: the entry actions of the phase now held, entered from `old`. Nomination and maximum rate are read at
LINEUP alone. -/
def State.entryActions (s : State) (old : Phase) (nomination maxRate : Nat) : State :=
  match s.pc.phase with
  | .idle => if old = .ended ∧ s.hasRole .tw then s.clearRecord.excludeTanks else s.clearRecord
  | .lineup => s.openRecord nomination maxRate
  | .opening => if s.hasRole .pu then s.startCounting else if s.hasRole .tw then s.openTanks else s
  | .starting => if s.hasRole .pu then s.enterStarting else s
  | .pumping => if s.hasRole .pu then s.setRateLow s.mr.cap else s
  | .topping => if s.hasRole .pu then s.setRateLow true else s
  | .paused => if s.hasRole .pu then s.stopPump else s
  | .stopping => if s.hasRole .pu then s.enterStopping else s
  | .closing =>
      let t := if old = .opening then s.setExternalEnd else s
      if t.hasRole .bv then t.closeChannel .n1 else t
  | .ended => s.forceSample
  | .tripped => (s.tripField.tripRecord old).tripExternal

/-- R4: a phase change: the phase, what leaving the old one does, the entry actions, the STATUS, the PHASE event. -/
def State.changePhase (s : State) (p : Phase) (nomination maxRate : Nat) : State :=
  ((((s.setPhase p).leavePhase s.pc.phase).entryActions s.pc.phase nomination maxRate).askStatus).emit
    (.phaseChange s.pc.phase p s.pc.transfer)

/-! ## The trip record -/

/-- Whether a cause is in the latched set. -/
def State.hasLatched (s : State) (c : Cause) : Bool := s.tu.latched.any fun l => l.cause == c

/-- R65: a cause added to the set, and the first-out if it is absent. -/
def State.addCause (s : State) (c : Cause) (detail : Option Nat) : State :=
  ({ s with tu := { s.tu with
      latched := s.tu.latched ++ [Latched.mk c detail]
      firstOut := some (s.tu.firstOut.getD (FirstOut.mk (some c) .localOrigin s.number detail)) } }).askStatusIf
    s.tu.firstOut.isNone

/-- R65, R66: the TRIP frame of a latch into an empty set, and the TRIP event. -/
def State.announce (s : State) (c : Cause) (detail : Option Nat) (first firstOut : Bool) : State :=
  if first then (s.ask .trip).emit (.latched c detail firstOut) else s.emit (.joined c detail)

/-- The TRIPPED entry, if the station is not in TRIPPED (R5). -/
def State.enterTripped (s : State) : State := if s.pc.phase = .tripped then s else s.changePhase .tripped 0 0

/-- R10: the step in hand confirmed, if it is. -/
def State.confirm (s : State) : State :=
  if s.pc.inHand.any s.confirmed then { s with pc := { s.pc with inHand := none } } else s

/-- R66: SEPARATION joining the set of a station in TRIPPED. -/
def State.joinSeparation (s : State) : State :=
  if s.hasLatched .separation then s
  else (s.addCause .separation none).announce .separation none s.tu.latched.isEmpty s.tu.firstOut.isNone

/-- What follows the TRIPPED entry: switches followed (R82), SEPARATION handed while SEP_IN is on (R115), and the step
into TRIPPED checked for confirmation (R10). DESIGN CHOICE (log 61): SEPARATION is handed after the TRIP event of the
entry and before the event of the TRIP alarm. -/
def State.afterTrip (s : State) : State :=
  let t := s.followAll
  (if t.valveRole && t.inputs.sep then (t.closeChannel .n1).joinSeparation else t).confirm

/-- R65, R66: a cause latches. -/
def State.latch (s : State) (c : Cause) (detail : Option Nat) : State :=
  if s.hasLatched c then s
  else
    let t := ((s.addCause c detail).enterTripped).announce c detail s.tu.latched.isEmpty s.tu.firstOut.isNone
    (if s.pc.phase = .tripped then t else t.afterTrip).watch

/-- R69: a remote trip honoured: a TRIP frame or TRIPPED STATUS under this station's generation. -/
def State.honour (s : State) (sender : Nat) (cause : Option Cause) (origin : Nat) : State :=
  if s.tu.firstOut.isSome && s.pc.phase == .tripped then s
  else
    let from' := if cause = none ∨ origin = 0 then sender else origin
    let t := ({ s with tu := { s.tu with
        firstOut := some (s.tu.firstOut.getD (FirstOut.mk cause .remoteOrigin from' none)) } }).askStatusIf
          s.tu.firstOut.isNone
    let t := t.enterTripped.emit (.remoteTrip from' cause)
    (if s.pc.phase = .tripped then t else t.afterTrip).watch

/-- R71: the trip record cleared. DESIGN CHOICE (log 68): the tanks named by OVERFILL's event (R62) are forgotten with it,
so that a tank named afterwards counts as named for the first time. -/
def State.clearTripRecord (s : State) : State :=
  (({ s with
      tu := { s.tu with firstOut := none, latched := [], cause := false, named := .fill false }
      lc := s.lc.withdraw .trip }).askStatusIf (s.tu.firstOut.isSome || s.tu.cause)).emit .tripCleared

/-! ## Handing a cause -/

/-- R76: a momentary alarm condition. -/
def State.momentary (s : State) (k : AlarmKey) : State :=
  { s with an := s.an.drive (alarmMomentary s.an.set k).1 }.emitAll (alarmMomentary s.an.set k).2.toList

/-- R63: what a disabled cause does at the moment it would latch. -/
def State.alarmInstead (s : State) (c : Cause) : State :=
  match c with
  | .surge => { s with tu := { s.tu with surgeQualified := true } }.watch
  | .leak => { s with tu := { s.tu with leakQualified := true } }.watch
  | .noflow => s.momentary .noflow
  | _ => s

/-- R61, R63: a qualified cause handed to a RUNNING station; `listed` says whether the phase is one in which it
latches. -/
def State.hand (s : State) (c : Cause) (detail : Option Nat) (listed : Bool) : State :=
  if s.running && listed then (if s.tu.mask.enables c then s.latch c detail else s.alarmInstead c) else s

/-- R61: a cause handed, in the phases of the table. -/
def State.handCause (s : State) (c : Cause) (detail : Option Nat) : State :=
  s.hand c detail (c.latchesIn s.pc.phase)

/-- R62, R91, R115: SEPARATION handed: VC1 closed without pending, and the cause latched where it latches (log 27). -/
def State.handSeparation (s : State) : State := (s.closeChannel .n1).handCause .separation none

/-- R97: the reasons with which PUMP is handed. -/
inductive PumpReason
  | noFeedback | lost | uncommanded | noStop
  deriving DecidableEq, Repr

/-- R97: the phases in which PUMP latches, by reason. -/
def PumpReason.latchesIn (r : PumpReason) (p : Phase) : Bool :=
  match r with
  | .noFeedback => p.pumpOn
  | .lost | .uncommanded => p.active
  | .noStop => p.active || p == .tripped

/-- R97: PUMP handed with a reason. DESIGN CHOICE (log 75): the reason decides the phases in which PUMP latches, and is
kept nowhere, since R61 gives PUMP no detail. -/
def State.handPump (s : State) (r : PumpReason) : State := s.hand .pump none (r.latchesIn s.pc.phase)

end Sys2Proof.Machine
end

