-- ==== Sys2Proof/Machine/Steps.lean ====
section
/-! DEFINITION. Steps: what follows a phase change (R36, R101, R104, R115), standing orders (R18), the automatic triggers
and the step in hand at PU (R7 to R10), the follower rule (R12 to R15, R74), requests (R47 to R59), and what a roster
change sets off. -/

namespace Sys2Proof.Machine

/-! ## After a phase change -/

/-- R101: the first enabled channel. -/
def HoseWatch.firstChannel (h : HoseWatch) : Option Ch := Ch.all.find? fun n => (h.chans.get n).enabled

/-- R101: a scan set begins, where some channel is enabled. -/
def HoseWatch.startSet (h : HoseWatch) : HoseWatch :=
  if h.firstChannel.isSome then { h with slot := h.firstChannel, setTimer := .fromZero } else h

/-- R101: a set begins at once when the phase changes into an active one while HW waits between sets. -/
def State.scanAtPhase (s : State) (old : Phase) : State :=
  if !old.active && s.pc.phase.active && s.hw.slot.isNone then { s with hw := s.hw.startSet } else s

/-- R61: a cause handed with several details in turn at the entry into a phase. Each handing is judged by the phase
entered, so that a trip by one of them turns none of the others away (log 12). -/
def State.handEach (s : State) (c : Cause) (entered : Phase) (details : List Nat) : State :=
  details.foldl (fun t d => t.hand c (some d) (c.latchesIn entered)) s

/-- R36: the protected entries SILENT at OPENING entry, in line-up list order (log 12). -/
def State.silentNumbers (s : State) : List Nat :=
  (s.lineupEntries.filter fun e => e.presence == .silent).map fun e => e.number

/-- R104: the channels in sensor fault. -/
def State.faultChannels (s : State) : List Nat :=
  (Ch.all.filter fun n => (s.hw.chans.get n).enabled && (s.hw.chans.get n).fault).map Ch.num

/-- R84: the channels that refuse the open command of OPENING entry at TW, read right after it was given. -/
def State.refusedChannels (s : State) : List Nat :=
  (s.tanksTakingPart.filter fun n => (s.vp.channels.get n).refusesOpen).map Ch.num

/-- R18: whether the standing order's condition holds (R21, R24). -/
def State.orderDue (s : State) : Bool :=
  match s.pc.order with
  | some .openVc1 => if s.hasRole .sv then s.pathProved else s.svOpen
  | some .closeVc1 => s.bvClosed
  | some .closeTanks => s.svClosed
  | none => false

/-- R21, R84: VC1 opened by a standing order; a FAULT channel refuses and VALVE is handed. -/
def State.openVc1 (s : State) : State :=
  if s.vp.channels.n1.refusesOpen then s.handCause .valve (some 1) else s.openChannel .n1

/-- R18: the standing order carried out, once, if its condition holds. -/
def State.runOrder (s : State) : State :=
  if s.orderDue then
    let t := { s with pc := { s.pc with order := none } }
    match s.pc.order with
    | some .openVc1 => t.openVc1
    | some .closeVc1 => t.closeChannel .n1
    | some .closeTanks => t.eachChannel State.closeChannel t.channelsUsed
    | none => s
  else s

/-- R20, R84: VALVE handed for the open commands that OPENING entry gave at TW and a FAULT channel refused. -/
def State.handRefused (s : State) (channels : List Nat) : State :=
  if s.pc.phase = .opening ∧ s.hasRole .tw then s.handEach .valve .opening channels else s

/-- R36, R104, R115: the causes that SR and HW hand at the entry from `old` into `p`: LINKLOSS for `silent`, SENSOR for
`faults`, SEPARATION. -/
def State.handAtEntry (s : State) (old p : Phase) (silent faults : List Nat) : State :=
  let t := if p = .opening then s.handEach .linkloss p silent else s
  let t := if !old.active && p.active then t.handEach .sensor p faults else t
  if t.valveRole && t.inputs.sep then t.handSeparation else t

/-- What follows a phase change other than into TRIPPED: the scan, the switches and the facts; what PC's own entry
actions still do, which R4 has run before anything else hears of the phase: VALVE for the open commands refused (R84),
and the standing order carried out where its condition holds at entry (R18); then the causes that SR and HW hand at the
change. DESIGN CHOICE (log 12): the order of these handings. All of them are of the phase entered. -/
def State.react (s : State) (old : Phase) : State :=
  let t := ((s.scanAtPhase old).followAll).watch
  (((t.handRefused s.refusedChannels).runOrder).handAtEntry old s.pc.phase s.silentNumbers s.faultChannels).watch

/-- A step to a phase other than TRIPPED, taken at PU or adopted by a follower. -/
def State.stepTo (s : State) (p : Phase) (nomination maxRate : Nat) : State :=
  (s.changePhase p nomination maxRate).react s.pc.phase

/-! ## Automatic steps at PU -/

/-- R7, R8: the step to STOPPING and its end kind. -/
def State.stopTrigger (s : State) : Option (Phase × EndKind) :=
  if s.mr.record.nomination ≤ s.mr.record.delivered then some (.stopping, .metered)
  else if s.receiversFull then some (.stopping, .receiverfull)
  else none

/-- R7, R8: the automatic trigger that holds in the phase, with the end kind it hands. -/
def State.trigger (s : State) : Option (Phase × EndKind) :=
  match s.pc.phase with
  | .opening => if s.bvOpen then some (.starting, .none) else none
  | .starting =>
      s.stopTrigger.or (if s.vp.pump = .running ∧ s.mr.startFlow then some (.pumping, .none) else none)
  | .pumping =>
      s.stopTrigger.or
        (if s.toppingSeen ∨ s.mr.record.nomination - s.sl.setup.toppingMargin ≤ s.mr.record.delivered then
           some (.topping, .none) else none)
  | .topping => s.stopTrigger
  | .stopping => if s.vp.pump = .stopped then some (.closing, .none) else none
  | .closing => if s.allClosed ∧ s.mr.record.state = .sampled then some (.ended, .none) else none
  | .idle | .lineup | .paused | .ended | .tripped => none

/-- R7: an automatic step taken: the end kind first, then the step. -/
def State.takeTrigger (s : State) (t : Phase × EndKind) : State := (s.handEndKind t.2).stepTo t.1 0 0

/-- R7, R10: confirmation, then the automatic trigger if no step is in hand; and so on, at most `fuel` steps (no chain of
automatic steps is longer than six: log 30). -/
def State.puSteps : Nat → State → State
  | 0, s => s
  | fuel + 1, s =>
      let t := s.confirm
      if t.pc.inHand.isSome then t
      else
        match t.trigger with
        | some p => State.puSteps fuel (t.takeTrigger p)
        | none => t

/-- R7, R10: PC at PU evaluates its step in hand and its triggers. -/
def State.puEval (s : State) : State := if s.runningPu then s.puSteps 8 else s

/-! ## Roster changes -/

/-- R130: the open-route condition read at a roster change; its turning to holding retries from HELD. -/
def State.readRoute (s : State) : State :=
  let t := { s with ow := { s.ow with routeSeen := s.runningTw && s.peerRoute } }
  if s.ow.routeSeen then t
  else
    match s.retryTank with
    | some n => t.startClaim n
    | none => t

/-- R149: the external end at a station other than PU. -/
def State.readExternalEnd (s : State) : State :=
  if !s.hasRole .pu && s.externalEndSeen then s.setExternalEnd else s

/-- What a roster change sets off at a RUNNING station, in this order (log 11): the standing order, the release of close
pending, the claim retry, the record, the leak condition (R113), the levels, PU's step in hand and triggers. In JOINING
the roster offers nothing (R29): no block is told of a change there, HW not either (log 25). -/
def State.rosterChanged (s : State) : State :=
  if s.running then
    (((((s.runOrder).releaseIfStopped).readRoute).takeReceived.readExternalEnd).judgeEnds.watchLeak.watch).puEval
  else s

/-! ## Following PU -/

/-- The step table, the entries into TRIPPED apart (R5). -/
def Phase.stepsTo : Phase → Phase → Bool
  | .idle, .lineup | .lineup, .idle | .lineup, .opening | .opening, .starting | .opening, .closing
  | .starting, .pumping | .pumping, .topping | .starting, .stopping | .pumping, .stopping | .topping, .stopping
  | .pumping, .paused | .topping, .paused | .paused, .starting | .paused, .stopping | .stopping, .closing
  | .closing, .ended | .ended, .idle | .tripped, .ended => true
  | _, _ => false

/-- Nomination and maximum rate of a PU body (R19). -/
def RoleBody.nomination : RoleBody → Nat × Nat
  | .pu _ _ _ _ _ n r => (n, r)
  | _ => (0, 0)

/-- R16: PU's trip generation adopted; a change asks for a STATUS (R183). -/
def State.adoptGen (s : State) (g : BitVec 8) : State := { s with pc := { s.pc with gen := g } }.askStatus

/-- R12: a follower adopts a step. Entering LINEUP it copies PU's transfer number first (R15). -/
def State.adopt (s : State) (st : Status) : State :=
  let t := if s.pc.phase = .idle ∧ st.phase = .lineup then { s with pc := { s.pc with transfer := st.transfer } } else s
  t.stepTo st.phase st.body.nomination.1 st.body.nomination.2

/-- R12, R13: PU's STATUS under the follower's own generation. DESIGN CHOICE (log 73): PHASE is handed 'naming P and Q',
and no rule says what becomes of the two names, so they are kept nowhere. -/
def State.followSame (s : State) (st : Status) : State :=
  if s.pc.phase = .tripped ∨ st.phase = s.pc.phase ∨ st.phase = .tripped then s
  else if s.pc.phase.stepsTo st.phase then s.adopt st
  else s.handCause .phase none

/-- R74: a follower in TRIPPED that keeps a cause standing stays tripped under the new generation and queues a TRIP. -/
def State.stayTripped (s : State) : State := s.ask .trip

/-- R14, R74: PU's STATUS under another generation. DESIGN CHOICE (log 73): the own phase and the phase shown that PHASE
is handed with are kept nowhere. -/
def State.followOther (s : State) (sender : Nat) (st : Status) : State :=
  if s.pc.phase = .tripped then
    (match st.phase with
     | .ended =>
         if s.causeFlag then (s.adoptGen st.gen).stayTripped
         else ((s.adoptGen st.gen).clearTripRecord).stepTo .ended 0 0
     | .tripped =>
         if s.causeFlag then (s.adoptGen st.gen).stayTripped
         else ((s.adoptGen st.gen).clearTripRecord).honour sender st.firstCause st.firstOrigin
     | _ => (s.adoptGen st.gen).handCause .phase none)
  else if st.phase = .tripped then s
  else (s.adoptGen st.gen).handCause .phase none

/-- R15: the transfer numbers compared, after the follower rule (log 37). -/
def State.compareTransfer (s : State) (st : Status) : State :=
  if s.pc.phase ≠ .tripped ∧ st.phase ≠ .tripped ∧ s.mr.record.state ≠ .empty ∧ st.transfer ≠ 0
      ∧ st.transfer ≠ s.pc.transfer then
    s.handCause .phase none
  else s

/-- R12 to R15: a STATUS taken from the entry of role PU, at a RUNNING station whose role is not PU. -/
def State.followPu (s : State) (sender : Nat) (st : Status) : State :=
  (if st.gen = s.pc.gen then s.followSame st else s.followOther sender st).compareTransfer st

/-- R147, R148: PU's figures taken into an OPEN record that carries the same transfer number. -/
def State.takePuFigures (s : State) (st : Status) : State :=
  match st.body with
  | .pu _ _ _ delivered endKind _ _ =>
      if s.recordOpen && st.transfer == s.mr.record.transfer then
        (s.mapRecord fun r => { r with delivered := max r.delivered delivered }).handEndKind endKind
      else s
  | _ => s

/-! ## Requests -/

/-- R47: the phases at PU in which a kind can be taken. -/
def ReqKind.takenIn : ReqKind → Phase → Bool
  | .nominate, .idle => true
  | .start, .lineup => true
  | .pause, .pumping | .pause, .topping => true
  | .resume, .paused => true
  | .stop, .lineup | .stop, .opening | .stop, .starting | .stop, .pumping | .stop, .topping | .stop, .paused => true
  | .reset, .tripped => true
  | .endack, .ended => true
  | _, _ => false

/-- R54: NOMINATE's ranges. -/
def nominationOk (q r : Nat) : Bool :=
  decide (1 ≤ q) && decide (q ≤ 9999999) && decide (1000 ≤ r) && decide (r ≤ 3000000)

/-- The name of a failing entry, if one fails. -/
def AnswerName.ofStation : Option Nat → AnswerName
  | some n => .station n
  | Option.none => .none

/-- R72: the reset check, with the name the panel report gives. -/
def State.resetCheck (s : State) : Decision × AnswerName :=
  match s.firstActiveCause with
  | some c => (.causeactive, .cause c)
  | none =>
      if s.vp.pump ≠ .stopped then (.notready, .none)
      else if s.peersResettable then (.taken, .none)
      else (.notready, .ofStation (s.firstFailing fun e => e.resettable s.pc.gen))

/-- R40, R55: START's readiness, with the name the panel report gives. -/
def State.startCheck (s : State) : Decision × AnswerName :=
  if !s.lineupReadySet then (.notready, .ofStation (s.firstFailing fun e => e.readyInLineup s.pc.gen))
  else if s.pc.ready then (.taken, .none)
  else (.notready, .station s.number)

/-- R54, R55: a request decided at PU. `kind` is none for a kind outside the seven. -/
def State.judgeRequest (s : State) (kind : Option ReqKind) (q r : Nat) : Decision × AnswerName :=
  if s.pc.inHand.isSome then (.busy, .none)
  else
    match kind with
    | none => (.wrongphase, .none)
    | some k =>
        if !k.takenIn s.pc.phase then (.wrongphase, .none)
        else
          match k with
          | .nominate => if nominationOk q r then (.taken, .none) else (.badarg, .none)
          | .start => s.startCheck
          | .resume => if s.vp.pump = .stopped then (.taken, .none) else (.notready, .none)
          | .reset => s.resetCheck
          | .pause | .stop | .endack => (.taken, .none)

/-- R15: the transfer number advances, 255 going to 1. -/
def nextTransfer (t : BitVec 8) : BitVec 8 := if t = 255 then 1 else t + 1

/-- R6, R73: the step of a taken request. DESIGN CHOICE (log 47): the end kind OPERATOR is handed, with its event, before
the step to STOPPING. -/
def State.takeRequest (s : State) (k : ReqKind) (q r : Nat) : State :=
  match k with
  | .nominate => { s with pc := { s.pc with transfer := nextTransfer s.pc.transfer } }.stepTo .lineup q r
  | .start => s.stepTo .opening 0 0
  | .pause => s.stepTo .paused 0 0
  | .resume => s.stepTo .starting 0 0
  | .stop =>
      if s.pc.phase = .lineup then s.stepTo .idle 0 0
      else if s.pc.phase = .opening then s.stepTo .closing 0 0
      else (s.handEndKind .operator).stepTo .stopping 0 0
  | .reset => ((s.adoptGen (s.pc.gen + 1)).clearTripRecord).stepTo .ended 0 0
  | .endack => s.stepTo .idle 0 0

/-- R56: the effects of a decision: those of a taken request, none otherwise. -/
def State.carryOut (s : State) (kind : Option ReqKind) (q r : Nat) : State :=
  match kind, (s.judgeRequest kind q r).1 with
  | some k, .taken => (s.takeRequest k q r).puEval
  | _, _ => s

/-- R53, R56: a REQUEST frame taken at PU. A kind code outside the table is decided as no kind of the seven (R54, R182),
and named as it was carried. -/
def State.takeRequestFrame (s : State) (sender code : Nat) (number : BitVec 8) (q r : Nat) : State :=
  if s.lc.answer.isSome then s.emit (.undecided sender code number)
  else
    let kind := ReqKind.ofCode code
    let t := s.carryOut kind q r
    match t.header with
    | some h => { t with lc := t.lc.hold .answer (.answer h sender number (s.judgeRequest kind q r).1) }
    | none => t

/-- R51: an ANSWER frame for this station. -/
def State.takeAnswerFrame (s : State) (number : BitVec 8) (o : Decision) : State :=
  match s.rh.outstanding with
  | some w =>
      if w.number = number then
        { s with rh := { s.rh with outstanding := none } }.report
          (.answer (some (.request w.kind)) (some number) (.decided o) .none)
      else s.emit (.strayAnswer number o)
  | none => s.emit (.strayAnswer number o)

/-- R50, R52: the outstanding request ended with NOANSWER. -/
def State.endNoAnswer (s : State) : State :=
  match s.rh.outstanding with
  | some w =>
      { s with rh := { s.rh with outstanding := none } }.report
        (.answer (some (.request w.kind)) (some w.number) .noanswer .none)
  | none => s

end Sys2Proof.Machine
end

