-- ==== Sys2Proof/Machine/Overflow.lean ====
section
/-! DEFINITION. The tanks (R118, R122 to R124, R126 to R128), the closure claim's decision (R131) and the settle timers
(R135): the meanings of HH_CHANGE, CLAIM_WAIT_EXPIRY, SETTLE_WINDOW_EXPIRY and SETTLE_LIMIT_EXPIRY. -/

namespace Sys2Proof.Machine

/-! ## A reading (R118) -/

/-- R126: the high alarm flag after a reading. -/
def Tank.highAlarmAfter (t : Tank) (level high : Nat) : Bool :=
  if high ≤ level then true else if level < high - 50 then false else t.highAlarm

/-- R118, R126: a tank takes a level; the high alarm is kept in RUNNING alone. -/
def Tank.takeLevel (t : Tank) (level high : Nat) (running : Bool) : Tank :=
  { t with level := some level, levelValid := true
           highAlarm := if running then t.highAlarmAfter level high else t.highAlarm }

/-- R122: OPEN to FILLING. -/
def State.stepFilling (s : State) (n : Ch) (level : Nat) : State :=
  if (s.ow.tanks.get n).state = .opened ∧ (s.ow.tanks.get n).startLevel + 10 ≤ level then s.setTank n .filling else s

/-- R122: OPEN or FILLING to TOPPING. -/
def State.stepTopping (s : State) (n : Ch) (level : Nat) : State :=
  if ((s.ow.tanks.get n).state = .opened ∨ (s.ow.tanks.get n).state = .filling)
      ∧ (s.sl.setup.tanks.get n).topping ≤ level then s.setTank n .topping else s

/-- R123, R128: whether some other tank in use is open. -/
def State.otherOpen (s : State) (n : Ch) : Bool :=
  s.tanksUsed.any fun m => m != n && (s.ow.tanks.get m).state.isOpen

/-- R123, R124: what target level does to an open tank. -/
def State.stepTarget (s : State) (n : Ch) (level : Nat) : State :=
  if (s.ow.tanks.get n).state.isOpen ∧ (s.sl.setup.tanks.get n).target ≤ level then
    (if s.otherOpen n then (s.setTank n .full).closeChannel n
     else if s.ow.claim.waiting then s
     else if s.peerRoute then s.startClaim n
     else s.setTank n .held)
  else s

/-- R122 to R124: the level steps that are due, in an active phase. -/
def State.levelSteps (s : State) (n : Ch) (level : Nat) : State :=
  if s.running && s.pc.phase.active then ((s.stepFilling n level).stepTopping n level).stepTarget n level else s

/-- R135: whether a level has moved more than 5 mm from a reference. -/
def movedFrom (reference level : Nat) : Bool := decide (reference + 5 < level ∨ level + 5 < reference)

/-- R135: a reading applied to the settle window; `first` is whether it makes the level valid. -/
def State.settleReading (s : State) (n : Ch) (level : Nat) (first : Bool) : State :=
  if s.ow.receipt = .settling ∧ (s.ow.tanks.get n).takingPart
      ∧ (first ∨ movedFrom (s.ow.tanks.get n).reference level) then
    let t := s.putTank n { s.ow.tanks.get n with reference := level }
    { t with ow := { t.ow with settleWindow := if t.ow.windowHeld then .stopped else .fromZero } }
  else s

/-- R136: the received quantity recomputed at a reading of a tank taking part. -/
def State.receivedReading (s : State) (n : Ch) : State :=
  if (s.ow.tanks.get n).takingPart then s.takeOwnReceived else s

/-- R118, R126, R127: a tank's high alarm and overfill condition handed on at a reading, before the level steps: the
HIGHLEVEL alarm, then the qualification timers. -/
def State.handTankFacts (s : State) (n : Ch) : State := (s.sweepAlarms [.highlevel n]).watchTimers

/-- R118: a level reaches the Overflow Watch. -/
def State.tankReading (s : State) (n : Ch) (level : Nat) : State :=
  let first := !(s.ow.tanks.get n).levelValid
  let t := ((s.putTank n ((s.ow.tanks.get n).takeLevel level (s.sl.setup.tanks.get n).high s.running)).takeOverfill
    n).handTankFacts n
  (((t.levelSteps n level).judgeAllFull.receivedReading n).settleReading n level first).takeReceived.judgeEnds

/-- R118, R135: the channel of a tank enters sensor fault. -/
def State.tankFault (s : State) (n : Ch) : State :=
  let t := (s.putTank n { s.ow.tanks.get n with levelValid := false }).takeOverfill n
  if t.ow.receipt = .settling ∧ (t.ow.tanks.get n).takingPart then
    { t with ow := { t.ow with settleWindow := .stopped } }
  else t

/-! ## OVERFILL (R128, R91) -/

/-- R91: the close of an overfilled tank's channel. -/
def State.closeOverfilled (s : State) (n : Ch) : State :=
  if s.otherOpen n then s.closeChannel n
  else
    match s.vp.holdOff with
    | .holding => s.pendChannel n
    | .released => s.closeChannel n
    | .none => s

/-- R128, R132: the tank becomes OVERFILL, and a claim waiting for it ends. -/
def State.overfillTank (s : State) (n : Ch) : State :=
  let t := s.setTank n .overfill
  if t.ow.claim.tank = some n then t.endClaim else t

/-- R62: the TRIP event of a tank named for the first time. -/
def State.nameTank (s : State) (n : Ch) : State :=
  if s.tu.named.get n then s
  else ({ s with tu := { s.tu with named := s.tu.named.set n true } }).emit (.overfillTank n)

/-- R62, R91, R128: OVERFILL qualified for a tank: the tank, its channel, the event, the latch (log 27). -/
def State.qualifyOverfill (s : State) (n : Ch) : State :=
  (((s.overfillTank n).closeOverfilled n).nameTank n).handCause .overfill (some n.num)

/-! ## The commands -/

/-- HH_CHANGE (R127): read for a tank in use, in JOINING and RUNNING. -/
def execHhChange (n : Ch) (on : Bool) (s : State) : Host.Outcome State Fault Refusal :=
  .next (if s.inputs.hh.get n = on then s
    else
      let t := { s with inputs := { s.inputs with hh := s.inputs.hh.set n on } }
      if s.listening && s.tankUsed n then (t.takeOverfill n).watch else t)

/-- R131: a claim won. DESIGN CHOICE (log 64): the claim tank becomes absent. -/
def State.winClaim (s : State) (n : Ch) : State :=
  ((s.setTank n .full).closeChannel n).setClaim .start n .won

/-- R131: a claim lost, and the retry if the route is still open. DESIGN CHOICE (log 64): the claim tank becomes
absent, until the retry sets it. -/
def State.loseClaim (s : State) (n : Ch) : State :=
  let t := (s.setTank n .held).setClaim .start n .lost
  match t.retryTank with
  | some m => t.startClaim m
  | none => t

/-- CLAIM_WAIT_EXPIRY (R131): the claim is decided on the roster as it stands. DESIGN CHOICE (log 53): ALLFULL (R134) is
judged after the tank state and the claim's events. -/
def execClaimWaitExpiry (s : State) : Host.Outcome State Fault Refusal :=
  .next (match s.ow.claim.waiting, s.ow.claim.tank with
    | true, some n =>
        (if !s.peerClaimBelow && s.peerRoute then s.winClaim n else s.loseClaim n).judgeAllFull.judgeEnds.watch
    | _, _ => s)

/-- R135: SETTLING becomes COMPLETE and both timers stop. -/
def State.completeSettling (s : State) : State :=
  (({ s with ow := { s.ow with settleWindow := .stopped, settleLimit := .stopped } }).setReceipt .complete).judgeEnds.watch

/-- SETTLE_WINDOW_EXPIRY (R135). -/
def execSettleWindowExpiry (s : State) : Host.Outcome State Fault Refusal :=
  .next (if s.ow.receipt = .settling ∧ s.ow.settleWindow.running then s.completeSettling else s)

/-- SETTLE_LIMIT_EXPIRY (R135). -/
def execSettleLimitExpiry (s : State) : Host.Outcome State Fault Refusal :=
  .next (if s.ow.receipt = .settling ∧ s.ow.settleLimit.running then s.completeSettling else s)

end Sys2Proof.Machine
end

