-- ==== Sys2Proof/Machine/Pump.lean ====
section
/-! DEFINITION. The pump's feedback, its timers and its proof (R95 to R97): the meanings of PUMP_FB_CHANGE,
FEEDBACK_TIMER_EXPIRY and STOP_TIMER_EXPIRY. -/

namespace Sys2Proof.Machine

/-- R96: the pump STOPPED. -/
def ValvePump.proved (v : ValvePump) : ValvePump := { v with pump := .stopped, stopTimer := .stopped }

/-- R96, R99, R149: the pump proved stopped if it is, with the external end in STOPPING and TRIPPED. -/
def State.proveStop (s : State) : State :=
  if s.pumpProved then
    (if s.running && (s.pc.phase == .stopping || s.pc.phase == .tripped) then
       (s.putPump s.vp.proved).setExternalEnd
     else s.putPump s.vp.proved)
  else s

/-- R95, R97: PUMP_FB comes on at PU. -/
def State.feedbackOn (s : State) : State :=
  match s.vp.pump with
  | .starting => s.putPump { s.vp with pump := .running, feedback := .stopped }
  | .stopped => (s.putPump { s.vp with pump := .stopping, stopTimer := .fromZero }).handPump .uncommanded
  | .running | .stopping => s

/-- R96, R97: PUMP_FB goes off at PU. -/
def State.feedbackOff (s : State) : State :=
  match s.vp.pump with
  | .running => if s.vp.pumpRun then s.handPump .lost else s
  | .stopping => s.proveStop
  | .starting | .stopped => s

/-- PUMP_FB_CHANGE (R97): read at PU alone (R94), in JOINING and RUNNING. DESIGN CHOICE (log 69): in STARTUP and OFFLINE,
of which no rule speaks, the level is kept and nothing acts on it. -/
def execPumpFbChange (on : Bool) (s : State) : Host.Outcome State Fault Refusal :=
  .next (if s.inputs.pumpFb = on then s
    else
      let t := { s with inputs := { s.inputs with pumpFb := on } }
      if s.hasRole .pu && s.listening then (if on then t.feedbackOn else t.feedbackOff).watch.puEval else t)

/-- FEEDBACK_TIMER_EXPIRY (R95): NOFEEDBACK is handed; the pump stays STARTING. -/
def execFeedbackTimerExpiry (s : State) : Host.Outcome State Fault Refusal :=
  .next (if s.vp.feedback.running then
      (({ s with vp := { s.vp with feedback := .stopped } }).handPump .noFeedback).watch.puEval
    else s)

/-- STOP_TIMER_EXPIRY (R96): NOSTOP is handed; the pump stays STOPPING and the stop watch goes on. -/
def execStopTimerExpiry (s : State) : Host.Outcome State Fault Refusal :=
  .next (if s.vp.stopTimer.running then
      (({ s with vp := { s.vp with stopTimer := .stopped } }).handPump .noStop).watch.puEval
    else s)

end Sys2Proof.Machine
end

