-- ==== Sys2Proof/Machine/Hose.lean ====
section
/-! DEFINITION. The measurement scan (R101 to R105), the pressure watch (R107, R110, R111) and the separation switch (R115):
the meanings of SCAN_SET_START, SCAN_READING, ALLOWANCE_EXPIRY, RELAX_EXPIRY and SEP_IN_CHANGE. -/

namespace Sys2Proof.Machine

/-! ## One reading -/

/-- R102: a bad reading. -/
def badReading (raw : Nat) : Bool := decide (raw ≤ 40) || decide (4055 ≤ raw)

/-- R102: the engineering value of a good reading; a level stops at 30,000 mm. -/
def engineering (raw span : Nat) (level : Bool) : Nat :=
  if level then min 30000 (raw * span / 4095) else raw * span / 4095

/-- R103, R104: what a completed reading hands on. -/
inductive Reading
  | nothing
  | value (v : Nat)
  | faultBegins
  | faultEnds (v : Nat)
  deriving DecidableEq, Repr

/-- R102, R103: a channel after a completed reading, and what is handed on. -/
def ScanChannel.read (c : ScanChannel) (raw : Nat) (level : Bool) : ScanChannel × Reading :=
  match c.fault, badReading raw with
  | false, false =>
      ({ c with lastRaw := some raw, badCount := 0, value := some (engineering raw c.span level) },
        .value (engineering raw c.span level))
  | false, true =>
      if 2 ≤ c.badCount then
        ({ c with lastRaw := some raw, fault := true, badCount := 0, goodCount := 0 }, .faultBegins)
      else ({ c with lastRaw := some raw, badCount := c.badCount + 1 }, .nothing)
  | true, false =>
      if 2 ≤ c.goodCount then
        ({ c with lastRaw := some raw, fault := false, badCount := 0, goodCount := 0
                  value := some (engineering raw c.span level) },
          .faultEnds (engineering raw c.span level))
      else ({ c with lastRaw := some raw, goodCount := c.goodCount + 1 }, .nothing)
  | true, true => ({ c with lastRaw := some raw, goodCount := 0 }, .nothing)

/-! ## The pressure watch -/

/-- R107: the hard limit count after a reading. -/
def HoseWatch.hardAfter (h : HoseWatch) (v : Nat) : Nat := if h.hardLimit < v then min 2 (h.hardCount + 1) else 0

/-- R110: the excursion state after a reading. -/
def HoseWatch.excursionAfter (h : HoseWatch) (v : Nat) : Excursion :=
  match h.excursion with
  | .allowed => if h.surgeThreshold < v then .excursion else .allowed
  | .excursion => if h.surgeThreshold < v then .excursion else .relax
  | e => e

/-- R111: whether the surge condition is present at a value in an excursion state. -/
def HoseWatch.surgeAt (h : HoseWatch) (v : Nat) (e : Excursion) : Bool :=
  decide (h.surgeThreshold < v) && (e == .none || e == .relax)

/-- R107, R110, R111: a reading of AN1. -/
def HoseWatch.takePressure (h : HoseWatch) (v : Nat) : HoseWatch :=
  { h with
    hardCount := h.hardAfter v
    excursion := h.excursionAfter v
    allowance := if h.excursion = .excursion ∧ h.excursionAfter v = .relax then .stopped else h.allowance
    relax := if h.excursion = .excursion ∧ h.excursionAfter v = .relax then .fromZero else h.relax
    surgeCond := h.surgeAt v (h.excursionAfter v) }

/-- R104: fault entry on AN1. -/
def HoseWatch.losePressure (h : HoseWatch) : HoseWatch :=
  { h with hardCount := 0, excursion := .none, allowance := .stopped, relax := .stopped, surgeCond := false }

/-- R107: HARDLIMIT handed with each reading that leaves the count at 2. -/
def State.handHardLimit (s : State) : State := if s.hw.hardCount = 2 then s.handCause .hardlimit none else s

/-- R105, R113: a good reading of AN1 at PU, BV and SV: the pressure watch and the leak check, then the stop proof. In JOINING the watch moves its
count and conditions and nothing latches, since the Trip Unit takes causes in RUNNING alone (R61). -/
def State.pressureReading (s : State) (v : Nat) : State :=
  ({ s with hw := s.hw.takePressure v }).watchLeak.handHardLimit.proveStop

/-- R104: fault entry on AN1 handed to the pressure watch: the count and the excursion state fall back, and the surge,
above-threshold and leak facts cease, each handed on before SENSOR: the timers, and the alarms of a disabled SURGE or
LEAK. -/
def State.ceasePressure (s : State) : State :=
  ({ s with hw := s.hw.losePressure }).watchLeak.watchTimers.sweepAlarms [.surge, .leak]

/-! ## Handing on (R104, R105) -/

/-- R105: a good reading handed on. -/
def State.handReading (s : State) (n : Ch) (v : Nat) : State :=
  if s.pressureRole then s.pressureReading v
  else if s.tankUsed n then s.tankReading n v
  else s

/-- R104: fault entry handed on: the pressure watch, the Trip Unit, the Overflow Watch. -/
def State.handFault (s : State) (n : Ch) : State :=
  let t := if s.pressureRole then s.ceasePressure else s
  let t := t.handCause .sensor (some n.num)
  if t.tankUsed n then t.tankFault n else t

/-- R103 to R105: what a reading hands on. -/
def State.handOn (s : State) (n : Ch) : Reading → State
  | .nothing => s
  | .value v => s.handReading n v
  | .faultBegins => s.handFault n
  | .faultEnds v => s.handReading n v

/-- R101: the enabled channel after another in a set. -/
def HoseWatch.channelAfter (h : HoseWatch) (n : Ch) : Option Ch :=
  Ch.all.find? fun m => (h.chans.get m).enabled && decide (n.num < m.num)

/-- R101: the slot after a reading: the next channel, or the end of the set, after which the next set begins at once in an
active phase. -/
def HoseWatch.advance (h : HoseWatch) (n : Ch) (continuous : Bool) : HoseWatch :=
  match h.channelAfter n with
  | some m => { h with slot := some m }
  | none => if continuous then h.startSet else { h with slot := none }

/-- R102: the reading under way completes. -/
def State.completeReading (s : State) (n : Ch) (raw : Nat) : State :=
  let r := (s.hw.chans.get n).read raw (s.hasRole .tw)
  let t := (({ s with hw := { s.hw with chans := s.hw.chans.set n r.1 } }).handOn n r.2).watch.puEval
  { t with hw := t.hw.advance n (t.running && t.pc.phase.active) }

/-! ## The commands -/

/-- SCAN_SET_START (R101): a set begins while HW waits between sets. -/
def execScanSetStart (s : State) : Host.Outcome State Fault Refusal :=
  .next (if s.listening && s.hw.slot.isNone then { s with hw := s.hw.startSet } else s)

/-- SCAN_READING (R102): the reading under way completes with a raw value. -/
def execScanReading (raw : BitVec 12) (s : State) : Host.Outcome State Fault Refusal :=
  .next (match s.listening, s.hw.slot with
    | true, some n => s.completeReading n raw.toNat
    | _, _ => s)

/-- R110: the excursion state NONE with both timers stopped; the surge condition stays gone until the next reading
(log 14). -/
def HoseWatch.endAllowance (h : HoseWatch) : HoseWatch :=
  { h with excursion := .none, allowance := .stopped, relax := .stopped }

/-- ALLOWANCE_EXPIRY (R110): in EXCURSION, SURGE is handed for latching at once; the state becomes NONE. -/
def execAllowanceExpiry (s : State) : Host.Outcome State Fault Refusal :=
  .next (if s.hw.allowance.running then
      let t := if s.hw.excursion = .excursion then s.handCause .surge none else s
      ({ t with hw := t.hw.endAllowance }).watch.puEval
    else s)

/-- RELAX_EXPIRY (R110). -/
def execRelaxExpiry (s : State) : Host.Outcome State Fault Refusal :=
  .next (if s.hw.relax.running then { s with hw := { s.hw with excursion := .none, relax := .stopped } }.watch else s)

/-- SEP_IN_CHANGE (R115): read at BV and SV, in RUNNING. -/
def execSepInChange (on : Bool) (s : State) : Host.Outcome State Fault Refusal :=
  .next (if s.inputs.sep = on then s
    else
      let t := { s with inputs := { s.inputs with sep := on } }
      if s.running && s.valveRole then (if on then t.handSeparation else t).watch else t)

end Sys2Proof.Machine
end

