-- ==== Sys2Proof/Machine/Bytes.lean ====
section
/-! DEFINITION. Bytes on the line and in the image: numbers high byte first, the frame check, the stuffed form. -/

namespace Sys2Proof.Machine

/-- The mark byte 0D3H (R160). -/
def markByte : Byte := 0xD3

/-- The number that bytes spell, high byte first (R181, R189). -/
def ofBytes (l : List Byte) : Nat := l.foldl (fun n b => n * 256 + b.toNat) 0

/-- A number in two bytes, high byte first. -/
def bytes2 (n : Nat) : List Byte := [BitVec.ofNat 8 (n / 256), BitVec.ofNat 8 n]

/-- A number in four bytes, high byte first. -/
def bytes4 (n : Nat) : List Byte := bytes2 (n / 65536) ++ bytes2 (n % 65536)

/-- `count` bytes from `offset`. -/
def slice (l : List Byte) (offset count : Nat) : List Byte := (l.drop offset).take count

/-- The byte at an offset; 0 past the end (no rule reads past the end of a frame whose length it has checked). -/
def byteAt (l : List Byte) (offset : Nat) : Nat := (l.getD offset 0).toNat

/-- The number of `count` bytes at an offset. -/
def numAt (l : List Byte) (offset count : Nat) : Nat := ofBytes (slice l offset count)

/-- One bit of the frame check: polynomial x^16 + x^12 + x^5 + 1 (R161). -/
def checkBit (c : BitVec 16) : BitVec 16 :=
  if c.msb then (c <<< 1) ^^^ 0x1021#16 else c <<< 1

/-- One byte of the frame check, most significant bit first (R161). -/
def checkByte (c : BitVec 16) (b : Byte) : BitVec 16 :=
  Nat.repeat checkBit 8 (c ^^^ (b.setWidth 16 <<< 8))

/-- The frame check of some bytes, from FFFFH (R161). -/
def frameCheck (l : List Byte) : BitVec 16 := l.foldl checkByte 0xFFFF#16

/-- Bytes with their frame check behind them, high byte first (R161). -/
def withCheck (l : List Byte) : List Byte := l ++ bytes2 (frameCheck l).toNat

/-- Whether the last two bytes are the check of the bytes before them (R161). -/
def checkPasses (l : List Byte) : Bool :=
  (frameCheck (l.take (l.length - 2))).toNat == numAt l (l.length - 2) 2

/-- One byte in stuffed form (R160). -/
def stuffByte (b : Byte) : List Byte := if b = markByte then [markByte, markByte] else [b]

/-- The characters of a frame on the line: the mark byte, then the bytes in stuffed form (R160). -/
def onLine (l : List Byte) : List Byte := markByte :: l.flatMap stuffByte

end Sys2Proof.Machine
end

