-- ==== Sys2Proof/Machine/Frames.lean ====
section
/-! DEFINITION. The four link frames: their bytes (R174 to R181), how a receiver reads them (R182) and how the check slot
judges them (R171). -/

namespace Sys2Proof.Machine

/-! ## Building -/

/-- A number as one byte. -/
def byteOf (n : Nat) : Byte := BitVec.ofNat 8 n

/-- The five header bytes (R174, R181). -/
def headerBytes (k : FrameKind) (h : Header) : List Byte :=
  [byteOf k.code, byteOf h.sender, byteOf h.role.code, h.transfer, h.gen]

/-- A state code with the pressure validity mark in bit 7 (R181). -/
def stateByte (code : Nat) (valid : Bool) : Byte := byteOf (if valid then code else code + 128)

/-- The flags byte (R181). -/
def flagsByte (st : Status) : Byte :=
  byteOf (st.ready.toNat + 2 * st.cause.toNat + 4 * st.closed.toNat + 8 * st.path.toNat + 16 * st.claim.toNat)

/-- A tank item: the state, and the level with its mark in bit 15 (R181). -/
def itemBytes (i : TankItem) : List Byte :=
  byteOf i.state.code :: bytes2 (if i.valid then i.level else i.level + 32768)

/-- The role body of a STATUS (R176, R177, R181). -/
def bodyBytes : RoleBody → List Byte
  | .pu pump pressure valid delivered endKind nomination maxRate =>
      stateByte pump.code valid :: (bytes2 pressure ++ bytes4 delivered ++ [byteOf endKind.code]
        ++ bytes4 nomination ++ bytes4 maxRate)
  | .valve state pressure valid => stateByte state.code valid :: bytes2 pressure
  | .tw receipt received items =>
      byteOf receipt.code :: (bytes4 received ++ [byteOf items.length] ++ items.flatMap itemBytes)
  | .mn => []

/-- A STATUS before its check bytes (R175, R181). -/
def statusBytes (sender : Nat) (role : Role) (st : Status) : List Byte :=
  headerBytes .status ⟨sender, role, st.transfer, st.gen⟩
    ++ [byteOf st.phase.code, flagsByte st, byteOf (causeCode st.firstCause), byteOf st.firstOrigin]
    ++ bodyBytes st.body

/-- A TRIP before its check bytes (R180, R181). -/
def tripBytes (h : Header) (cause : Option Cause) (origin : Nat) : List Byte :=
  headerBytes .trip h ++ [byteOf (causeCode cause), byteOf origin]

/-- A REQUEST or ANSWER before its check bytes (R178, R179, R181). -/
def heldBytes : HeldFrame → List Byte
  | .request h kind number nomination maxRate =>
      headerBytes .request h ++ [byteOf kind.code, number]
        ++ (if kind = .nominate then bytes4 nomination ++ bytes4 maxRate else [])
  | .answer h requester number outcome =>
      headerBytes .answer h ++ [byteOf requester, number, byteOf outcome.code]

/-! ## Reading -/

/-- What a receiver reads after the header (R182). -/
inductive Contents
  | status (st : Status)
  /-- the request kind code as carried, which may lie outside its table -/
  | request (code : Nat) (number : BitVec 8) (nomination maxRate : Nat)
  | answer (requester : Nat) (number : BitVec 8) (outcome : Decision)
  | trip (cause : Option Cause) (origin : Nat)
  /-- contents made unusable by a code outside its table; `tripped` for a STATUS that shows phase code TRIPPED -/
  | unusable (tripped : Bool) (cause : Option Cause) (origin : Nat)
  deriving DecidableEq, Repr

/-- A good frame as the roster takes it. -/
structure Received where
  kind : FrameKind
  header : Header
  contents : Contents
  deriving DecidableEq, Repr

/-- R182: "a first-out origin outside 0..15" is read as 0. -/
def readOrigin (n : Nat) : Nat := if n ≤ 15 then n else 0

/-- The tank items of a TW body (R177, R181), `k` of them from an offset; none if a state code is outside its table. -/
def readItems (l : List Byte) : Nat → Nat → Option (List TankItem)
  | _, 0 => some []
  | offset, k + 1 =>
      match TankState.ofCode (byteAt l offset), readItems l (offset + 3) k with
      | some st, some rest =>
          some (⟨st, numAt l (offset + 1) 2 % 32768, decide (numAt l (offset + 1) 2 < 32768)⟩ :: rest)
      | _, _ => none

/-- The role body of a STATUS (R176, R177, R181); none if a code is outside its table (R182). -/
def readBody (l : List Byte) : Role → Option RoleBody
  | .pu =>
      match PumpState.ofCode (byteAt l 9 % 16), EndKind.ofCode (byteAt l 16) with
      | some p, some e =>
          some (.pu p (numAt l 10 2) (decide (byteAt l 9 < 128)) (numAt l 12 4) e (numAt l 17 4) (numAt l 21 4))
      | _, _ => none
  | .bv | .sv =>
      match ValveState.ofCode (byteAt l 9 % 16) with
      | some v => some (.valve v (numAt l 10 2) (decide (byteAt l 9 < 128)))
      | none => none
  | .tw =>
      match ReceiptState.ofCode (byteAt l 9), readItems l 15 (byteAt l 14) with
      | some r, some items => some (.tw r (numAt l 10 4) items)
      | _, _ => none
  | .mn => some .mn

/-- The contents of a STATUS of a role (R175, R182). -/
def readStatus (l : List Byte) (h : Header) : Contents :=
  match Phase.ofCode (byteAt l 5), readBody l h.role with
  | some p, some body =>
      .status { transfer := h.transfer, gen := h.gen, phase := p, ready := (byteAt l 6).testBit 0,
                cause := (byteAt l 6).testBit 1, closed := (byteAt l 6).testBit 2, path := (byteAt l 6).testBit 3,
                claim := (byteAt l 6).testBit 4, firstCause := Cause.ofCode (byteAt l 7),
                firstOrigin := readOrigin (byteAt l 8), body := body }
  | _, _ => .unusable (byteAt l 5 == Phase.tripped.code) (Cause.ofCode (byteAt l 7)) (readOrigin (byteAt l 8))

/-- The contents of a frame of a kind (R182). -/
def readContents (l : List Byte) (k : FrameKind) (h : Header) : Contents :=
  match k with
  | .status => readStatus l h
  | .request => .request (byteAt l 5) (l.getD 6 0) (numAt l 7 4) (numAt l 11 4)
  | .answer =>
      match Decision.ofCode (byteAt l 7) with
      | some o => .answer (byteAt l 5) (l.getD 6 0) o
      | none => .unusable false none 0
  | .trip => .trip (Cause.ofCode (byteAt l 5)) (readOrigin (byteAt l 6))

/-- A frame that passed the check slot, read whole; none only for bytes the check slot refuses. -/
def readFrame (l : List Byte) : Option Received :=
  match FrameKind.ofCode (byteAt l 0), Role.ofCode (byteAt l 2) with
  | some k, some role =>
      let h : Header := ⟨byteAt l 1, role, l.getD 3 0, l.getD 4 0⟩
      some ⟨k, h, readContents l k h⟩
  | _, _ => none

/-! ## Judging -/

/-- The length Link Frames gives for a frame of these bytes (R181, R182), check bytes included; none when no length is
given. -/
def expectedLength (l : List Byte) (k : FrameKind) : Option Nat :=
  match Role.ofCode (byteAt l 2) with
  | none => none
  | some role =>
      match k with
      | .status =>
          match role with
          | .pu => some 27
          | .bv | .sv => some 14
          | .mn => some 11
          | .tw => if 14 < l.length ∧ byteAt l 14 ≤ 4 then some (17 + 3 * byteAt l 14) else none
      | .request => if byteAt l 5 = 1 then some 17 else some 9
      | .answer => some 10
      | .trip => some 9

/-- The verdict of the check slot (R171). -/
inductive Verdict
  | good
  /-- the station's own echo: discarded without an event -/
  | echo
  | discard (r : FrameFault)
  deriving DecidableEq, Repr

/-- R171: the seven checks in order. -/
def judge (echo damaged : Bool) (l : List Byte) : Verdict :=
  if echo then .echo
  else if damaged then .discard .character
  else if l.length < 7 then .discard .length
  else if !checkPasses l then .discard .check
  else
    match FrameKind.ofCode (byteAt l 0) with
    | none => .discard .kind
    | some k =>
        if expectedLength l k ≠ some l.length then .discard .length
        else if byteAt l 1 = 0 ∨ 15 < byteAt l 1 then .discard .sender
        else .good

end Sys2Proof.Machine
end

