-- ==== Sys2Proof/Machine/Roster.lean ====
section
/-! DEFINITION. OFFLINE (R193), the roster's taking of a frame (R29 to R34, R38) and its ageing (R35 to R37), with the
meanings of SILENCE_LIMIT and REMOVAL_LIMIT. -/

namespace Sys2Proof.Machine

/-! ## OFFLINE -/

/-- R159, R162, R168, R184: the Link Controller at entry to OFFLINE: nothing on the line, nothing queued, nothing
received, the heartbeat stopped. DESIGN CHOICE (log 57): the idle time, which R159 does not mention, becomes 0. -/
def LinkController.offline : LinkController := .start

/-- R94: the pump's outputs off and its timers stopped where they stand; R193: every drive off. -/
def ValvePump.offline (v : ValvePump) : ValvePump :=
  { v with
    channels := v.channels.map fun c => { c with drive := .off, dwell := .stopped, travel := .stopped }
    pumpRun := false, rateLow := false, feedback := v.feedback.halted, stopTimer := v.stopTimer.halted }

/-- R101, R108: the set under way abandoned, the allowance and relax timers stopped where they stand. -/
def HoseWatch.offline (h : HoseWatch) : HoseWatch :=
  { h with slot := none, setTimer := .stopped, allowance := h.allowance.halted, relax := h.relax.halted }

/-- R193: entry to OFFLINE with its fault record, which is the detail of the SETUP alarm. -/
def State.enterOffline (s : State) (f : FaultRecord) : State :=
  { s with
    pc := { s.pc with station := .offline }
    sl := { s.sl with fault := f, joinWindow := .stopped }
    lc := .offline
    vp := s.vp.offline
    hw := s.hw.offline }.watch

/-! ## Entries -/

/-- Roles that are single on a link (R30). -/
def Role.single : Role → Bool
  | .pu | .bv | .sv => true
  | _ => false

/-- R30: whether a frame is a clash. -/
def State.isClash (s : State) (h : Header) : Bool :=
  h.sender == s.number
    || (h.role.single
        && (s.hasRole h.role || s.sr.entries.any fun e => e.hasRole h.role && e.number != h.sender))

/-- R31: an entry as it is created. -/
def Entry.fresh (n : Nat) : Entry := ⟨n, none, false, .present, 0, none⟩

/-- R27: the places of the table. -/
def rosterPlaces : Nat := 12

/-- R31: the unprotected entry nearest the end of the recency order. -/
def Roster.victim (r : Roster) : Option Nat :=
  (r.entries.reverse.find? fun e => !e.protected').map fun e => e.number

/-- The table without the entry of a number. -/
def Roster.without (r : Roster) (n : Nat) : List Entry := r.entries.filter fun e => e.number != n

/-- R31: the entry of a sender, created at the front if there is none; a full table evicts first, and takes no entry if
nothing in it may be evicted. -/
def Roster.takeIn (r : Roster) (n : Nat) : Roster × List Event :=
  if (r.find n).isSome then (r, [])
  else if r.entries.length < rosterPlaces then ({ r with entries := Entry.fresh n :: r.entries }, [.entryCreated n])
  else
    match r.victim with
    | some v => ({ r with entries := Entry.fresh n :: r.without v }, [.evicted v n, .entryCreated n])
    | none => (r, [])

/-- R32, R33: an entry after a frame of a role, with the STATUS the frame carried, if it carried one. DESIGN CHOICE
(log 72): a frame of another role with unusable contents removes the last status (R32), where R182 leaves it as it
was. -/
def Entry.takeFrame (e : Entry) (role : Role) (st : Option Status) : Entry :=
  { e with
    role := some role, presence := .present, age := 0
    last := match st with
      | some st => some st
      | none => if e.role = some role ∨ e.role = none then e.last else none }

/-- R32: the ROSTER events of a frame taken into an entry: a presence change, a role change. -/
def Entry.frameEvents (e : Entry) (role : Role) : List Event :=
  (if e.presence = .present then [] else [.presence e.number e.presence .present])
    ++ match e.role with
       | some old => if old = role then [] else [.roleChange e.number old role]
       | none => []

/-- R32, R33: a frame taken into the sender's entry, which goes to the front of the recency order. -/
def Roster.takeFrame (r : Roster) (n : Nat) (role : Role) (st : Option Status) : Roster × List Event :=
  match r.find n with
  | some e => ({ r with entries := e.takeFrame role st :: r.without n }, e.frameEvents role)
  | none => (r, [])

/-- The STATUS a frame's contents put into the entry; unusable contents put none (R182, log 72). -/
def Contents.status? : Contents → Option Status
  | .status st => some st
  | _ => none

/-- R29, R31, R32, R33: the entry found or made, and changed. -/
def State.enterFrame (s : State) (r : Received) : State :=
  let a := s.sr.takeIn r.header.sender
  let b := a.1.takeFrame r.header.sender r.header.role r.contents.status?
  { s with sr := b.1 }.emitAll (a.2 ++ b.2)

/-- R38: whether a frame sets the transfer-heard item. An unusable STATUS does not (log 23). -/
def Contents.transferHeard : Contents → Bool
  | .status st => st.phase != .idle
  | .trip _ _ => true
  | _ => false

/-- R38: the join summary after a frame. -/
def JoinSummary.take (j : JoinSummary) (h : Header) (c : Contents) : JoinSummary where
  genPu := if h.role = .pu then some h.gen else j.genPu
  genAny := some h.gen
  transferPu := if h.role = .pu then some h.transfer else j.transferPu
  transferAny := if h.transfer ≠ 0 then some h.transfer else j.transferAny
  heard := j.heard || c.transferHeard

/-! ## Taking a frame -/

/-- R29, R30, R38: a frame taken in JOINING: the clash reported, or the entry changed and the join summary kept. The
roster offers nothing else there, so no block evaluates the table at it (log 25). DESIGN CHOICE (log 59): the ROSTER event of a clash stands before the entry
to OFFLINE with its ALARM event (R193). -/
def State.takeJoining (s : State) (r : Received) : State :=
  if s.isClash r.header then
    (s.emit (.clash r.header.sender r.header.role)).enterOffline (.clash r.header.sender r.header.role)
  else
    let t := s.enterFrame r
    { t with sr := { t.sr with join := t.sr.join.take r.header r.contents } }

/-- R33, R34: the remote trip a frame may be: its first-out cause and origin. -/
def Contents.remoteTrip : Contents → Option (Option Cause × Nat)
  | .status st => if st.phase = .tripped then some (st.firstCause, st.firstOrigin) else none
  | .trip c o => some (c, o)
  | .unusable true c o => some (c, o)
  | _ => none

/-- R69, R70: a frame offered to the Trip Unit as a remote trip. -/
def State.offerTrip (s : State) (r : Received) : State :=
  match r.contents.remoteTrip with
  | some (c, o) => if r.header.gen = s.pc.gen then s.honour r.header.sender c o else s
  | none => s

/-- R30, R80: a clash in RUNNING: the ROSTER event, the TRIP event of the handing, and PHASE handed. Its STATUS or TRIP
is still offered to the Trip Unit (log 24). DESIGN CHOICE (log 48): both events stand before the latch and its events. -/
def State.takeClash (s : State) (r : Received) : State :=
  (((s.emit (.clash r.header.sender r.header.role)).emit (.clashHanded r.header.sender r.header.role)).handCause
    .phase (some r.header.sender)).offerTrip r

/-- R44, R109: whether the PU entry's last status begins to show STARTING or STOPPING with this STATUS; `e` is the entry
as it stood before. -/
def pumpBegins (e : Option Entry) (st : Status) : Bool :=
  match st.body.pump with
  | some p =>
      (p == .starting || p == .stopping)
        && !(e.any fun e => e.hasRole .pu && e.last.any fun old => old.body.pump == some p)
  | none => false

/-- What a STATUS from the PU entry does at a RUNNING station that is not PU, beside the follower rule: the allowance
(R109) and the record's figures (R147, R148). DESIGN CHOICE (log 60): both stand after the follower rule and before what
the roster change sets off. -/
def State.takePuStatus (s : State) (before : Option Entry) (st : Status) : State :=
  (s.movementIf (s.valveRole && pumpBegins before st)).takePuFigures st

/-- R33: a STATUS taken at a RUNNING station, offered to PC when the entry's role is PU. `before` is the entry as it stood
before the frame. -/
def State.takeStatus (s : State) (h : Header) (before : Option Entry) (st : Status) : State :=
  if h.role = .pu ∧ s.hasRole .pu = false then (s.followPu h.sender st).takePuStatus before st else s

/-- R34, R53: the contents handed to the Request Handler, after the roster change. -/
def State.takeContents (s : State) (r : Received) : State :=
  match r.contents with
  | .request code number q r' => if s.hasRole .pu then s.takeRequestFrame r.header.sender code number q r' else s
  | .answer requester number o => if requester = s.number then s.takeAnswerFrame number o else s
  | .unusable _ _ _ => s.emit (.field r.header.sender r.kind)
  | _ => s

/-- R29: a frame taken in RUNNING (log 39): the entry; the Trip Unit; PC's follower rule; the roster change; the Request
Handler. -/
def State.takeRunning (s : State) (r : Received) : State :=
  if s.isClash r.header then s.takeClash r
  else
    let t := (s.enterFrame r).offerTrip r
    let t := match r.contents with
      | .status st => t.takeStatus r.header (s.sr.find r.header.sender) st
      | _ => t
    t.rosterChanged.takeContents r

/-- R29: a frame taken whole, by station state. Unusable contents give the FIELD event (R182). DESIGN CHOICE (log 70): in
JOINING a clash frame, which R30 keeps out of the table, gives none; for RUNNING see log 24. -/
def State.takeFrame (s : State) (l : List Byte) : State :=
  match readFrame l, s.pc.station with
  | some r, .joining =>
      (match r.contents with
       | .unusable _ _ _ =>
           if s.isClash r.header then s.takeJoining r
           else (s.takeJoining r).emit (.field r.header.sender r.kind)
       | _ => s.takeJoining r)
  | some r, .running => s.takeRunning r
  | _, _ => s

/-! ## Ageing -/

/-- R35: what the silence limit passing does to an entry. -/
def Entry.passSilence (e : Entry) (limit : Nat) : Entry :=
  { e with age := max e.age (limit + 1), presence := if e.protected' then .silent else e.presence }

/-- R35: whether the silence limit can pass at an entry: it has not passed before. -/
def Entry.canPassSilence (e : Entry) (limit : Nat) : Bool :=
  if e.protected' then e.presence != .silent else decide (e.age ≤ limit)

/-- One entry replaced where it stands in the recency order. -/
def Roster.replace (r : Roster) (e : Entry) : Roster :=
  { r with entries := r.entries.map fun x => if x.number = e.number then e else x }

/-- R36: LINKLOSS handed for an entry that has become SILENT in an active phase. -/
def State.handLinkloss (s : State) (e : Entry) : State :=
  if e.protected' then s.handCause .linkloss (some e.number) else s

/-- R35, R36: the silence limit passes at an entry. -/
def State.silence (s : State) (e : Entry) : State :=
  let t := { s with sr := s.sr.replace (e.passSilence s.sl.setup.silence) }
  ((t.emitIf e.protected' (.presence e.number e.presence .silent)).rosterChanged).handLinkloss e

/-- SILENCE_LIMIT (R35): nothing where the station has no such entry, or its limit has passed already (log 5). -/
def execSilenceLimit (n : Nat) (s : State) : Host.Outcome State Fault Refusal :=
  .next (match s.listening, s.sr.find n with
    | true, some e => if e.canPassSilence s.sl.setup.silence then s.silence e else s
    | _, _ => s)

/-- REMOVAL_LIMIT (R37): an unprotected entry leaves the table. -/
def execRemovalLimit (n : Nat) (s : State) : Host.Outcome State Fault Refusal :=
  .next (match s.listening, s.sr.find n with
    | true, some e =>
        if e.protected' then s
        else (({ s with sr := { s.sr with entries := s.sr.without n } }).emit (.removed n)).rosterChanged
    | _, _ => s)

end Sys2Proof.Machine
end

