-- ==== Sys2Proof/Machine/Link.lean ====
section
/-! DEFINITION. The Link Controller: characters heard (R158, R159, R169, R170), attempts (R163 to R166), the receive slots
(R168, R171, R172), the heartbeat (R184); and the meanings of its six commands. -/

namespace Sys2Proof.Machine

/-! ## The line (R159) -/

/-- R159: a character heard. -/
def LineState.heard : LineState → LineState
  | .quiet => .receiving
  | l => l

/-! ## The assembly slot (R169, R170) -/

/-- R169: the bytes a frame may hold before the assembly abandons it. -/
def frameLimit : Nat := 64

/-- R169: a frame begun with a byte, with the echo mark if it was heard while SENDING. -/
def Assembly.begin (a : Assembly) (b : Byte) (sending : Bool) : Assembly :=
  { a with condition := .building, markSeen := false, bytes := [b], damaged := false, echo := sending }

/-- R169: the slot back to HUNTING; it keeps its mark-seen flag. -/
def Assembly.hunt (a : Assembly) : Assembly :=
  { a with condition := .hunting, bytes := [], damaged := false, echo := false }

/-- R169: a byte added to the frame in hand; a frame that would pass 64 bytes is abandoned. -/
def Assembly.add (a : Assembly) (b : Byte) : Assembly × Option Event :=
  if a.bytes.length < frameLimit then ({ a with markSeen := false, bytes := a.bytes ++ [b] }, none)
  else ({ a with markSeen := false }.hunt, some (.frameLost .length none none))

/-- R169, R170: a character taken by the assembly slot; `sending` says whether it was heard while SENDING (log 13). -/
def Assembly.take (a : Assembly) (c : LineChar) (sending : Bool) : Assembly × Option Event :=
  match c with
  | .bad =>
      ({ a with markSeen := false, damaged := a.damaged || a.condition == .building }, none)
  | .good b =>
      if b = markByte then
        (if a.markSeen then
           (if a.condition = .building then a.add b else ({ a with markSeen := false }, none))
         else ({ a with markSeen := true }, none))
      else if a.markSeen then
        match a.condition with
        | .hunting => (a.begin b sending, none)
        | .building => (a.begin b sending, some (.frameLost .framing none none))
        | .full =>
            ({ a with markSeen := false }, if sending then none else some (.frameLost .overrun none none))
      else if a.condition = .building then a.add b
      else (a, none)

/-! ## The slots (R168, R171) -/

/-- R168: check to delivery. -/
def LinkController.toDelivery (l : LinkController) : LinkController :=
  if l.delivery.isNone then { l with delivery := l.check, check := none } else l

/-- R168, R171: assembly to check, where the frame is judged; a frame that fails is discarded. DESIGN CHOICE (log 56): the
event of R173 names the first two bytes assembled as kind and sender, also where a bad character left a byte out. -/
def LinkController.toCheck (l : LinkController) : LinkController × Option Event :=
  if l.assembly.condition = .full ∧ l.check = none then
    match judge l.assembly.echo l.assembly.damaged l.assembly.bytes with
    | .good => ({ l with check := some l.assembly.bytes, assembly := l.assembly.hunt }, none)
    | .echo => ({ l with assembly := l.assembly.hunt }, none)
    | .discard r =>
        ({ l with assembly := l.assembly.hunt },
          some (.frameLost r l.assembly.bytes[0]? l.assembly.bytes[1]?))
  else (l, none)

/-- An event handed over, if there is one. -/
def State.emitOption (s : State) (e : Option Event) : State := s.emitAll e.toList

/-- R168: the moves that are due. -/
def State.moveSlots (s : State) : State :=
  let l := s.lc.toDelivery
  let r := l.toCheck
  ({ s with lc := r.1.toDelivery }).emitOption r.2

/-! ## Attempts (R163 to R166) -/

/-- R163: the chosen kind: the occupied place of highest kind, a place whose frame is under way passed over. -/
def LinkController.chosen (l : LinkController) : Option FrameKind :=
  [FrameKind.trip, .answer, .request, .status].find? fun k => (l.place k).isSome && !l.underWay k

/-- R163: the hold-off of a kind, in character times; `n` is the station number. -/
def kindHoldOff (k : FrameKind) (n : Nat) : Nat :=
  match k with
  | .trip => 0
  | .answer => 1
  | .request => 2
  | .status => 3 + n % 8

/-- R163: the access wait of a place, in character times. -/
def accessWait (k : FrameKind) (n attempts : Nat) : Nat := 4 + kindHoldOff k n + attempts * n

/-- R176: the pressure field of a STATUS: the value held, or 0, and whether it is valid. -/
def State.pressureField (s : State) : Nat × Bool :=
  (s.hw.chans.n1.value.getD 0, s.pressure.isSome)

/-- R177: the tank items of a STATUS. -/
def State.tankItems (s : State) : List TankItem :=
  s.tanksUsed.map fun n =>
    ⟨(s.ow.tanks.get n).state, (s.ow.tanks.get n).level.getD 0, (s.ow.tanks.get n).levelValid⟩

/-- R176, R177: the role body of the STATUS the station sends. -/
def State.roleBody (s : State) (r : Role) : RoleBody :=
  match r with
  | .pu => .pu s.vp.pump s.pressureField.1 s.pressureField.2 s.mr.record.delivered s.mr.record.endKind
      s.mr.record.nomination s.mr.record.maxRate
  | .bv | .sv => .valve s.vp.channels.n1.state s.pressureField.1 s.pressureField.2
  | .tw => .tw s.ow.receipt s.ow.received s.tankItems
  | .mn => .mn

/-- R68, R175: the first-out cause and origin a frame carries, NONE and 0 while the first-out is absent. -/
def State.firstOutFields (s : State) : Option Cause × Nat :=
  match s.tu.firstOut with
  | some f => (f.cause, f.origin)
  | none => (none, 0)

/-- R175, R185: the STATUS the station would send now. -/
def State.status (s : State) (r : Role) : Status where
  transfer := s.mr.record.transfer
  gen := s.pc.gen
  phase := s.pc.phase
  ready := s.pc.ready
  cause := s.tu.cause
  closed := s.pc.closed
  path := s.pc.path
  claim := s.claimFlag
  firstCause := s.firstOutFields.1
  firstOrigin := s.firstOutFields.2
  body := s.roleBody r

/-- R164: the bytes of the frame an attempt of a kind sends, before the check; none without a role or a held frame. -/
def State.attemptBytes (s : State) (k : FrameKind) : Option (List Byte) :=
  match k with
  | .status => s.role.map fun r => statusBytes s.number r (s.status r)
  | .trip => s.header.map fun h => tripBytes h s.firstOutFields.1 s.firstOutFields.2
  | .request | .answer => (s.lc.place k).bind fun p => p.frame.map heldBytes

/-- R164: an attempt of a kind begins. DESIGN CHOICE (log 4): ATTEMPT stands for the moment at which the wait of R163 is
over, so the idle time is at least that wait. -/
def State.beginAttempt (s : State) (k : FrameKind) (l : List Byte) : State :=
  let n := ((s.lc.place k).map Place.attempts).getD 0
  { s with lc := { s.lc with
      line := .sending, idle := max s.lc.idle (100 * accessWait k s.number n)
      attempt := some ⟨k, false, onLine (withCheck l)⟩ } }

/-- R164, R162: a place after a successful attempt. -/
def Place.afterSuccess (k : FrameKind) (p : Place) : Option Place :=
  match k with
  | .status | .trip => if p.askedAgain then some { p with attempts := 0, askedAgain := false } else none
  | .request | .answer => none

/-- R164, R184: the echo of the last byte has matched. -/
def LinkController.succeed (l : LinkController) (a : Attempt) : LinkController :=
  let m := if a.detached then l else l.setPlace a.kind ((l.place a.kind).bind (Place.afterSuccess a.kind))
  { m with attempt := none, heartbeat := if a.kind = .status then .fromZero else m.heartbeat }

/-- R166: the attempt limit. -/
def attemptLimit : Nat := 8

/-- R165, R166: a place after a failed attempt. A TRIP's count stays at 8; another kind is dropped there, but for a
STATUS asked for again. -/
def Place.afterFailure (k : FrameKind) (p : Place) : Option Place :=
  if k = .trip then some { p with attempts := min attemptLimit (p.attempts + 1), askedAgain := false }
  else if p.attempts + 1 < attemptLimit then some { p with attempts := p.attempts + 1, askedAgain := false }
  else if k = .status ∧ p.askedAgain then some { p with attempts := 0, askedAgain := false }
  else none

/-- R166: whether a failed attempt drops the frame of a place. -/
def Place.drops (k : FrameKind) (p : Place) : Bool := k != .trip && decide (attemptLimit ≤ p.attempts + 1)

/-- The request number of a held frame (R166). -/
def Place.number (p : Place) : Option (BitVec 8) :=
  match p.frame with
  | some (.request _ _ n _ _) => some n
  | some (.answer _ _ n _) => some n
  | none => none

/-- R165: the attempt ends in a mismatch. -/
def LinkController.fail (l : LinkController) (a : Attempt) : LinkController :=
  let m := if a.detached then l else l.setPlace a.kind ((l.place a.kind).bind (Place.afterFailure a.kind))
  { m with attempt := none, line := .backingOff }

/-- R165, R166, R52: a mismatch: the place, the LINK event of a drop, and the request a dropped REQUEST ends. DESIGN CHOICE
(log 52): the LINK event stands before the NOANSWER answer. -/
def State.mismatch (s : State) (a : Attempt) : State :=
  let t := { s with lc := s.lc.fail a }
  match a.detached, s.lc.place a.kind with
  | false, some p =>
      if p.drops a.kind then
        let t := t.emit (.dropped a.kind p.number)
        if a.kind = .request then t.endNoAnswer else t
      else t
  | _, _ => t

/-- R164: the character heard compared with the character sent. -/
def State.compareEcho (s : State) (c : LineChar) : State :=
  match s.lc.attempt with
  | none => s
  | some a =>
      match c, a.awaited with
      | .good b, x :: rest =>
          if b = x then
            (if rest = [] then { s with lc := s.lc.succeed a }
             else { s with lc := { s.lc with attempt := some { a with awaited := rest } } })
          else s.mismatch a
      | _, _ => s.mismatch a

/-! ## The commands -/

/-- LINE_CHARACTER (R169): a character heard complete is taken by the line state, the echo comparison and the assembly
slot, in this order (log 13). Outside JOINING and RUNNING LC does not listen (R159). -/
def execLineCharacter (c : LineChar) (s : State) : Host.Outcome State Fault Refusal :=
  .next (if s.listening then
      let r := s.lc.assembly.take c (s.lc.line == .sending)
      let t := { s with lc := { s.lc with line := s.lc.line.heard, idle := 0 } }.compareEcho c
      ({ t with lc := { t.lc with assembly := r.1 } }).emitOption r.2
    else s)

/-- ECHO_TIMEOUT (R164): no character heard within one character time after the one sent. -/
def execEchoTimeout (s : State) : Host.Outcome State Fault Refusal :=
  .next (match s.lc.attempt with
    | some a => s.mismatch a
    | none => s)

/-- R169: the frame in hand ends at two idle character times, and mark-seen clears. -/
def Assembly.idle (a : Assembly) : Assembly :=
  { a with markSeen := false, condition := if a.condition = .building then .full else a.condition }

/-- LINE_IDLE (R159): the idle time reaches two character times. It cannot while an attempt is under way. -/
def execLineIdle (s : State) : Host.Outcome State Fault Refusal :=
  .next (if s.listening && s.lc.attempt.isNone then
      ({ s with lc := { s.lc with
          line := .quiet, idle := max s.lc.idle 200, assembly := s.lc.assembly.idle } }).moveSlots
    else s)

/-- ATTEMPT (R164): the chosen frame's access wait is reached on a QUIET line. -/
def execAttempt (s : State) : Host.Outcome State Fault Refusal :=
  .next (if s.running && s.lc.line == .quiet && s.lc.attempt.isNone then
      match s.lc.chosen with
      | some k =>
          match s.attemptBytes k with
          | some l => s.beginAttempt k l
          | none => s
      | none => s
    else s)

/-- HEARTBEAT (R184): the heartbeat timer runs out, restarts, and a STATUS is asked for. -/
def execHeartbeat (s : State) : Host.Outcome State Fault Refusal :=
  .next (if s.lc.heartbeat.running then { s with lc := { s.lc with heartbeat := .fromZero } }.askStatus else s)

/-- ROSTER_TAKE_FRAME (R29, R172): the roster takes the frame in the delivery slot whole; the slot empties and the next
frames move on. -/
def execRosterTakeFrame (s : State) : Host.Outcome State Fault Refusal :=
  .next (match s.listening, s.lc.delivery with
    | true, some l =>
        let t := s.takeFrame l
        ({ t with lc := { t.lc with delivery := none } }).moveSlots
    | _, _ => s)

end Sys2Proof.Machine
end

