-- ==== Sys2Proof/Config.lean ====
section
/-! DEFINITION. The free values: results the spec does not state. Nothing in Lean can evaluate them. -/

namespace Sys2Proof

/-- FREE VALUE (log 20). R138 gives the window litres the range 0..99,999,999 and no rule says what a litre past that
leaves. `n` is the number of the draw. -/
opaque Config.windowOverflow (n : Nat) : Fin 100000000

/-- FREE VALUE (log 21). R46 gives an age "to the nearest 10 ms" and does not say which way an age exactly half-way
goes. -/
opaque Config.ageTieRoundsUp (age : Nat) : Bool

/-- FREE VALUE (log 9). R199 puts "the facts that the rule giving it names" into an EVENT line and does not spell them. -/
opaque Config.eventText (e : Machine.Event) : List Byte

/-- FREE VALUE (log 9). R199 gives a DATA report one line for each record or entry, and no rule spells its facts. -/
opaque Config.dataText (d : Machine.DataLine) : List Byte

end Sys2Proof
end

