-- ==== Sys2Proof/Machine/Meter.lean ====
section
/-! DEFINITION. Meter pulses, the rate window and the start limit (R139 to R144): the meanings of METER_PULSE, RATE_WINDOW
and START_LIMIT_EXPIRY. -/

namespace Sys2Proof.Machine

/-- R138: whether the next litre takes the window litres past their range, where no rule states the result (log 20). -/
def MeterRecord.windowFull (m : MeterRecord) : Bool := m.window.running && decide (litreCeiling ≤ m.windowLitres)

/-- R139, R140: one litre produced: the window, then its place, then the triggers (R7). -/
def State.litre (s : State) : State :=
  ({ s with
    mr := (s.mr.windowLitre (Config.windowOverflow s.draws).val).placeLitre
    draws := if s.mr.windowFull then s.draws + 1 else s.draws }).puEval

/-- R139: the litres a pulse produces, one after another. -/
def State.litres : Nat → State → State
  | 0, s => s
  | n + 1, s => State.litres n s.litre

/-- R139: the residual and the litres after a pulse, for a meter factor K. -/
def MeterRecord.pulse (m : MeterRecord) (k : Nat) : MeterRecord := { m with residual := (m.residual + 10) % k }

/-- METER_PULSE (R139): counted at PU from entry into JOINING onwards. -/
def execMeterPulse (s : State) : Host.Outcome State Fault Refusal :=
  .next (if s.hasRole .pu && s.listening then
      ({ s with mr := s.mr.pulse s.sl.setup.meterK }).litres ((s.mr.residual + 10) / s.sl.setup.meterK)
    else s)

/-- R98, R144: RATE_LOW after the rate cap in PUMPING. -/
def State.followCap (s : State) : State := if s.pc.phase = .pumping then s.setRateLow s.mr.cap else s

/-- R142, R143: NOFLOW handed. DESIGN CHOICE (log 75): the reason STARTLIMIT or ZEROWINDOWS is kept nowhere, since R61
gives NOFLOW no detail. -/
def State.handNoFlow (s : State) (second : Bool) : State := if second then s.handCause .noflow none else s

/-- RATE_WINDOW (R141): the window completes, is judged against the phase as it stands, and the next begins. -/
def execRateWindow (s : State) : Host.Outcome State Fault Refusal :=
  .next (if s.mr.window.running then
      ((({ s with mr := s.mr.completeWindow s.pc.phase }).followCap).handNoFlow
        (s.mr.secondEmpty s.pc.phase)).watch.puEval
    else s)

/-- START_LIMIT_EXPIRY (R142): NOFLOW is handed if the phase is still STARTING. -/
def execStartLimitExpiry (s : State) : Host.Outcome State Fault Refusal :=
  .next (if s.mr.startLimit.running then
      (({ s with mr := { s.mr with startLimit := .stopped } }).handNoFlow (s.pc.phase == Phase.starting)).watch.puEval
    else s)

end Sys2Proof.Machine
end

