-- ==== Sys2Proof/WellFormed.lean ====
section
/-! DEFINITION. Which commands can be sent: the numbers a panel line and a roster entry can carry. -/

namespace Sys2Proof

/-- R198: "a number of more than ten digits or above 4,294,967,295" is no number of a panel line. -/
def panelNumberOk (n : Nat) : Bool := decide (n ≤ 4294967295)

/-- R27: a station number is 1..15. -/
def stationOk (n : Nat) : Bool := decide (1 ≤ n) && decide (n ≤ 15)

/-- R198, R203: a tank or channel number is 1..4. -/
def fourOk (n : Nat) : Bool := decide (1 ≤ n) && decide (n ≤ 4)

/-- An optional number that, if given, passes a check (R203). -/
def optionOk (f : Nat → Bool) : Option Nat → Bool
  | none => true
  | some n => f n

/-- A command as the outside can send it. A panel command that fails this check is still taken: it is answered
REFUSED SYNTAX (R198). A limit of a station number outside 1..15 names no entry. -/
def Instr.wellFormed : Instr → Bool
  | .nominate q r => panelNumberOk q && panelNumberOk r
  | .assign t => fourOk t
  | .unassign t => fourOk t
  | .readRoster n => optionOk stationOk n
  | .readValve n => optionOk fourOk n
  | .readTank n => optionOk fourOk n
  | .silenceLimit n => stationOk n
  | .removalLimit n => stationOk n
  | .startUp | .resetInOff _ _ | .setupRead _ | .joinWindowEnd | .lineCharacter _ | .echoTimeout | .lineIdle
  | .attempt | .heartbeat | .rosterTakeFrame | .stepConfirmationTimeout | .answerTimerExpiry | .panelCharacter _
  | .start | .pause | .resume | .stop | .reset | .endack | .trip | .silence | .mask _ | .readPhase | .readTrip
  | .readAlarm | .readPump | .readScan | .readRecord | .readSetup | .readPanel | .reportSent | .esdInChange _
  | .sepInChange _ | .ackInChange _ | .cadenceToggle _ | .hhChange _ _ | .qualificationExpiry _
  | .valveSwitchChange _ _ _ | .dwellExpiry _ | .travelLimitExpiry _ | .holdOffExpiry | .pumpFbChange _
  | .feedbackTimerExpiry | .stopTimerExpiry | .meterPulse | .rateWindow | .startLimitExpiry | .scanSetStart
  | .scanReading _ | .allowanceExpiry | .relaxExpiry | .claimWaitExpiry | .settleWindowExpiry
  | .settleLimitExpiry => true

end Sys2Proof
end

