-- ==== Sys2Proof/Machine/Operands.lean ====
section
/-! DEFINITION. The operand forms of a panel line: words, numbers, class names and READ items (R197, R198, R201, R203). -/

namespace Sys2Proof.Machine

/-- A word of the manual as bytes. -/
def word (l : List Char) : List Byte := l.map fun c => BitVec.ofNat 8 c.toNat

/-- R198: "Letters are taken without regard to case." -/
def upper (b : Byte) : Byte := if 97 ≤ b.toNat ∧ b.toNat ≤ 122 then b - 32 else b

/-- R198: "words separated by one or more spaces". `cur` is the word in hand, in reverse. -/
def splitWords : List Byte → List Byte → List (List Byte)
  | cur, [] => if cur = [] then [] else [cur.reverse]
  | cur, b :: rest =>
      if b = 0x20 then (if cur = [] then splitWords [] rest else cur.reverse :: splitWords [] rest)
      else splitWords (upper b :: cur) rest

/-- Whether a byte is a decimal digit. -/
def isDigit (b : Byte) : Bool := decide (48 ≤ b.toNat) && decide (b.toNat ≤ 57)

/-- R198: a number is one to ten decimal digits, at most 4,294,967,295. -/
def parseNumber (w : List Byte) : Option Nat :=
  let n := w.foldl (fun n b => n * 10 + (b.toNat - 48)) 0
  if w ≠ [] ∧ w.all isDigit ∧ w.length ≤ 10 ∧ panelNumberOk n then some n else none

/-- The command words (R198). -/
def parseCommandWord (w : List Byte) : Option CommandWord :=
  if w = word ['N', 'O', 'M', 'I', 'N', 'A', 'T', 'E'] then some (.request .nominate)
  else if w = word ['S', 'T', 'A', 'R', 'T'] then some (.request .start)
  else if w = word ['P', 'A', 'U', 'S', 'E'] then some (.request .pause)
  else if w = word ['R', 'E', 'S', 'U', 'M', 'E'] then some (.request .resume)
  else if w = word ['S', 'T', 'O', 'P'] then some (.request .stop)
  else if w = word ['R', 'E', 'S', 'E', 'T'] then some (.request .reset)
  else if w = word ['E', 'N', 'D', 'A', 'C', 'K'] then some (.request .endack)
  else if w = word ['T', 'R', 'I', 'P'] then some .trip
  else if w = word ['S', 'I', 'L', 'E', 'N', 'C', 'E'] then some .silence
  else if w = word ['A', 'S', 'S', 'I', 'G', 'N'] then some .assign
  else if w = word ['U', 'N', 'A', 'S', 'S', 'I', 'G', 'N'] then some .unassign
  else if w = word ['R', 'E', 'A', 'D'] then some .read
  else if w = word ['M', 'A', 'S', 'K'] then some .mask
  else none

/-- The class names (R199, R201). -/
def parseClass (w : List Byte) : Option EventClass :=
  if w = word ['P', 'H', 'A', 'S', 'E'] then some .phase
  else if w = word ['T', 'R', 'I', 'P'] then some .trip
  else if w = word ['T', 'A', 'N', 'K'] then some .tank
  else if w = word ['R', 'O', 'S', 'T', 'E', 'R'] then some .roster
  else if w = word ['A', 'L', 'A', 'R', 'M'] then some .alarm
  else if w = word ['L', 'I', 'N', 'K'] then some .link
  else none

/-- Class names, all of them known. -/
def parseClasses : List (List Byte) → Option (List EventClass)
  | [] => some []
  | w :: rest =>
      match parseClass w, parseClasses rest with
      | some c, some l => some (c :: l)
      | _, _ => none

/-- The words after MASK: zero or more class names, or ALL alone (R198, R201; ALL beside names: log 38). -/
def parseMask (ws : List (List Byte)) : Option MaskWords :=
  if ws = [word ['A', 'L', 'L']] then some .all else (parseClasses ws).map .names

/-- An item that takes a number or none (R203). -/
def parseOptional (make : Option Nat → Instr) : List (List Byte) → Option Instr
  | [] => some (make none)
  | [w] => (parseNumber w).map fun n => make (some n)
  | _ => none

/-- An item that takes no number (R203). -/
def parsePlain (i : Instr) : List (List Byte) → Option Instr
  | [] => some i
  | _ => none

/-- The words after READ (R203). -/
def parseRead : List (List Byte) → Option Instr
  | [] => none
  | w :: rest =>
      if w = word ['P', 'H', 'A', 'S', 'E'] then parsePlain .readPhase rest
      else if w = word ['R', 'O', 'S', 'T', 'E', 'R'] then parseOptional .readRoster rest
      else if w = word ['T', 'R', 'I', 'P'] then parsePlain .readTrip rest
      else if w = word ['A', 'L', 'A', 'R', 'M'] then parsePlain .readAlarm rest
      else if w = word ['V', 'A', 'L', 'V', 'E'] then parseOptional .readValve rest
      else if w = word ['P', 'U', 'M', 'P'] then parsePlain .readPump rest
      else if w = word ['S', 'C', 'A', 'N'] then parsePlain .readScan rest
      else if w = word ['T', 'A', 'N', 'K'] then parseOptional .readTank rest
      else if w = word ['R', 'E', 'C', 'O', 'R', 'D'] then parsePlain .readRecord rest
      else if w = word ['S', 'E', 'T', 'U', 'P'] then parsePlain .readSetup rest
      else if w = word ['P', 'A', 'N', 'E', 'L'] then parsePlain .readPanel rest
      else none

/-- The words after a command word, as the row of spec/opcode_table.json they stand for (R198). -/
def parseForm (c : CommandWord) (ws : List (List Byte)) : Option Instr :=
  match c, ws with
  | .request .nominate, [q, r] =>
      match parseNumber q, parseNumber r with
      | some q, some r => some (.nominate q r)
      | _, _ => none
  | .request .start, [] => some .start
  | .request .pause, [] => some .pause
  | .request .resume, [] => some .resume
  | .request .stop, [] => some .stop
  | .request .reset, [] => some .reset
  | .request .endack, [] => some .endack
  | .trip, [] => some .trip
  | .silence, [] => some .silence
  | .assign, [t] => (parseNumber t).map .assign
  | .unassign, [t] => (parseNumber t).map .unassign
  | .read, ws => parseRead ws
  | .mask, ws => (parseMask ws).map .mask
  | _, _ => none

/-- A line as PP reads it (R197, R198). -/
inductive PanelLine
  /-- empty, or only spaces: no report -/
  | blank
  /-- a line with the overlong mark, and its command word when the first word is one -/
  | overlong (w : Option CommandWord)
  /-- the command word, when the first word is one, of a line that does not fit -/
  | bad (w : Option CommandWord)
  | command (i : Instr)
  deriving DecidableEq, Repr

/-- R197, R198: how a line of the buffer is read. The overlong mark comes first: a buffer that holds only spaces and
has overflowed is answered LENGTH (log 42). -/
def parseLine (buffer : List Byte) (overlong : Bool) : PanelLine :=
  match splitWords [] buffer with
  | [] => if overlong then .overlong none else .blank
  | w :: rest =>
      if overlong then .overlong (parseCommandWord w)
      else
        match parseCommandWord w with
        | none => .bad none
        | some c =>
            match parseForm c rest with
            | none => .bad (some c)
            | some i => if i.wellFormed then .command i else .bad (some c)

end Sys2Proof.Machine
end

