-- ==== Sys2Proof/Machine/Lines.lean ====
section
/-! DEFINITION. How a panel line is handled: the room it needs (R202), the answer it gets (R198, R199), and the meanings of
TRIP, SILENCE, ASSIGN, UNASSIGN, MASK and REPORT_SENT. -/

namespace Sys2Proof.Machine

/-! ## Room (R202) -/

/-- R202: the ANSWER and DATA reports in the queue, and one if an EVENT is being sent. -/
def PanelPort.owed (p : PanelPort) : Nat :=
  (p.queue.filter fun q => !q.isEvent).length + (if p.queue.head?.any Queued.isEvent then 1 else 0)

/-- R202: whether a line is handled. -/
def State.lineFits (s : State) : Bool :=
  decide (s.pp.owed + (if s.rh.outstanding.isSome then 1 else 0) + 1 ≤ queueLimit)

/-- R202: a line discarded without effect. -/
def State.discardLine (s : State) : State := { s with pp := { s.pp with lost := true } }

/-- R202: a line handled where there is room for its report, discarded where there is none. -/
def State.handleLine (s : State) (f : State → State) : State := if s.lineFits then f s else s.discardLine

/-! ## Answers (R199) -/

/-- An ANSWER report of a command that is not a request made over the link. -/
def State.answer (s : State) (w : CommandWord) (o : PanelOutcome) (name : AnswerName) : State :=
  s.report (.answer (some w) none o name)

/-- ANSWER TAKEN. -/
def State.answerTaken (s : State) (w : CommandWord) : State := s.answer w (.decided .taken) .none

/-- ANSWER REFUSED with a reason. -/
def State.refuse (s : State) (w : CommandWord) (r : RefuseReason) : State := s.answer w .refused (.reason r)

/-! ## TRIP and SILENCE -/

/-- R198: TRIP hands MANUAL, already qualified, at a RUNNING station. -/
def State.lineTrip (s : State) : State :=
  if s.running then (s.handCause .manual none).answerTaken .trip else s.refuse .trip .state

/-- R75, R78: an acknowledge on every entry of the alarm set. -/
def State.acknowledge (s : State) : State :=
  { s with an := s.an.drive (alarmAcknowledge s.an.set).1 }.emitAll (alarmAcknowledge s.an.set).2

/-- R78, R198: SILENCE, in every station state but STARTUP. -/
def State.lineSilence (s : State) : State :=
  if s.pc.station = .startup then s.refuse .silence .state else s.acknowledge.answerTaken .silence

/-! ## ASSIGN and UNASSIGN -/

/-- R119, R120: the checks ASSIGN and UNASSIGN share, and the first reason that fails. The station state has been checked
before the command is handed on (R198). -/
def State.tankCommandCheck (s : State) (n : Ch) : Option RefuseReason :=
  if !s.hasRole .tw then some .role
  else if s.pc.phase ≠ .idle ∧ s.pc.phase ≠ .lineup then some .phase
  else if !s.tankUsed n then some .tank
  else if (s.ow.tanks.get n).state ≠ .excluded ∧ (s.ow.tanks.get n).state ≠ .assigned then some .tank
  else none

/-- R119: the further checks of ASSIGN. -/
def State.assignCheck (s : State) (n : Ch) : Option RefuseReason :=
  match s.tankCommandCheck n with
  | some r => some r
  | none =>
      if (s.vp.channels.get n).state ≠ .shut then some .valve
      else if (s.ow.tanks.get n).levelValid
          && (s.ow.tanks.get n).level.any fun l => decide (l < (s.sl.setup.tanks.get n).topping) then none
      else some .level

/-- R119, R120, R137: the tank takes a state. DESIGN CHOICE (log 76): the command taken gives one TANK event, which names
the tank and its state, whether or not the state changes. -/
def State.chooseTank (s : State) (n : Ch) (st : TankState) : State :=
  if (s.ow.tanks.get n).state = st then s.emit (.tankState n st) else (s.setTank n st).watch

/-- R119, R120, R198: ASSIGN or UNASSIGN of a number, with its check and the state it gives. -/
def State.tankLine (s : State) (w : CommandWord) (t : Nat) (check : Ch → Option RefuseReason) (st : TankState) :
    State :=
  match Ch.ofNum t with
  | none => s.refuse w .syntaxError
  | some n =>
      if s.running then
        (match check n with
         | some r => s.refuse w r
         | none => (s.chooseTank n st).answerTaken w)
      else s.refuse w .state

/-- ASSIGN (R119). -/
def State.lineAssign (s : State) (t : Nat) : State := s.tankLine .assign t s.assignCheck .assigned

/-- UNASSIGN (R120). -/
def State.lineUnassign (s : State) (t : Nat) : State := s.tankLine .unassign t s.tankCommandCheck .excluded

/-! ## MASK -/

/-- R201: the mask that the words after MASK make. -/
def ClassMask.ofWords : MaskWords → ClassMask
  | .all => ⟨true, true, true, true, true, true⟩
  | .names l =>
      ⟨l.contains .phase, l.contains .trip, l.contains .tank, l.contains .roster, l.contains .alarm, l.contains .link⟩

/-- MASK (R201), in every station state. -/
def State.lineMask (s : State) (w : MaskWords) : State :=
  { s with pp := { s.pp with mask := .ofWords w } }.answerTaken .mask

/-! ## The meanings -/

/-- TRIP (R198). -/
def execTrip (s : State) : Host.Outcome State Fault Refusal := .next (s.handleLine State.lineTrip)

/-- SILENCE (R78). -/
def execSilence (s : State) : Host.Outcome State Fault Refusal := .next (s.handleLine State.lineSilence)

/-- ASSIGN t (R119). -/
def execAssign (t : Nat) (s : State) : Host.Outcome State Fault Refusal :=
  .next (s.handleLine fun u => u.lineAssign t)

/-- UNASSIGN t (R120). -/
def execUnassign (t : Nat) (s : State) : Host.Outcome State Fault Refusal :=
  .next (s.handleLine fun u => u.lineUnassign t)

/-- MASK (R201). -/
def execMask (w : MaskWords) (s : State) : Host.Outcome State Fault Refusal :=
  .next (s.handleLine fun u => u.lineMask w)

/-- REPORT_SENT (R202): the last character of the oldest report has been sent. With an empty queue nothing is being sent
(log 5). -/
def execReportSent (s : State) : Host.Outcome State Fault Refusal :=
  .next (if s.pp.queue = [] then s else { s with pp := s.pp.finish })

end Sys2Proof.Machine
end

