-- ==== Sys2Proof/Machine/Readout.lean ====
section
/-! DEFINITION. The DATA reports of READ (R203), one item each, and the meanings of the eleven READ commands. -/

namespace Sys2Proof.Machine

/-- R46: the age to the nearest 10 ms. Half-way between two, the manual does not say which (log 21). -/
def nearestTen (age : Nat) : Nat :=
  if age % 10 < 5 then age - age % 10
  else if 5 < age % 10 then age + (10 - age % 10)
  else if Config.ageTieRoundsUp age then age + 5 else age - 5

/-- READ PHASE (R203). -/
def State.readPhase (s : State) : DataBody :=
  .phase s.pc.station s.pc.phase s.pc.transfer s.pc.gen s.pc.inHand s.rh

/-- R46: an entry as READ ROSTER n gives it, at a place in the recency order. -/
def Entry.view (e : Entry) (position : Nat) : EntryView where
  number := e.number
  role := e.role
  protected' := e.protected'
  presence := e.presence
  age := nearestTen e.age
  position := position
  last := e.last

/-- READ ROSTER n (R46). -/
def State.readEntry (s : State) (n : Nat) : DataBody :=
  match s.sr.find n with
  | some e => .rosterEntry (e.view (s.sr.entries.findIdx (fun x => x.number == n) + 1))
  | none => .notInRoster

/-- READ ROSTER without a number (R46). DESIGN CHOICE (log 49): the list's ages are in ms, since R46 rounds the age of the
single entry alone. -/
def State.readTable (s : State) : DataBody :=
  .rosterList (s.sr.entries.map fun e => ⟨e.number, e.role, e.presence, e.age⟩)

/-- R80: the qualification timers, by name. -/
def TripUnit.timers (t : TripUnit) : List (QualId × Timer) :=
  (Ch.all.map QualId.overfill ++ [QualId.surge, .leak]).map fun q => (q, t.qualTimer q)

/-- R80: the running qualification timers with their elapsed times. -/
def TripUnit.runningTimers (t : TripUnit) : List (QualId × Nat) :=
  t.timers.filterMap fun p => if p.2.running then some (p.1, p.2.elapsed) else none

/-- READ TRIP (R80). -/
def State.readTrip (s : State) : DataBody :=
  .trip s.tu.firstOut (s.tu.latched.map fun l => (l, s.causeActive l.cause)) s.tu.cause s.tu.mask s.tu.runningTimers

/-- READ ALARM (R80, R77). -/
def State.readAlarm (s : State) : DataBody := .alarm s.an.set s.tu.firstOut s.an.horn.cadence s.an.beacon.cadence

/-- Whether an item's block holds something for the station's role (R203, log 22): the roles given, or no role yet. -/
def State.itemHeld (s : State) (roles : List Role) : Bool :=
  match s.role with
  | none => true
  | some r => roles.contains r

/-- READ VALVE (R93), of some channels. -/
def State.readValve (s : State) (l : List Ch) : DataBody :=
  if s.itemHeld [.bv, .sv, .tw] then
    .valve (l.map fun n => (n, s.vp.channels.get n)) s.vp.holdOff
      (if s.vp.holdOff = .holding then some (1000 * s.sl.setup.holdOff - s.vp.holdOffTimer.elapsed) else none)
  else .nothing

/-- READ PUMP (R99). -/
def State.readPump (s : State) : DataBody :=
  if s.itemHeld [.pu] then .pump s.vp.pump s.vp.pumpRun s.vp.rateLow s.inputs.pumpFb s.vp.feedback s.vp.stopTimer
  else .nothing

/-- R116: the leak figures SV reads. -/
def State.leakFigures (s : State) : Nat × Option Nat × Option Int × Bool :=
  (s.sl.setup.leakBand, s.bvPressure,
    match s.bvPressure, s.pressure with
    | some bv, some own => some ((bv : Int) - own)
    | _, _ => none,
    s.hw.leakCond)

/-- READ SCAN (R116). -/
def State.readScan (s : State) : DataBody :=
  if s.itemHeld [.pu, .bv, .sv, .tw] then
    .scan (Ch.all.map fun n => (n, s.hw.chans.get n, (s.hw.chans.get n).valid.isSome))
      (if s.pressureRole then
         some { surgeThreshold := s.hw.surgeThreshold, hardLimit := s.hw.hardLimit, settleLevel := s.hw.settleLevel,
                hardCount := s.hw.hardCount, excursion := s.hw.excursion, allowance := s.hw.allowance,
                relax := s.hw.relax, aboveThreshold := s.aboveThreshold, surgeCond := s.hw.surgeCond,
                settleFact := if s.hasRole .pu then some s.settleFact else none,
                leak := if s.hasRole .sv then some s.leakFigures else none }
       else none)
  else .nothing

/-- R137: a tank's record as READ TANK n gives it; the reference level only while SETTLING. -/
def Tank.view (t : Tank) (n : Ch) (setup : TankSetup) (valve : ValveState) (settling : Bool) : TankView where
  number := n
  state := t.state
  takingPart := t.takingPart
  level := t.level
  levelValid := t.levelValid
  startLevel := t.startLevel
  setup := setup
  highAlarm := t.highAlarm
  overfill := t.overfill
  valve := valve
  reference := if settling then some t.reference else none

/-- READ TANK n (R137). -/
def State.readTank (s : State) (n : Ch) : DataBody :=
  if s.itemHeld [.tw] then
    .tank ((s.ow.tanks.get n).view n (s.sl.setup.tanks.get n) (s.vp.channels.get n).state
      (s.ow.receipt == .settling))
  else .nothing

/-- READ TANK without a number (R137). -/
def State.readTanks (s : State) : DataBody :=
  if s.itemHeld [.tw] then
    .tankTable (s.tanksUsed.map fun n => (n, (s.ow.tanks.get n).state, (s.ow.tanks.get n).level)) s.ow.receipt
      s.ow.received s.ow.claim s.ow.settleWindow s.ow.settleLimit
  else .nothing

/-- R157: the record as READ RECORD gives it; the after-flow at PU alone. -/
def Record.view (r : Record) (pu : Bool) : RecordView where
  state := r.state
  transfer := r.transfer
  nomination := r.nomination
  maxRate := r.maxRate
  delivered := r.delivered
  received := r.received
  afterFlow := if pu then some r.afterFlow else none
  externalEnd := r.externalEnd
  internalEnd := r.internalEnd
  endKind := r.endKind
  tripMark := r.tripMark
  sampleKind := r.sampleKind
  outcome := r.outcome

/-- READ RECORD (R157): the meter at PU. -/
def State.readRecord (s : State) : DataBody :=
  .record (s.mr.record.view (s.hasRole .pu))
    (if s.hasRole .pu then
       some { k := s.sl.setup.meterK, residual := s.mr.residual, stray := s.mr.stray,
              windowLitres := s.mr.windowLitres, window := s.mr.window, lastRate := s.mr.lastRate,
              startFlow := s.mr.startFlow, startLimit := s.mr.startLimit, zeroCount := s.mr.zeroCount,
              cap := s.mr.cap, belowCount := s.mr.belowCount, capClearLevel := s.mr.record.capClearLevel }
     else none)

/-- READ SETUP (R196). -/
def State.readSetup (s : State) : DataBody :=
  .setup s.sl.sn s.sl.rl s.sl.step s.sl.fault
    (if s.sl.step = .frozen then some s.sl.setup else none)
    (if s.sl.step = .rejected then s.sl.image else none)

/-- The classes of a mask, in the order of R200. -/
def ClassMask.classes (m : ClassMask) : List EventClass :=
  [EventClass.phase, .trip, .tank, .roster, .alarm, .link].filter m.has

/-- READ PANEL (R203). -/
def State.readPanel (s : State) : DataBody := .panel s.pp.mask.classes s.pp.queue.length s.pp.lost

/-- R203: a DATA report. -/
def State.data (s : State) (d : DataBody) : State := s.report (.data d)

/-- READ ROSTER: one entry for a station number 1..15, the table for none, SYNTAX for another number (R203). -/
def State.lineReadRoster (s : State) (n : Option Nat) : State :=
  match n with
  | none => s.data s.readTable
  | some n => if stationOk n then s.data (s.readEntry n) else s.refuse .read .syntaxError

/-- READ VALVE: one channel 1..4, or all (R203). -/
def State.lineReadValve (s : State) (n : Option Nat) : State :=
  match n with
  | none => s.data (s.readValve Ch.all)
  | some n =>
      match Ch.ofNum n with
      | some c => s.data (s.readValve [c])
      | none => s.refuse .read .syntaxError

/-- READ TANK: one tank 1..4, or the table (R203). -/
def State.lineReadTank (s : State) (n : Option Nat) : State :=
  match n with
  | none => s.data s.readTanks
  | some n =>
      match Ch.ofNum n with
      | some c => s.data (s.readTank c)
      | none => s.refuse .read .syntaxError

/-! ## The meanings -/

/-- READ PHASE (R203). -/
def execReadPhase (s : State) : Host.Outcome State Fault Refusal := .next (s.handleLine fun u => u.data u.readPhase)

/-- READ ROSTER (R46). -/
def execReadRoster (n : Option Nat) (s : State) : Host.Outcome State Fault Refusal :=
  .next (s.handleLine fun u => u.lineReadRoster n)

/-- READ TRIP (R80). -/
def execReadTrip (s : State) : Host.Outcome State Fault Refusal := .next (s.handleLine fun u => u.data u.readTrip)

/-- READ ALARM (R80). -/
def execReadAlarm (s : State) : Host.Outcome State Fault Refusal := .next (s.handleLine fun u => u.data u.readAlarm)

/-- READ VALVE (R93). -/
def execReadValve (n : Option Nat) (s : State) : Host.Outcome State Fault Refusal :=
  .next (s.handleLine fun u => u.lineReadValve n)

/-- READ PUMP (R99). -/
def execReadPump (s : State) : Host.Outcome State Fault Refusal := .next (s.handleLine fun u => u.data u.readPump)

/-- READ SCAN (R116). -/
def execReadScan (s : State) : Host.Outcome State Fault Refusal := .next (s.handleLine fun u => u.data u.readScan)

/-- READ TANK (R137). -/
def execReadTank (n : Option Nat) (s : State) : Host.Outcome State Fault Refusal :=
  .next (s.handleLine fun u => u.lineReadTank n)

/-- READ RECORD (R157). -/
def execReadRecord (s : State) : Host.Outcome State Fault Refusal :=
  .next (s.handleLine fun u => u.data u.readRecord)

/-- READ SETUP (R196). -/
def execReadSetup (s : State) : Host.Outcome State Fault Refusal := .next (s.handleLine fun u => u.data u.readSetup)

/-- READ PANEL (R203). -/
def execReadPanel (s : State) : Host.Outcome State Fault Refusal := .next (s.handleLine fun u => u.data u.readPanel)

end Sys2Proof.Machine
end

