-- ==== Sys2Proof/Machine/Requests.lean ====
section
/-! DEFINITION. The seven request commands of the panel (R47 to R57), and the meanings of ANSWER_TIMER_EXPIRY and
STEP_CONFIRMATION_TIMEOUT. -/

namespace Sys2Proof.Machine

/-- R49: the request made: outstanding, its number taken, its REQUEST frame placed. -/
def State.makeRequest (s : State) (k : ReqKind) (q r : Nat) : State :=
  { s with
    rh := ⟨s.rh.nextNumber + 1, some ⟨k, s.rh.nextNumber, q, r, .fromZero⟩⟩
    lc := match s.header with
      | some h => s.lc.hold .request (.request h k s.rh.nextNumber q r)
      | none => s.lc }

/-- R49: a request command at a RUNNING station whose role is not PU. -/
def State.requestOut (s : State) (k : ReqKind) (q r : Nat) : State :=
  if s.rh.outstanding.isSome then s.answer (.request k) .pending .none
  else if !s.puLive then s.answer (.request k) .nothere .none
  else s.makeRequest k q r

/-- R57: a request command at PU, decided at once; the effects come before the report (log 28). -/
def State.requestHere (s : State) (k : ReqKind) (q r : Nat) : State :=
  (s.carryOut (some k) q r).answer (.request k) (.decided (s.judgeRequest (some k) q r).1) (s.judgeRequest (some k) q r).2

/-- R49, R57: a request command handed to the Request Handler. -/
def State.requestLine (s : State) (k : ReqKind) (q r : Nat) : State :=
  if !s.running then s.answer (.request k) .refused .none
  else if s.hasRole .pu then s.requestHere k q r
  else s.requestOut k q r

/-- NOMINATE with its numbers; a number no line can carry is answered SYNTAX (R198). -/
def State.lineNominate (s : State) (q r : Nat) : State :=
  if panelNumberOk q && panelNumberOk r then s.requestLine .nominate q r else s.refuse (.request .nominate) .syntaxError

/-- NOMINATE q r (R49, R57). -/
def execNominate (q r : Nat) (s : State) : Host.Outcome State Fault Refusal :=
  .next (s.handleLine fun u => u.lineNominate q r)

/-- START (R49, R57). -/
def execStart (s : State) : Host.Outcome State Fault Refusal := .next (s.handleLine fun u => u.requestLine .start 0 0)

/-- PAUSE (R49, R57). -/
def execPause (s : State) : Host.Outcome State Fault Refusal := .next (s.handleLine fun u => u.requestLine .pause 0 0)

/-- RESUME (R49, R57). -/
def execResume (s : State) : Host.Outcome State Fault Refusal :=
  .next (s.handleLine fun u => u.requestLine .resume 0 0)

/-- STOP (R49, R57). -/
def execStop (s : State) : Host.Outcome State Fault Refusal := .next (s.handleLine fun u => u.requestLine .stop 0 0)

/-- RESET (R49, R57). -/
def execReset (s : State) : Host.Outcome State Fault Refusal := .next (s.handleLine fun u => u.requestLine .reset 0 0)

/-- ENDACK (R49, R57). -/
def execEndack (s : State) : Host.Outcome State Fault Refusal :=
  .next (s.handleLine fun u => u.requestLine .endack 0 0)

/-- ANSWER_TIMER_EXPIRY (R50): the request ends with NOANSWER, and its REQUEST is withdrawn. -/
def execAnswerTimerExpiry (s : State) : Host.Outcome State Fault Refusal :=
  .next (if s.rh.outstanding.isSome then ({ s with lc := s.lc.withdraw .request }).endNoAnswer else s)

/-- STEP_CONFIRMATION_TIMEOUT (R10): the step in hand is cleared and PHASE is handed, with the TRIP event of R80. DESIGN
CHOICE (log 58): that event stands before the latch of PHASE and its events. -/
def execStepConfirmationTimeout (s : State) : Host.Outcome State Fault Refusal :=
  .next (match s.running, s.pc.inHand with
    | true, some h =>
        ((({ s with pc := { s.pc with inHand := none } }).emit (.stepTimeout h.target)).handCause .phase none).puEval
    | _, _ => s)

end Sys2Proof.Machine
end

