-- ==== Sys2Proof/Machine/Panel.lean ====
section
/-! DEFINITION. Characters on PN_RX (R197) and the line an end of line hands on (R198): the meaning of PANEL_CHARACTER. -/

namespace Sys2Proof.Machine

/-- R198: a command as it is handed on. Rows that are no panel command are never parsed from a line, and do nothing
here. -/
def State.runLine (s : State) : Instr → State
  | .nominate q r => s.lineNominate q r
  | .start => s.requestLine .start 0 0
  | .pause => s.requestLine .pause 0 0
  | .resume => s.requestLine .resume 0 0
  | .stop => s.requestLine .stop 0 0
  | .reset => s.requestLine .reset 0 0
  | .endack => s.requestLine .endack 0 0
  | .trip => s.lineTrip
  | .silence => s.lineSilence
  | .assign t => s.lineAssign t
  | .unassign t => s.lineUnassign t
  | .mask w => s.lineMask w
  | .readPhase => s.data s.readPhase
  | .readRoster n => s.lineReadRoster n
  | .readTrip => s.data s.readTrip
  | .readAlarm => s.data s.readAlarm
  | .readValve n => s.lineReadValve n
  | .readPump => s.data s.readPump
  | .readScan => s.data s.readScan
  | .readTank n => s.lineReadTank n
  | .readRecord => s.data s.readRecord
  | .readSetup => s.data s.readSetup
  | .readPanel => s.data s.readPanel
  | _ => s

/-- R197, R198: a parsed line handled. A blank line needs no room and gives no report. -/
def State.runParsed (s : State) : PanelLine → State
  | .blank => s
  | .overlong w => s.handleLine fun u => u.report (.answer w none .refused (.reason .length))
  | .bad w => s.handleLine fun u => u.report (.answer w none .refused (.reason .syntaxError))
  | .command i => s.handleLine fun u => u.runLine i

/-- R197: the characters a line can hold. -/
def lineLimit : Nat := 40

/-- R197: a printable character. -/
def PanelPort.type (p : PanelPort) (b : Byte) : PanelPort :=
  if p.buffer.length < lineLimit then { p with buffer := p.buffer ++ [b] } else { p with overlong := true }

/-- R197: the buffer emptied at an end of line. -/
def PanelPort.clearLine (p : PanelPort) : PanelPort := { p with buffer := [], overlong := false }

/-- R197: a character received with its stop bit right. -/
def State.takeChar (s : State) (b : Byte) : State :=
  if b = 0x0D then ({ s with pp := s.pp.clearLine }).runParsed (parseLine s.pp.buffer s.pp.overlong)
  else if b = 0x08 then { s with pp := { s.pp with buffer := s.pp.buffer.dropLast } }
  else if 0x20 ≤ b.toNat ∧ b.toNat ≤ 0x7E then { s with pp := s.pp.type b }
  else s

/-- PANEL_CHARACTER (R197): a bad character is disregarded. -/
def execPanelCharacter (c : LineChar) (s : State) : Host.Outcome State Fault Refusal :=
  .next (match c with
    | .good b => s.takeChar b
    | .bad => s)

end Sys2Proof.Machine
end

