-- ==== Sys2Proof/Machine/Setup.lean ====
section
/-! DEFINITION. The serial read of the setup memory (R188), and the setup image: its checks (R190) and the setup they
freeze (R189, R192). -/

namespace Sys2Proof.Machine

/-! ## The serial read (R188) -/

/-- R188: the read command. -/
def smReadCommand : Byte := 0xB1

/-- R188: the start address. -/
def smStartAddress : Nat := 0x0000

/-- R188: the bytes that SL sends: the read command and the start address, high byte first. -/
def smSentBytes : List Byte := smReadCommand :: bytes2 smStartAddress

/-- R188: the eight levels of a byte, most significant bit first. -/
def bitLevels (b : Byte) : List Bool :=
  [b.getLsbD 7, b.getLsbD 6, b.getLsbD 5, b.getLsbD 4, b.getLsbD 3, b.getLsbD 2, b.getLsbD 1, b.getLsbD 0]

/-- R188: what SM_DIO carries while SM_SEL is on, one item a period of SM_CLK: the bytes sent, and then, the pin turned
round, the bytes of the memory, address 0 first. -/
def serialRead (memory : List Byte) : List SmPeriod :=
  (smSentBytes.flatMap bitLevels).map .sent ++ (memory.flatMap bitLevels).map .taken

/-- R188: SM_SEL is on through the READ step and off at its end, and SM_CLK runs exactly while it is on. -/
def State.smSel (s : State) : Bool := s.sl.step == .read

/-- R188: the read completes: its periods have passed on SM_DIO, and the bytes taken are kept as the image. -/
def State.takeImage (s : State) (image : Image) : State :=
  { s with sl := { s.sl with serial := serialRead image.toList, image := some image } }

/-! ## The checks (R190) -/

/-- A field of the image: its offset, its width in bytes and its range (R189). -/
structure Field where
  offset : Nat
  width : Nat
  low : Nat
  high : Nat
  deriving DecidableEq, Repr

/-- Whether the image holds a value in range for a field. -/
def Field.ok (f : Field) (l : List Byte) : Bool :=
  decide (f.low ≤ numAt l f.offset f.width) && decide (numAt l f.offset f.width ≤ f.high)

/-- A field if the role uses it. -/
def Field.when (f : Field) (used : Bool) : List Field := if used then [f] else []

/-- R190: the fields a role uses, in order of offset; `k` is the tank count. -/
def usedFields (r : Role) (k : Nat) : List Field :=
  [⟨0, 1, 0, 1⟩, ⟨1, 1, 0, 3⟩]
    ++ (List.range 8).map (fun i => Field.mk (2 + i) 1 0 15)
    ++ (Field.mk 12 1 2 30).when (r == .bv || r == .sv || r == .tw)
    ++ (Field.mk 13 1 30 120).when (r == .pu)
    ++ (Field.mk 14 2 200 2500).when r.pressure
    ++ (Field.mk 16 1 1 25).when r.pressure
    ++ (Field.mk 17 1 0 3).when r.pressure
    ++ (Field.mk 18 1 0 3).when r.pressure
    ++ (Field.mk 19 1 0 3).when r.pressure
    ++ (Field.mk 20 2 50 500).when (r == .sv)
    ++ (Field.mk 22 1 0 3).when (r == .sv)
    ++ (List.range (if r = .tw then k else if r = .bv ∨ r = .sv then 1 else 0)).map
         (fun i => Field.mk (23 + i) 1 1 25)
    ++ (List.range (if r = .tw then k else if r.pressure then 1 else 0)).map
         (fun i => Field.mk (27 + 2 * i) 2 1 65535)
    ++ (Field.mk 35 2 1 32767).when (r == .pu)
    ++ (Field.mk 41 3 0 999999).when (r == .pu)

/-- The offset of the record of the tank with index `i` (T1 has index 0) (R189). -/
def tankOffset (i : Nat) : Nat := 44 + 10 * i

/-- R190, check 4: the offset of the first level out of range or out of order in one tank's record, or of its litres per
mm; none if the record passes. DESIGN CHOICE (log 77): of two levels that do not increase, the later is the one out of
order. -/
def tankFailure (l : List Byte) (i : Nat) : Option Nat :=
  let o := tankOffset i
  if 30000 < numAt l o 2 then some o
  else if 30000 < numAt l (o + 2) 2 ∨ numAt l (o + 2) 2 ≤ numAt l o 2 then some (o + 2)
  else if 30000 < numAt l (o + 4) 2 ∨ numAt l (o + 4) 2 ≤ numAt l (o + 2) 2 then some (o + 4)
  else if 30000 < numAt l (o + 6) 2 ∨ numAt l (o + 6) 2 ≤ numAt l (o + 4) 2 then some (o + 6)
  else if numAt l (o + 8) 2 < 1 ∨ 9999 < numAt l (o + 8) 2 then some (o + 8)
  else none

/-- R190: the first check that fails and the offset it names; none when every check passes. A list field names the
offset of the element that fails (log 19). -/
def setupFailure (l : List Byte) (r : Role) : Option (Nat × Nat) :=
  let k := byteAt l 10
  if (frameCheck (l.take 84)).toNat ≠ numAt l 84 2 then some (1, 84)
  else if r = .tw ∧ (k < 1 ∨ 4 < k) then some (2, 10)
  else
    match (usedFields r k).find? fun f => !f.ok l with
    | some f => some (3, f.offset)
    | none =>
        match (List.range (if r = .tw then k else 0)).findSome? (tankFailure l) with
        | some o => some (4, o)
        | none => none

/-- A code field's value: the entry of a table (R189). -/
def coded (table : List Nat) (code : Nat) : Nat := table.getD code 0

/-- A value the role uses, 0 where it does not (log 3). -/
def usedOr (used : Bool) (n : Nat) : Nat := if used then n else 0

/-- One tank's record (R189). -/
def readTankSetup (l : List Byte) (i : Nat) (used : Bool) : TankSetup where
  topping := usedOr used (numAt l (tankOffset i) 2)
  target := usedOr used (numAt l (tankOffset i + 2) 2)
  high := usedOr used (numAt l (tankOffset i + 4) 2)
  highHigh := usedOr used (numAt l (tankOffset i + 6) 2)
  litresPerMm := usedOr used (numAt l (tankOffset i + 8) 2)

/-- R189, R192: the frozen setup of a role. -/
def freezeSetup (l : List Byte) (r : Role) : Setup :=
  let k := usedOr (r == .tw) (byteAt l 10)
  let channels := if r = .tw then k else if r = .bv ∨ r = .sv then 1 else 0
  let spans := if r = .tw then k else if r.pressure then 1 else 0
  { fastLink := byteAt l 0 == 1
    silence := coded [500, 1000, 2000, 4000] (byteAt l 1)
    lineup := (List.range 8).map fun i => byteAt l (2 + i)
    tankCount := k
    mask := ⟨(byteAt l 11).testBit 0, (byteAt l 11).testBit 1, (byteAt l 11).testBit 2, (byteAt l 11).testBit 3⟩
    holdOff := usedOr (r == .bv || r == .sv || r == .tw) (byteAt l 12)
    startLimit := usedOr (r == .pu) (byteAt l 13)
    rated := usedOr r.pressure (numAt l 14 2)
    surgeCode := usedOr r.pressure (byteAt l 16)
    surgeQual := usedOr r.pressure (coded [250, 500, 1000, 2000] (byteAt l 17))
    allowance := usedOr r.pressure (coded [1, 2, 5, 10] (byteAt l 18))
    relax := usedOr r.pressure (coded [20, 40, 80, 160] (byteAt l 19))
    leakBand := usedOr (r == .sv) (numAt l 20 2)
    leakQual := usedOr (r == .sv) (coded [2000, 5000, 10000, 20000] (byteAt l 22))
    travel := .ofIndex fun i => usedOr (decide (i < channels)) (10 * byteAt l (23 + i))
    span := .ofIndex fun i => usedOr (decide (i < spans)) (numAt l (27 + 2 * i) 2)
    meterK := usedOr (r == .pu) (numAt l 35 2)
    quantityTol := numAt l 37 2
    mismatchTol := numAt l 39 2
    toppingMargin := usedOr (r == .pu) (numAt l 41 3)
    tanks := .ofIndex fun i => readTankSetup l i (decide (i < k))
    checkWord := BitVec.ofNat 16 (numAt l 84 2) }

/-! ## What the blocks take from it -/

/-- R106: the surge threshold. -/
def Setup.surgeThreshold (c : Setup) : Nat := c.rated * (105 + 5 * c.surgeCode) / 100

/-- R106: the hard limit. -/
def Setup.hardLimit (c : Setup) : Nat := c.surgeThreshold * 110 / 100

/-- R106: the settle level. -/
def Setup.settleLevel (c : Setup) : Nat := c.rated * 10 / 100

/-- R28: the station numbers protected: those of the line-up list, each once, without 0 and without the own number. -/
def protectedNumbers (own : Nat) : List Nat → List Nat
  | [] => []
  | n :: rest =>
      if n = 0 ∨ n = own then protectedNumbers own rest
      else n :: (protectedNumbers own rest).filter fun m => m != n

/-- R28: a protected entry as it is created. -/
def Entry.guard (n : Nat) : Entry := ⟨n, none, true, .absent, 0, none⟩

end Sys2Proof.Machine
end

