-- ==== Sys2Proof/Machine/Startup.lean ====
section
/-! DEFINITION. Start-up, straps, the setup read, joining and the entry into RUNNING (R186 to R195, R1 to R3): the meanings
of START_UP, RESET_IN_OFF, SETUP_READ and JOIN_WINDOW_END. -/

namespace Sys2Proof.Machine

/-! ## START_UP -/

/-- R81, R82: a channel at start-up: STOPPED, then the state its switches give. -/
def Channel.startFrom (os cs : Bool) : Channel := Channel.start.follow os cs

/-- R81, R90, R94: VP at start-up, from the levels of the valve switches. -/
def ValvePump.startFrom (i : Inputs) : ValvePump :=
  { ValvePump.start with channels :=
      ⟨.startFrom i.openSw.n1 i.shutSw.n1, .startFrom i.openSw.n2 i.shutSw.n2,
       .startFrom i.openSw.n3 i.shutSw.n3, .startFrom i.openSw.n4 i.shutSw.n4⟩ }

/-- START_UP (R186): every block at its start-up values; the inputs keep their levels, RESET_IN being on. DESIGN CHOICE
(log 50): the report queue is left empty (R202), with no TRIP event for the trip record that start-up clears (R60, R71),
no PHASE event for the transfer record it clears (R155), no TANK event for a claim it ends (R129, R132), and none of any
other block's return to its start-up values. -/
def execStartUp (s : State) : Host.Outcome State Fault Refusal :=
  .next { State.reset with
    inputs := { s.inputs with resetIn := true }
    vp := .startFrom s.inputs
    pending := s.pending
    draws := s.draws }

/-! ## RESET_IN_OFF -/

/-- R187: SL ends in REJECTED. -/
def State.reject (s : State) (f : FaultRecord) : State :=
  { s with sl := { s.sl with step := .rejected } }.enterOffline f

/-- R94 ("At every other role it stays in STOPPED from start-up"): the pump state once the role is known (log 41). -/
def ValvePump.forRole (v : ValvePump) (r : Role) : ValvePump :=
  if r = .pu then v else { v with pump := .stopped }

/-- R187: the STRAPS step. With valid straps READ begins, and SM_SEL goes on (R188). -/
def State.readStraps (s : State) (sn : BitVec 4) (rl : BitVec 3) : State :=
  if sn = 0 then s.reject (.strap true 0)
  else
    match Role.ofCode rl.toNat with
    | none => s.reject (.strap false rl.toNat)
    | some r => { s with sl := { s.sl with step := .read, sn := sn, rl := rl }, vp := s.vp.forRole r }

/-- RESET_IN_OFF (R186): the sequence leaves HOLD and reads the straps. In any other step RESET_IN is off already
(log 5). -/
def execResetInOff (sn : BitVec 4) (rl : BitVec 3) (s : State) : Host.Outcome State Fault Refusal :=
  .next (if s.sl.step = .hold then
      ({ s with inputs := { s.inputs with resetIn := false } }).readStraps sn rl
    else s)

/-! ## SETUP_READ -/

/-- R100: a scan channel at JOINING entry. -/
def ScanChannel.enable (c : ScanChannel) (on : Bool) (span : Nat) : ScanChannel :=
  if on then { c with enabled := true, span := span } else c

/-- R100, R101, R106: HW at JOINING entry: enables, spans, levels, and the first scan set. -/
def HoseWatch.join (h : HoseWatch) (r : Role) (c : Setup) : HoseWatch :=
  ({ h with
    chans :=
      ⟨h.chans.n1.enable (scanEnabled (some r) c.tankCount .n1) c.span.n1,
       h.chans.n2.enable (scanEnabled (some r) c.tankCount .n2) c.span.n2,
       h.chans.n3.enable (scanEnabled (some r) c.tankCount .n3) c.span.n3,
       h.chans.n4.enable (scanEnabled (some r) c.tankCount .n4) c.span.n4⟩
    surgeThreshold := if r.pressure then c.surgeThreshold else h.surgeThreshold
    hardLimit := if r.pressure then c.hardLimit else h.hardLimit
    settleLevel := if r.pressure then c.settleLevel else h.settleLevel }).startSet

/-- R94: the stop timer starts at JOINING entry at PU. -/
def ValvePump.join (v : ValvePump) (r : Role) : ValvePump :=
  if r = .pu then { v with stopTimer := .fromZero } else v

/-- R192: FROZEN and JOINING entry. -/
def State.freeze (s : State) (r : Role) (c : Setup) : State :=
  Ch.all.foldl State.takeOverfill
    { s with
      sl := { s.sl with step := .frozen, setup := c, joinWindow := .fromZero }
      pc := { s.pc with station := .joining }
      sr := ⟨(protectedNumbers s.number c.lineup).map Entry.guard, .start⟩
      tu := { s.tu with mask := c.mask }
      vp := s.vp.join r
      hw := s.hw.join r c }

/-- R190: the CHECK step. Either end of it leaves READ, so SM_SEL goes off (R188). -/
def State.checkSetup (s : State) (r : Role) (image : Image) : State :=
  match setupFailure image.toList r with
  | some (check, offset) => s.reject (.setup check offset)
  | none => s.freeze r (freezeSetup image.toList r)

/-- SETUP_READ (R188): the serial read completes, in the READ step, with `image` the 86 bytes that SM_DIO showed; the
CHECK step follows. -/
def execSetupRead (image : Image) (s : State) : Host.Outcome State Fault Refusal :=
  .next (match s.sl.step, s.role with
    | .read, some r => (s.takeImage image).checkSetup r image
    | _, _ => s)

/-! ## JOIN_WINDOW_END -/

/-- R3: the generation adopted. -/
def JoinSummary.gen (j : JoinSummary) : BitVec 8 := (j.genPu.or j.genAny).getD 0

/-- R3: the transfer number adopted. -/
def JoinSummary.transfer (j : JoinSummary) (pu : Bool) : BitVec 8 :=
  (if pu then j.transferAny else j.transferPu).getD 0

/-- R107, R108, R111: HW at entry into RUNNING; `above` is the above-threshold fact. DESIGN CHOICE (log 25): the leak
condition is evaluated there, `leak`, since the roster told HW nothing in JOINING (R29). -/
def HoseWatch.run (h : HoseWatch) (above leak : Bool) : HoseWatch :=
  { h with
    hardCount := 0, excursion := .none, allowance := .stopped, relax := .stopped, surgeCond := above, leakCond := leak }

/-- R3, R141, R184: RUNNING, the adoptions made, the summary cleared, heartbeat and rate window begun. -/
def State.beginRunning (s : State) : State :=
  { s with
    pc := { s.pc with station := .running, gen := s.sr.join.gen, transfer := s.sr.join.transfer (s.hasRole .pu) }
    sl := { s.sl with joinWindow := .stopped }
    sr := { s.sr with join := .start }
    lc := { s.lc with heartbeat := .fromZero }
    hw := s.hw.run s.aboveThreshold s.leakNow
    mr := if s.hasRole .pu then { s.mr with window := .fromZero } else s.mr }

/-- R3: IDLE, or TRIPPED with PHASE latched, by the transfer-heard item. DESIGN CHOICE (log 67): the PHASE event of the
entry in IDLE names IDLE as old and as new phase, and the transfer number adopted. -/
def State.enterPhase (s : State) (heard : Bool) : State :=
  if heard then s.latch .phase none
  else ((s.askStatus).emit (.phaseChange .idle .idle s.pc.transfer)).followAll.watch

/-- R195: the causes that already stand, handed in the rule's order. OVERFILL is timed by `watch`. -/
def State.handStanding (s : State) : State :=
  let t := s.handEach .sensor s.pc.phase s.faultChannels
  let t := if t.valveRole && t.inputs.sep then t.handSeparation else t
  let t := t.watch
  if t.inputs.esd then t.handCause .manual none else t

/-- JOIN_WINDOW_END (R194, R3, R195): the window runs out without a clash. -/
def execJoinWindowEnd (s : State) : Host.Outcome State Fault Refusal :=
  .next (if s.pc.station = .joining then
      (((s.beginRunning).enterPhase s.sr.join.heard).handStanding.watch).puEval
    else s)

end Sys2Proof.Machine
end

