-- ==== Sys2Proof/Machine/TripInputs.lean ====
section
/-! DEFINITION. The emergency stop and acknowledge inputs, the cadences and the qualification timers (R61, R62, R78, R79):
the meanings of ESD_IN_CHANGE, ACK_IN_CHANGE, CADENCE_TOGGLE and QUALIFICATION_EXPIRY. -/

namespace Sys2Proof.Machine

/-- ESD_IN_CHANGE (R61): ESD_IN on hands MANUAL at a RUNNING station. -/
def execEsdInChange (on : Bool) (s : State) : Host.Outcome State Fault Refusal :=
  .next (if s.inputs.esd = on then s
    else
      let t := { s with inputs := { s.inputs with esd := on } }
      (if on then t.handCause .manual none else t).watch)

/-- ACK_IN_CHANGE (R78): a change from off to on acknowledges, in every station state but STARTUP. -/
def execAckInChange (on : Bool) (s : State) : Host.Outcome State Fault Refusal :=
  .next (if s.inputs.ack = on then s
    else
      let t := { s with inputs := { s.inputs with ack := on } }
      if on && s.pc.station != .startup then t.acknowledge else t)

/-- R79: an alternating output changes over. -/
def Sounding.toggle (o : Sounding) : Sounding :=
  if o.cadence.alternates then { o with on := !o.on, half := .fromZero } else o

/-- CADENCE_TOGGLE (R79): the half of a cadence is over. -/
def execCadenceToggle (o : Sounder) (s : State) : Host.Outcome State Fault Refusal :=
  .next (match o with
    | .horn => { s with an := { s.an with horn := s.an.horn.toggle } }
    | .beacon => { s with an := { s.an with beacon := s.an.beacon.toggle } })

/-- A qualification timer that has run out. -/
def QualTimer.expire (q : QualTimer) : QualTimer := { q with timer := .stopped }

/-- R62: a qualification timer runs out: the cause is qualified. -/
def State.qualify (s : State) : QualId → State
  | .overfill n =>
      ({ s with tu := { s.tu with overfill := s.tu.overfill.set n (s.tu.overfill.get n).expire } }).qualifyOverfill n
  | .surge => ({ s with tu := { s.tu with surge := s.tu.surge.expire } }).handCause .surge none
  | .leak => ({ s with tu := { s.tu with leak := s.tu.leak.expire } }).handCause .leak none

/-- QUALIFICATION_EXPIRY (R62): a timer that does not run cannot run out (log 5). -/
def execQualificationExpiry (q : QualId) (s : State) : Host.Outcome State Fault Refusal :=
  .next (if (s.tu.qualTimer q).running then (s.qualify q).watch.puEval else s)

end Sys2Proof.Machine
end

