-- ==== Sys2Proof/Machine/Valves.lean ====
section
/-! DEFINITION. Valve switches and valve timers (R82, R83, R86 to R88, R90, R92): the meanings of VALVE_SWITCH_CHANGE,
DWELL_EXPIRY, TRAVEL_LIMIT_EXPIRY and HOLD_OFF_EXPIRY. -/

namespace Sys2Proof.Machine

/-- The level of one switch of a channel. -/
def Inputs.switch (i : Inputs) (n : Ch) : Switch → Bool
  | .openSw => i.openSw.get n
  | .shutSw => i.shutSw.get n

/-- One switch of a channel at a level. -/
def Inputs.setSwitch (i : Inputs) (n : Ch) (sw : Switch) (on : Bool) : Inputs :=
  match sw with
  | .openSw => { i with openSw := i.openSw.set n on }
  | .shutSw => { i with shutSw := i.shutSw.set n on }

/-- R88: whether the switch at the end the channel travels away from has come on while the drive is on. -/
def Channel.wrongEnd (c : Channel) (sw : Switch) (on : Bool) : Bool :=
  on && ((c.drive == .opened && sw == .shutSw) || (c.drive == .close && sw == .openSw))

/-- R82, R86, R88, R92: a channel in use after a switch of it has changed, and whether VALVE is handed. `active` is
whether the phase is active, `h` the hold-off state in TRIPPED and NONE elsewhere. DESIGN CHOICE (log 75): which of
BOTHON and SWITCH is the reason of the handing is kept nowhere. -/
def Channel.switched (c : Channel) (sw : Switch) (on active : Bool) (h : HoldOff) (os cs : Bool) : Channel × Bool :=
  if os && cs then (if c.state = .fault then (c, false) else (c.toFault, true))
  else if c.state = .fault then
    (if active then (c, false) else ((c.follow os cs).afterFault c h os cs, false))
  else if c.arrived os cs then (c.arrive, false)
  else if c.wrongEnd sw on then (c.toFault, true)
  else if c.atRest then (if active then (c.toFault, true) else (c.follow os cs, false))
  else (c.progress os cs, false)

/-- The hold-off state that R92 reads: that of TRIPPED. -/
def State.tripHoldOff (s : State) : HoldOff := if s.pc.phase = .tripped then s.vp.holdOff else .none

/-- R87, R88: VALVE handed for a channel. DESIGN CHOICE (log 75): of what it is handed with, the channel number is the
cause's detail (R61), and the reason TRAVEL, BOTHON or SWITCH is kept nowhere. -/
def State.handValve (s : State) (n : Ch) : State := s.handCause .valve (some n.num)

/-- R88: a switch of a channel in use of a RUNNING station has changed; `s` holds the new levels. -/
def State.switchUsed (s : State) (n : Ch) (sw : Switch) (on : Bool) : State :=
  let r := (s.vp.channels.get n).switched sw on s.pc.phase.active s.tripHoldOff (s.openOn n) (s.shutOn n)
  (if r.2 then (s.putChannel n r.1).handValve n else s.putChannel n r.1).watch

/-- R82: any other channel follows its switches; it is at rest, for no drive of it is ever on (R81, R93). -/
def State.switchUnused (s : State) (n : Ch) : State :=
  if (s.vp.channels.get n).atRest then
    s.putChannel n ((s.vp.channels.get n).follow (s.openOn n) (s.shutOn n))
  else s

/-- VALVE_SWITCH_CHANGE (R88): a switch at the level it had already is no change (log 5). -/
def execValveSwitchChange (n : Ch) (sw : Switch) (on : Bool) (s : State) : Host.Outcome State Fault Refusal :=
  .next (if s.inputs.switch n sw = on then s
    else
      let t := { s with inputs := s.inputs.setSwitch n sw on }
      if s.running && s.channelUsed n then t.switchUsed n sw on else t.switchUnused n)

/-- The dwell timer of a channel stopped. -/
def Channel.endDwell (c : Channel) : Channel := { c with dwell := .stopped }

/-- DWELL_EXPIRY (R83): a waiting drive may go on. -/
def execDwellExpiry (n : Ch) (s : State) : Host.Outcome State Fault Refusal :=
  .next (if (s.vp.channels.get n).dwell.running then
      (s.putChannel n ((s.vp.channels.get n).endDwell.progress (s.openOn n) (s.shutOn n))).watch
    else s)

/-- TRAVEL_LIMIT_EXPIRY (R87): the channel goes into FAULT and VALVE is handed. -/
def execTravelLimitExpiry (n : Ch) (s : State) : Host.Outcome State Fault Refusal :=
  .next (if (s.vp.channels.get n).travel.running then
      ((s.putChannel n (s.vp.channels.get n).toFault).handValve n).watch
    else s)

/-- HOLD_OFF_EXPIRY (R90): a HOLDING station releases its pending channels. -/
def execHoldOffExpiry (s : State) : Host.Outcome State Fault Refusal :=
  .next (if s.vp.holdOff = .holding then (s.releaseAll .holdOff).watch else s)

end Sys2Proof.Machine
end

