-- ==== Sys2Proof/Machine/Dispatch.lean ====
section
/-! DEFINITION. One arm per command: the meaning it has. -/

namespace Sys2Proof.Machine

def exec (i : Instr) (s : State) : Host.Outcome State Fault Refusal :=
  match i with
  | .startUp => Sys2Proof.Machine.execStartUp s
  | .resetInOff sn rl => Sys2Proof.Machine.execResetInOff sn rl s
  | .setupRead image => Sys2Proof.Machine.execSetupRead image s
  | .joinWindowEnd => Sys2Proof.Machine.execJoinWindowEnd s
  | .lineCharacter c => Sys2Proof.Machine.execLineCharacter c s
  | .echoTimeout => Sys2Proof.Machine.execEchoTimeout s
  | .lineIdle => Sys2Proof.Machine.execLineIdle s
  | .attempt => Sys2Proof.Machine.execAttempt s
  | .heartbeat => Sys2Proof.Machine.execHeartbeat s
  | .rosterTakeFrame => Sys2Proof.Machine.execRosterTakeFrame s
  | .silenceLimit n => Sys2Proof.Machine.execSilenceLimit n s
  | .removalLimit n => Sys2Proof.Machine.execRemovalLimit n s
  | .stepConfirmationTimeout => Sys2Proof.Machine.execStepConfirmationTimeout s
  | .answerTimerExpiry => Sys2Proof.Machine.execAnswerTimerExpiry s
  | .panelCharacter c => Sys2Proof.Machine.execPanelCharacter c s
  | .nominate q r => Sys2Proof.Machine.execNominate q r s
  | .start => Sys2Proof.Machine.execStart s
  | .pause => Sys2Proof.Machine.execPause s
  | .resume => Sys2Proof.Machine.execResume s
  | .stop => Sys2Proof.Machine.execStop s
  | .reset => Sys2Proof.Machine.execReset s
  | .endack => Sys2Proof.Machine.execEndack s
  | .trip => Sys2Proof.Machine.execTrip s
  | .silence => Sys2Proof.Machine.execSilence s
  | .assign t => Sys2Proof.Machine.execAssign t s
  | .unassign t => Sys2Proof.Machine.execUnassign t s
  | .mask w => Sys2Proof.Machine.execMask w s
  | .readPhase => Sys2Proof.Machine.execReadPhase s
  | .readRoster n => Sys2Proof.Machine.execReadRoster n s
  | .readTrip => Sys2Proof.Machine.execReadTrip s
  | .readAlarm => Sys2Proof.Machine.execReadAlarm s
  | .readValve n => Sys2Proof.Machine.execReadValve n s
  | .readPump => Sys2Proof.Machine.execReadPump s
  | .readScan => Sys2Proof.Machine.execReadScan s
  | .readTank n => Sys2Proof.Machine.execReadTank n s
  | .readRecord => Sys2Proof.Machine.execReadRecord s
  | .readSetup => Sys2Proof.Machine.execReadSetup s
  | .readPanel => Sys2Proof.Machine.execReadPanel s
  | .reportSent => Sys2Proof.Machine.execReportSent s
  | .esdInChange on => Sys2Proof.Machine.execEsdInChange on s
  | .sepInChange on => Sys2Proof.Machine.execSepInChange on s
  | .ackInChange on => Sys2Proof.Machine.execAckInChange on s
  | .cadenceToggle o => Sys2Proof.Machine.execCadenceToggle o s
  | .hhChange n on => Sys2Proof.Machine.execHhChange n on s
  | .qualificationExpiry q => Sys2Proof.Machine.execQualificationExpiry q s
  | .valveSwitchChange n sw on => Sys2Proof.Machine.execValveSwitchChange n sw on s
  | .dwellExpiry n => Sys2Proof.Machine.execDwellExpiry n s
  | .travelLimitExpiry n => Sys2Proof.Machine.execTravelLimitExpiry n s
  | .holdOffExpiry => Sys2Proof.Machine.execHoldOffExpiry s
  | .pumpFbChange on => Sys2Proof.Machine.execPumpFbChange on s
  | .feedbackTimerExpiry => Sys2Proof.Machine.execFeedbackTimerExpiry s
  | .stopTimerExpiry => Sys2Proof.Machine.execStopTimerExpiry s
  | .meterPulse => Sys2Proof.Machine.execMeterPulse s
  | .rateWindow => Sys2Proof.Machine.execRateWindow s
  | .startLimitExpiry => Sys2Proof.Machine.execStartLimitExpiry s
  | .scanSetStart => Sys2Proof.Machine.execScanSetStart s
  | .scanReading raw => Sys2Proof.Machine.execScanReading raw s
  | .allowanceExpiry => Sys2Proof.Machine.execAllowanceExpiry s
  | .relaxExpiry => Sys2Proof.Machine.execRelaxExpiry s
  | .claimWaitExpiry => Sys2Proof.Machine.execClaimWaitExpiry s
  | .settleWindowExpiry => Sys2Proof.Machine.execSettleWindowExpiry s
  | .settleLimitExpiry => Sys2Proof.Machine.execSettleLimitExpiry s

end Sys2Proof.Machine
end

