-- ==== Sys2Proof/Machine/Step.lean ====
section
/-! DEFINITION. One step: the command at the front of the queue, or a millisecond when none waits. -/

namespace Sys2Proof.Machine

/-- The command at the front of the queue is taken and carried out on the state with the queue's rest; on an empty queue a
millisecond passes (log 6). -/
def step (s : State) : Host.Outcome State Fault Refusal :=
  match s.pending with
  | [] => .next s.tick
  | c :: rest => exec c { s with pending := rest }

/-- The command a word spells put at the front of the queue. No row of the table has bits, so no word spells one
(log 34). -/
def State.withFetchWord (s : State) (nbits w : Nat) : State :=
  match decodeTableWord nbits w with
  | some c => { s with pending := c :: s.pending }
  | none => s

end Sys2Proof.Machine
end

