-- ==== Sys2Proof/Machine/Reports.lean ====
section
/-! DEFINITION. The text of a report as PN_TX sends it (R199): its lines, their words, the END line, the line ends and the
LOST mark. The facts of an EVENT and of a DATA line, which no rule spells, are free values (log 9). -/

namespace Sys2Proof.Machine

/-! ## Words -/

/-- A number as decimal digits. -/
def decimal (n : Nat) : List Byte := word (Nat.toDigits 10 n)

/-- R198: the word of a request command. -/
def ReqKind.text : ReqKind → List Byte
  | .nominate => word ['N', 'O', 'M', 'I', 'N', 'A', 'T', 'E']
  | .start => word ['S', 'T', 'A', 'R', 'T']
  | .pause => word ['P', 'A', 'U', 'S', 'E']
  | .resume => word ['R', 'E', 'S', 'U', 'M', 'E']
  | .stop => word ['S', 'T', 'O', 'P']
  | .reset => word ['R', 'E', 'S', 'E', 'T']
  | .endack => word ['E', 'N', 'D', 'A', 'C', 'K']

/-- R198: the command word. -/
def CommandWord.text : CommandWord → List Byte
  | .request k => k.text
  | .trip => word ['T', 'R', 'I', 'P']
  | .silence => word ['S', 'I', 'L', 'E', 'N', 'C', 'E']
  | .assign => word ['A', 'S', 'S', 'I', 'G', 'N']
  | .unassign => word ['U', 'N', 'A', 'S', 'S', 'I', 'G', 'N']
  | .read => word ['R', 'E', 'A', 'D']
  | .mask => word ['M', 'A', 'S', 'K']

/-- R199: the name of a class. -/
def classText : EventClass → List Byte
  | .phase => word ['P', 'H', 'A', 'S', 'E']
  | .trip => word ['T', 'R', 'I', 'P']
  | .tank => word ['T', 'A', 'N', 'K']
  | .roster => word ['R', 'O', 'S', 'T', 'E', 'R']
  | .alarm => word ['A', 'L', 'A', 'R', 'M']
  | .link => word ['L', 'I', 'N', 'K']

/-- R199: a link outcome. -/
def Decision.text : Decision → List Byte
  | .taken => word ['T', 'A', 'K', 'E', 'N']
  | .busy => word ['B', 'U', 'S', 'Y']
  | .wrongphase => word ['W', 'R', 'O', 'N', 'G', 'P', 'H', 'A', 'S', 'E']
  | .notready => word ['N', 'O', 'T', 'R', 'E', 'A', 'D', 'Y']
  | .causeactive => word ['C', 'A', 'U', 'S', 'E', 'A', 'C', 'T', 'I', 'V', 'E']
  | .badarg => word ['B', 'A', 'D', 'A', 'R', 'G']

/-- R199: an outcome. -/
def PanelOutcome.text : PanelOutcome → List Byte
  | .decided d => d.text
  | .noanswer => word ['N', 'O', 'A', 'N', 'S', 'W', 'E', 'R']
  | .pending => word ['P', 'E', 'N', 'D', 'I', 'N', 'G']
  | .nothere => word ['N', 'O', 'T', 'H', 'E', 'R', 'E']
  | .refused => word ['R', 'E', 'F', 'U', 'S', 'E', 'D']

/-- R61: the name of a cause. -/
def Cause.text : Cause → List Byte
  | .manual => word ['M', 'A', 'N', 'U', 'A', 'L']
  | .separation => word ['S', 'E', 'P', 'A', 'R', 'A', 'T', 'I', 'O', 'N']
  | .overfill => word ['O', 'V', 'E', 'R', 'F', 'I', 'L', 'L']
  | .surge => word ['S', 'U', 'R', 'G', 'E']
  | .hardlimit => word ['H', 'A', 'R', 'D', 'L', 'I', 'M', 'I', 'T']
  | .leak => word ['L', 'E', 'A', 'K']
  | .linkloss => word ['L', 'I', 'N', 'K', 'L', 'O', 'S', 'S']
  | .valve => word ['V', 'A', 'L', 'V', 'E']
  | .pump => word ['P', 'U', 'M', 'P']
  | .noflow => word ['N', 'O', 'F', 'L', 'O', 'W']
  | .sensor => word ['S', 'E', 'N', 'S', 'O', 'R']
  | .phase => word ['P', 'H', 'A', 'S', 'E']

/-- R119, R197, R198: the reason of a REFUSED. -/
def RefuseReason.text : RefuseReason → List Byte
  | .role => word ['R', 'O', 'L', 'E']
  | .state => word ['S', 'T', 'A', 'T', 'E']
  | .phase => word ['P', 'H', 'A', 'S', 'E']
  | .tank => word ['T', 'A', 'N', 'K']
  | .valve => word ['V', 'A', 'L', 'V', 'E']
  | .level => word ['L', 'E', 'V', 'E', 'L']
  | .syntaxError => word ['S', 'Y', 'N', 'T', 'A', 'X']
  | .length => word ['L', 'E', 'N', 'G', 'T', 'H']

/-- R199: the name after an outcome, if there is one. DESIGN CHOICE (log 71): a station by its number. -/
def AnswerName.words : AnswerName → List (List Byte)
  | .none => []
  | .station n => [decimal n]
  | .cause c => [c.text]
  | .reason r => [r.text]

/-- R203: the item of a DATA report; NONE stands without one. -/
def DataBody.item : DataBody → List Byte
  | .nothing => []
  | .phase _ _ _ _ _ _ => word ['P', 'H', 'A', 'S', 'E']
  | .rosterEntry _ | .notInRoster | .rosterList _ => word ['R', 'O', 'S', 'T', 'E', 'R']
  | .trip _ _ _ _ _ => word ['T', 'R', 'I', 'P']
  | .alarm _ _ _ _ => word ['A', 'L', 'A', 'R', 'M']
  | .valve _ _ _ => word ['V', 'A', 'L', 'V', 'E']
  | .pump _ _ _ _ _ _ => word ['P', 'U', 'M', 'P']
  | .scan _ _ => word ['S', 'C', 'A', 'N']
  | .tank _ | .tankTable _ _ _ _ _ _ => word ['T', 'A', 'N', 'K']
  | .record _ _ => word ['R', 'E', 'C', 'O', 'R', 'D']
  | .setup _ _ _ _ _ _ => word ['S', 'E', 'T', 'U', 'P']
  | .panel _ _ _ => word ['P', 'A', 'N', 'E', 'L']

/-! ## Lines -/

/-- The word NONE (R80, R203). -/
def wordNone : List Byte := word ['N', 'O', 'N', 'E']

/-- R80: the first-out as a line, or the word NONE. -/
def firstOutLine (f : Option FirstOut) : List Byte := f.elim wordNone fun x => Config.dataText (.firstOut x)

/-- R199: the lines between the first and END, each as its text. DESIGN CHOICE (log 71): what counts as one record or entry
of a reply. -/
def DataBody.entries : DataBody → List (List Byte)
  | .nothing => []
  | .phase st p t g h r => [Config.dataText (.phase st p t g h r)]
  | .rosterEntry v => [Config.dataText (.entry v)]
  | .notInRoster => [word ['N', 'O', 'T', ' ', 'I', 'N', ' ', 'R', 'O', 'S', 'T', 'E', 'R']]
  | .rosterList l => l.map fun x => Config.dataText (.listed x)
  | .trip f l c m ts =>
      [firstOutLine f] ++ (l.map fun x => Config.dataText (.latched x.1 x.2)) ++ [Config.dataText (.causeAndMask c m)]
        ++ ts.map fun x => Config.dataText (.qualTimer x.1 x.2)
  | .alarm l f h b =>
      (l.map fun x => Config.dataText (.alarm x)) ++ [firstOutLine f, Config.dataText (.cadences h b)]
  | .valve l h r => (l.map fun x => Config.dataText (.channel x.1 x.2)) ++ [Config.dataText (.holdOff h r)]
  | .pump st r l f a b => [Config.dataText (.pump st r l f a b)]
  | .scan l w =>
      (l.map fun x => Config.dataText (.scanChannel x.1 x.2.1 x.2.2))
        ++ w.toList.map fun x => Config.dataText (.watch x)
  | .tank v => [Config.dataText (.tank v)]
  | .tankTable l r q c a b =>
      (l.map fun x => Config.dataText (.tankListed x.1 x.2.1 x.2.2)) ++ [Config.dataText (.receipt r q c a b)]
  | .record r m => Config.dataText (.record r) :: m.toList.map fun x => Config.dataText (.meter x)
  | .setup sn rl st f c i =>
      Config.dataText (.straps sn rl st f) :: (c.toList.map fun x => Config.dataText (.frozen x))
        ++ i.toList.map fun x => Config.dataText (.rejected x)
  | .panel m n l => [Config.dataText (.panel m n l)]

/-- R199: the lines of a DATA report, each as its words; the line NONE alone where the block holds nothing (R203). -/
def DataBody.lines (d : DataBody) : List (List (List Byte)) :=
  if d = .nothing then [[wordNone]]
  else [[word ['D', 'A', 'T', 'A'], d.item]] ++ d.entries.map (fun l => [l]) ++ [[word ['E', 'N', 'D']]]

/-- R199: the lines of a report, each as its words. -/
def Report.lines : Report → List (List (List Byte))
  | .answer w n o name =>
      [[word ['A', 'N', 'S', 'W', 'E', 'R']] ++ (w.map (·.text)).toList ++ (n.map fun k => decimal k.toNat).toList
        ++ [o.text] ++ name.words]
  | .event e => [[word ['E', 'V', 'E', 'N', 'T'], classText e.cls, Config.eventText e]]
  | .data d => d.lines

/-- A word put before the first word of the first line. -/
def leadWith (w : List Byte) : List (List (List Byte)) → List (List (List Byte))
  | [] => []
  | l :: rest => (w :: l) :: rest

/-- R199: the lines of a report in the queue: its first line begins with the word LOST if it carries the mark. -/
def Queued.lines (q : Queued) : List (List (List Byte)) :=
  if q.lostMark then leadWith (word ['L', 'O', 'S', 'T']) q.report.lines else q.report.lines

/-- R199: a line as it is sent: its words, and 0DH 0AH. DESIGN CHOICE (log 71): one space between two words. -/
def lineText (words : List (List Byte)) : List Byte := [0x20#8].intercalate words ++ [0x0D, 0x0A]

/-- R199: the characters of a report. -/
def Queued.text (q : Queued) : List Byte := q.lines.flatMap lineText

/-- R199, R202: the characters that PN_TX is sending: those of the oldest report, if there is one. -/
def State.sending (s : State) : Option (List Byte) := s.pp.queue.head?.map Queued.text

end Sys2Proof.Machine
end

