-- ==== Sys2Proof/Safety.lean ====
section
/-! DEFINITION. The words the statements use: the parts of the state and what it is to leave a part unchanged, the
sound shape of a state, and the invariants a step keeps. -/

namespace Sys2Proof.Machine

/-! ## Parts and frames -/

/-- The parts of the state. Every field of State belongs to exactly one part. -/
inductive Part
  /-- the commands waiting -/
  | queue
  | inputs
  /-- the Setup Loader -/
  | setup
  /-- the station state -/
  | station
  /-- the phase, the step in hand and the standing order -/
  | phase
  /-- the trip generation -/
  | generation
  /-- PC's transfer number -/
  | transfer
  /-- READY, PATH, CLOSED and CAUSE -/
  | flags
  /-- the table and the join summary -/
  | roster
  /-- the Request Handler -/
  | requests
  /-- first-out, latched set, and the tanks an event has named -/
  | tripRecord
  /-- the profile mask -/
  | profile
  /-- the qualification timers and the qualified facts of disabled causes -/
  | timers
  /-- the Annunciator -/
  | alarms
  /-- the channel records and the close hold-off -/
  | channels
  /-- the pump state, its timers, PUMP_RUN and RATE_LOW -/
  | pump
  /-- the scan channel records -/
  | readings
  /-- the three pressure levels -/
  | levels
  /-- the reading under way and the set timer -/
  | scan
  /-- hard limit count, excursion state with its timers, surge condition -/
  | pressure
  /-- the leak condition -/
  | leak
  /-- the Overflow Watch -/
  | tanks
  /-- the residual -/
  | residual
  /-- the stray count -/
  | stray
  /-- the rest of the meter -/
  | meter
  /-- the transfer record -/
  | record
  /-- line state, idle time and the receive slots -/
  | receive
  | heartbeat
  /-- the transmit queue and the attempt under way -/
  | frames
  /-- the panel's command buffer -/
  | panelLine
  /-- the report mask -/
  | reportMask
  /-- the report queue and the lost flag -/
  | reports
  /-- the count of free values drawn -/
  | draws
  deriving DecidableEq, Repr

/-- A part is the same in two states. -/
def Part.same (s t : State) : Part → Prop
  | .queue => t.pending = s.pending
  | .inputs => t.inputs = s.inputs
  | .setup => t.sl = s.sl
  | .station => t.pc.station = s.pc.station
  | .phase => t.pc.phase = s.pc.phase ∧ t.pc.inHand = s.pc.inHand ∧ t.pc.order = s.pc.order
  | .generation => t.pc.gen = s.pc.gen
  | .transfer => t.pc.transfer = s.pc.transfer
  | .flags => t.pc.ready = s.pc.ready ∧ t.pc.path = s.pc.path ∧ t.pc.closed = s.pc.closed ∧ t.tu.cause = s.tu.cause
  | .roster => t.sr = s.sr
  | .requests => t.rh = s.rh
  | .tripRecord => t.tu.firstOut = s.tu.firstOut ∧ t.tu.latched = s.tu.latched ∧ t.tu.named = s.tu.named
  | .profile => t.tu.mask = s.tu.mask
  | .timers => t.tu.overfill = s.tu.overfill ∧ t.tu.surge = s.tu.surge ∧ t.tu.leak = s.tu.leak
      ∧ t.tu.surgeQualified = s.tu.surgeQualified ∧ t.tu.leakQualified = s.tu.leakQualified
  | .alarms => t.an = s.an
  | .channels => t.vp.channels = s.vp.channels ∧ t.vp.holdOff = s.vp.holdOff ∧ t.vp.holdOffTimer = s.vp.holdOffTimer
  | .pump => t.vp.pump = s.vp.pump ∧ t.vp.feedback = s.vp.feedback ∧ t.vp.stopTimer = s.vp.stopTimer
      ∧ t.vp.pumpRun = s.vp.pumpRun ∧ t.vp.rateLow = s.vp.rateLow
  | .readings => t.hw.chans = s.hw.chans
  | .levels => t.hw.surgeThreshold = s.hw.surgeThreshold ∧ t.hw.hardLimit = s.hw.hardLimit
      ∧ t.hw.settleLevel = s.hw.settleLevel
  | .scan => t.hw.slot = s.hw.slot ∧ t.hw.setTimer = s.hw.setTimer
  | .pressure => t.hw.hardCount = s.hw.hardCount ∧ t.hw.excursion = s.hw.excursion
      ∧ t.hw.allowance = s.hw.allowance ∧ t.hw.relax = s.hw.relax ∧ t.hw.surgeCond = s.hw.surgeCond
  | .leak => t.hw.leakCond = s.hw.leakCond
  | .tanks => t.ow = s.ow
  | .residual => t.mr.residual = s.mr.residual
  | .stray => t.mr.stray = s.mr.stray
  | .meter => t.mr.window = s.mr.window ∧ t.mr.windowLitres = s.mr.windowLitres ∧ t.mr.lastRate = s.mr.lastRate
      ∧ t.mr.startFlow = s.mr.startFlow ∧ t.mr.startLimit = s.mr.startLimit ∧ t.mr.zeroCount = s.mr.zeroCount
      ∧ t.mr.cap = s.mr.cap ∧ t.mr.belowCount = s.mr.belowCount
  | .record => t.mr.record = s.mr.record
  | .receive => t.lc.line = s.lc.line ∧ t.lc.idle = s.lc.idle ∧ t.lc.assembly = s.lc.assembly
      ∧ t.lc.check = s.lc.check ∧ t.lc.delivery = s.lc.delivery
  | .heartbeat => t.lc.heartbeat = s.lc.heartbeat
  | .frames => t.lc.trip = s.lc.trip ∧ t.lc.answer = s.lc.answer ∧ t.lc.request = s.lc.request
      ∧ t.lc.status = s.lc.status ∧ t.lc.attempt = s.lc.attempt
  | .panelLine => t.pp.buffer = s.pp.buffer ∧ t.pp.overlong = s.pp.overlong
  | .reportMask => t.pp.mask = s.pp.mask
  | .reports => t.pp.queue = s.pp.queue ∧ t.pp.lost = s.pp.lost
  | .draws => t.draws = s.draws

/-- The frame of a change: every part that is not named is the same before and after. -/
def Frame (changed : List Part) (s t : State) : Prop := ∀ p : Part, p ∉ changed → p.same s t

/-- The parts that the facts evaluated at every change belong to: flags, timers, alarms, the STATUS they ask for, and the
events they give. -/
def watchParts : List Part := [.flags, .timers, .alarms, .frames, .reports]

/-- The parts that a change of phase, with everything it sets off, may touch. -/
def cascadeParts : List Part :=
  watchParts ++ [.phase, .tripRecord, .channels, .pump, .scan, .pressure, .tanks, .meter, .record]

/-- Nothing but EVENTs has joined the report queue, at its end. -/
def EventsOnly (s t : State) : Prop := ∃ l : List Queued, t.pp.queue = s.pp.queue ++ l ∧ l.all Queued.isEvent = true

/-- The newest report of the queue (R202). -/
def NewestReport (s : State) (r : Report) : Prop := ∃ (l : List Queued) (m : Bool), s.pp.queue = l ++ [⟨r, m⟩]

/-- R201, R202: an EVENT handed over, from `p` to `q`: discarded where its class is off, placed at the end where the queue
holds fewer than 8 reports, with the LOST mark where it is the first to begin after a loss, lost otherwise. -/
structure EventPlaced (p q : PanelPort) (e : Event) : Prop where
  masked : p.mask.has e.cls = false → q = p
  room : p.mask.has e.cls = true → p.queue.length < 8 →
    q = { p with queue := p.queue ++ [⟨.event e, p.queue.isEmpty && p.lost⟩], lost := !p.queue.isEmpty && p.lost }
  lost : p.mask.has e.cls = true → 8 ≤ p.queue.length → q = { p with lost := true }

/-- R202: an ANSWER or DATA report handed over, from `p` to `q`: placed at the end, in a full queue in place of the newest
EVENT `e` other than the one being sent, which is lost. -/
structure ReplyPlaced (p q : PanelPort) (r : Report) : Prop where
  room : p.queue.length < 8 →
    q = { p with queue := p.queue ++ [⟨r, p.queue.isEmpty && p.lost⟩], lost := !p.queue.isEmpty && p.lost }
  full : 8 ≤ p.queue.length → ∀ sending before e after, p.queue = sending :: (before ++ e :: after) →
    e.isEvent = true → (∀ x ∈ after, x.isEvent = false) →
    q = { p with queue := sending :: (before ++ after ++ [⟨r, false⟩]), lost := true }

/-- R202: a full queue holds an EVENT other than the report being sent. -/
def HoldsWaitingEvent (p : PanelPort) : Prop :=
  ∃ sending before e after, p.queue = sending :: (before ++ e :: after) ∧ e.isEvent = true
    ∧ ∀ x ∈ after, x.isEvent = false

/-- The panel command of a request kind (R47). -/
def ReqKind.command (k : ReqKind) (q r : Nat) : Instr :=
  match k with
  | .nominate => .nominate q r
  | .start => .start
  | .pause => .pause
  | .resume => .resume
  | .stop => .stop
  | .reset => .reset
  | .endack => .endack

/-- The commands of the panel that are whole lines (R198). -/
def isPanelLine : Instr → Bool
  | .nominate _ _ | .start | .pause | .resume | .stop | .reset | .endack | .trip | .silence | .assign _ | .unassign _
  | .mask _ | .readPhase | .readRoster _ | .readTrip | .readAlarm | .readValve _ | .readPump | .readScan | .readTank _
  | .readRecord | .readSetup | .readPanel => true
  | _ => false

/-- R82: the state a channel at rest shows for the levels of its open and shut switches, from the state it had. -/
def restState (old : ValveState) (openOn shutOn : Bool) : ValveState :=
  match openOn, shutOn with
  | false, true => .shut
  | true, false => .opened
  | true, true => .fault
  | false, false => if old = .shut ∨ old = .opened then .stopped else old

/-- R10: a step is in hand and some PRESENT protected peer does not show its phase yet. -/
def Unconfirmed (s : State) : Prop :=
  ∃ (h : StepInHand) (e : Entry), s.pc.inHand = some h ∧ e ∈ s.sr.entries ∧ e.protected' = true
    ∧ e.presence = .present ∧ (e.shows h.gen fun st => st.phase == h.target) = false

/-! ## What the table shows (R39 to R43) -/

/-- R39: an entry's last status is there, is current, and shows what `f` asks. -/
def Showing (s : State) (e : Entry) (f : Status → Prop) : Prop :=
  ∃ st, e.last = some st ∧ st.gen = s.pc.gen ∧ f st

/-- R41: the entry of a role that is single on a link shows what `f` asks. -/
def RoleShowing (s : State) (r : Role) (f : Status → Prop) : Prop := ∃ e, s.sr.ofRole r = some e ∧ Showing s e f

/-- R41, R43: at least one protected entry has role TW, and every one that has shows what `f` asks. -/
def EveryTwShows (s : State) (f : Status → Prop) : Prop :=
  (∃ e ∈ s.sr.entries, e.protected' = true ∧ e.role = some .tw)
    ∧ ∀ e ∈ s.sr.entries, e.protected' = true → e.role = some .tw → Showing s e f

/-- R41: a STATUS with valve state OPEN. -/
def ValveOpenShown (st : Status) : Prop := ∃ p v, st.body = .valve .opened p v

/-- R41, R43: a STATUS with a receipt state. -/
def ReceiptShown (x : ReceiptState) (st : Status) : Prop := ∃ d items, st.body = .tw x d items

/-- R41: a STATUS whose tank list holds a tank in TOPPING, FULL or HELD. -/
def ToppingShown (st : Status) : Prop :=
  ∃ x d items, st.body = .tw x d items ∧ ∃ i ∈ items, i.state = .topping ∨ i.state = .full ∨ i.state = .held

/-- R43: a STATUS that meets the internal-end test. -/
def InternalEndShown (st : Status) : Prop :=
  ∃ x d items, st.body = .tw x d items
    ∧ (x = .allfull ∨ x = .complete
      ∨ x = .settling ∧ ∀ i ∈ items, i.state = .excluded ∨ i.state = .full ∨ i.state = .held)

/-- R150: a TW station's own part of the internal-end condition. -/
def OwnInternalEnd (s : State) : Prop :=
  s.ow.receipt = .allfull ∨ s.ow.receipt = .complete
    ∨ s.ow.receipt = .settling ∧ ∀ n : Ch, s.tankUsed n = true → (s.ow.tanks.get n).state = .excluded
        ∨ (s.ow.tanks.get n).state = .full ∨ (s.ow.tanks.get n).state = .held

/-- R43: the received quantity that an entry of role TW adds for a transfer number. -/
def heardReceived (transfer : BitVec 8) (e : Entry) : Nat :=
  match e.role, e.last with
  | some .tw, some st =>
      (match st.body with
       | .tw _ received _ => if st.transfer = transfer then received else 0
       | _ => 0)
  | _, _ => 0

/-! ## READY and CLOSED (R17, R19, R40) -/

/-- R40: every protected peer is PRESENT. -/
def EveryPeerPresent (s : State) : Prop := ∀ e ∈ s.sr.entries, e.protected' = true → e.presence = .present

/-- R19, R63, R64: no cause condition is present at PU's Trip Unit, those of disabled causes apart. -/
structure NoCauseAtPu (s : State) : Prop where
  manual : s.inputs.esd = false
  surge : s.tu.mask.surge = true → s.aboveThreshold = false
  hardlimit : s.aboveHardLimit = false
  linkloss : ∀ e ∈ s.sr.entries, e.protected' = true → e.presence ≠ .silent
  pump : s.inputs.pumpFb = s.vp.pumpRun
  sensor : s.tu.mask.sensor = true → ∀ n : Ch, (s.hw.chans.get n).enabled = true → (s.hw.chans.get n).fault = false

/-- R19, R40: what READY asks of a role in LINEUP. -/
def ReadyFacts (s : State) : Role → Prop
  | .pu => s.vp.pump = .stopped ∧ s.inputs.pumpFb = false ∧ NoCauseAtPu s ∧ EveryPeerPresent s
  | .bv | .sv =>
      s.vp.channels.n1.state = .shut ∧ s.hw.chans.n1.fault = false ∧ s.inputs.sep = false ∧ EveryPeerPresent s
  | .tw =>
      (∃ n : Ch, s.tankUsed n = true ∧ (s.ow.tanks.get n).state = .assigned)
        ∧ (∀ n : Ch, s.tankUsed n = true → (s.ow.tanks.get n).state = .assigned →
            (s.vp.channels.get n).state = .shut ∧ (s.ow.tanks.get n).levelValid = true
              ∧ ∃ v, (s.ow.tanks.get n).level = some v ∧ v < (s.sl.setup.tanks.get n).topping)
        ∧ (∀ n : Ch, s.tankUsed n = true → s.inputs.hh.get n = false) ∧ EveryPeerPresent s
  | .mn => True

/-- R17: what CLOSED asks of a role. -/
def ClosedFacts (s : State) : Role → Prop
  | .bv | .sv => s.vp.channels.n1.state = .shut
  | .tw => ∀ n : Ch, s.tankUsed n = true → (s.vp.channels.get n).state = .shut
  | .pu => s.vp.pump = .stopped
  | .mn => True

/-- R17: READY and CLOSED hold the values their rules give. -/
structure FlagsRight (s : State) : Prop where
  ready : s.pc.ready = true ↔ s.running = true ∧ s.pc.phase = .lineup ∧ ∃ r, s.role = some r ∧ ReadyFacts s r
  closed : s.pc.closed = true ↔ s.running = true ∧ ∃ r, s.role = some r ∧ ClosedFacts s r

/-! ## The leak condition (R113) -/

/-- R113: what the leak condition asks: at SV, a valid value of the own AN1, a PRESENT entry of role BV, a pressure in its
last status that is not marked not valid, and the difference above the leak band. -/
def LeakFacts (s : State) : Prop :=
  s.hasRole .sv = true
    ∧ ∃ own e st v p, s.hw.chans.n1.fault = false ∧ s.hw.chans.n1.value = some own ∧ s.sr.ofRole .bv = some e
        ∧ e.presence = .present ∧ e.last = some st ∧ st.body = .valve v p true ∧ own + s.sl.setup.leakBand < p

/-! ## PC at PU (R7 to R11) -/

/-- R7, R8: an automatic trigger of the phase holds: the phase it leads to and the end kind it hands. -/
def Due (s : State) (p : Phase) (k : EndKind) : Prop :=
  let metered := s.mr.record.nomination ≤ s.mr.record.delivered
  let full := EveryTwShows s (ReceiptShown .allfull)
  let stop := (s.pc.phase = .starting ∨ s.pc.phase = .pumping ∨ s.pc.phase = .topping) ∧ (metered ∨ full)
  (s.pc.phase = .opening ∧ p = .starting ∧ k = .none ∧ RoleShowing s .bv ValveOpenShown)
    ∨ (stop ∧ p = .stopping ∧ (metered ∧ k = .metered ∨ ¬ metered ∧ k = .receiverfull))
    ∨ (s.pc.phase = .starting ∧ ¬ stop ∧ p = .pumping ∧ k = .none ∧ s.vp.pump = .running ∧ s.mr.startFlow = true)
    ∨ (s.pc.phase = .pumping ∧ ¬ stop ∧ p = .topping ∧ k = .none
        ∧ (s.mr.record.nomination ≤ s.mr.record.delivered + s.sl.setup.toppingMargin
            ∨ ∃ e ∈ s.sr.entries, e.role = some .tw ∧ Showing s e ToppingShown))
    ∨ (s.pc.phase = .stopping ∧ p = .closing ∧ k = .none ∧ s.vp.pump = .stopped)
    ∨ (s.pc.phase = .closing ∧ p = .ended ∧ k = .none ∧ s.mr.record.state = .sampled
        ∧ ∀ e ∈ s.sr.entries, e.protected' = true → Showing s e fun st => st.closed = true)

/-- R7: PC has no automatic step to take: the station is not RUNNING at PU, or its phase has no trigger, or a step is in
hand that a peer has not confirmed, or no trigger of the phase holds. -/
def NoStepDue (s : State) : Prop :=
  s.runningPu = false
    ∨ (s.pc.phase = .idle ∨ s.pc.phase = .lineup ∨ s.pc.phase = .paused ∨ s.pc.phase = .ended ∨ s.pc.phase = .tripped)
    ∨ Unconfirmed s
    ∨ ∀ p k, ¬ Due s p k

/-- R22, R23, R98, R142: what an automatic step into a phase does at PU, from `u` to `t`. -/
def EntryAtPu (u t : State) : Phase → Prop
  | .starting =>
      (u.vp.pump = .stopped →
          t.vp.pump = .starting ∧ t.vp.pumpRun = true ∧ t.vp.rateLow = true ∧ t.vp.feedback = ⟨true, 0⟩)
        ∧ t.mr.startLimit = ⟨true, 0⟩ ∧ t.mr.startFlow = false ∧ t.mr.windowLitres = 0 ∧ t.mr.window = ⟨true, 0⟩
  | .pumping => t.vp.rateLow = (t.vp.pumpRun && t.mr.cap) ∧ t.mr.zeroCount = 0
  | .topping => t.vp.rateLow = t.vp.pumpRun
  | .stopping =>
      t.vp.pumpRun = false ∧ t.vp.rateLow = false ∧ t.vp.feedback = ⟨false, 0⟩
        ∧ ((u.vp.pump = .starting ∨ u.vp.pump = .running) → t.vp.pump = .stopping ∧ t.vp.stopTimer = ⟨true, 0⟩)
  | _ => True

/-- R7 to R10: what PC at PU has done at `t` where it evaluated its step in hand and its triggers against `u`. -/
structure PcEvaluated (u t : State) : Prop where
  /-- R10, R11: a step in hand that some PRESENT protected peer does not show stays in hand -/
  waits : Unconfirmed u → t.pc.phase = u.pc.phase ∧ t.pc.inHand = u.pc.inHand
  /-- R10: a step in hand that every such peer shows is cleared -/
  confirms : ¬ Unconfirmed u → (∀ p k, ¬ Due u p k) → t.pc.phase = u.pc.phase ∧ t.pc.inHand = none
  /-- R7, R9: the automatic step is taken and put in hand -/
  steps : ¬ Unconfirmed u → ∀ p k, Due u p k →
    (∃ e ∈ u.sr.entries, e.protected' = true ∧ e.presence = .present ∧ ¬ Showing u e fun st => st.phase = p) →
    t.pc.phase = p ∧ t.pc.inHand = some ⟨p, u.pc.gen, ⟨true, 0⟩⟩ ∧ t.lc.status.isSome = true
      ∧ (k = .none ∨ u.mr.record.state ≠ .opened ∨ u.mr.record.endKind ≠ .none →
          t.mr.record.endKind = u.mr.record.endKind)
      ∧ (u.mr.record.state = .opened → u.mr.record.endKind = .none → t.mr.record.endKind = k)
      ∧ EntryAtPu u t p
  /-- R10: a step that every such peer shows already is confirmed at once -/
  ends : ¬ Unconfirmed u → ∀ k, Due u .ended k →
    (∀ e ∈ u.sr.entries, e.protected' = true → e.presence = .present → Showing u e fun st => st.phase = .ended) →
    t.pc.phase = .ended ∧ t.pc.inHand = none

/-- R151: at a station whose role is not TW the normal sample falls due: the record is OPEN with its external end, and every
protected TW shows COMPLETE, which is the internal end too. -/
def SampleDue (s : State) : Prop :=
  s.mr.record.state = .opened ∧ s.mr.record.externalEnd = true ∧ EveryTwShows s (ReceiptShown .complete)

/-! ## A follower and PU's STATUS (R12 to R25) -/

/-- R29, R33: a STATUS `st` of PU, station `n`, stands in the delivery slot of a RUNNING station of another role. -/
structure PuStatusWaits (s : State) (n : Nat) (st : Status) : Prop where
  running : s.running = true
  role : ∃ r, s.role = some r ∧ r ≠ .pu
  frame : ∃ l t, s.lc.delivery = some l ∧ readFrame l = some ⟨.status, ⟨n, .pu, t, st.gen⟩, .status st⟩
    ∧ s.isClash ⟨n, .pu, t, st.gen⟩ = false

/-- R15, R36, R104, R115: nothing hands a cause at the adoption of PU's STATUS `st`: no other protected peer is SILENT, no
enabled channel is in sensor fault, SEP_IN is off at BV and SV, and the transfer numbers agree where they are compared. -/
structure QuietEntry (s : State) (n : Nat) (st : Status) : Prop where
  peers : ∀ e ∈ s.sr.entries, e.protected' = true → e.number ≠ n → e.presence ≠ .silent
  scan : ∀ c : Ch, (s.hw.chans.get c).enabled = true → (s.hw.chans.get c).fault = false
  separation : s.valveRole = true → s.inputs.sep = false
  transfer : s.pc.phase = .idle ∨ s.mr.record.state = .empty ∨ st.transfer = 0 ∨ st.transfer = s.pc.transfer

/-- R84, R88: no channel in use is in FAULT. -/
def NoValveFault (s : State) : Prop := ∀ c : Ch, s.channelUsed c = true → (s.vp.channels.get c).state ≠ .fault

/-- What hands a cause at the adoption of OPENING from a STATUS of station `n`: at TW the channel of an ASSIGNED tank
that refuses its open command in FAULT (R20, R84), another protected peer of the line-up list that is SILENT (R36), an
enabled channel in sensor fault with SENSOR enabled (R104), SEP_IN on at BV and SV (R115). -/
def HandedAtOpening (s : State) (n : Nat) : Cause → Prop
  | .valve => s.hasRole .tw = true ∧ ∃ c : Ch, s.tankUsed c = true ∧ (s.ow.tanks.get c).state = .assigned
      ∧ (s.vp.channels.get c).state = .fault ∧ (s.vp.channels.get c).pending = false
  | .linkloss => ∃ e ∈ s.sr.entries, e.protected' = true ∧ e.presence = .silent ∧ e.number ≠ n
      ∧ e.number ∈ s.sl.setup.lineup ∧ ∀ x ∈ s.sr.entries, x.number = e.number → x = e
  | .sensor => s.tu.mask.sensor = true
      ∧ ∃ c : Ch, (s.hw.chans.get c).enabled = true ∧ (s.hw.chans.get c).fault = true
  | .separation => s.valveRole = true ∧ s.inputs.sep = true
  | _ => False

/-- R21, R24: the condition of a standing order holds in the table. -/
def OrderHolds (s : State) : Order → Prop
  | .openVc1 =>
      if s.hasRole .sv = true then EveryTwShows s fun st => st.path = true else RoleShowing s .sv ValveOpenShown
  | .closeVc1 => RoleShowing s .bv fun st => st.closed = true
  | .closeTanks => RoleShowing s .sv fun st => st.closed = true

/-- R85: a channel closes, or is shut, with no close pending. -/
def Channel.Closes (c : Channel) : Prop := (c.state = .closing ∨ c.state = .shut) ∧ c.pending = false

/-- R21, R24, R84, R85: a standing order carried out, from `s` to `t`: VC1 told to open, VC1 told to close, or every channel
in use told to close. -/
def OrderDone (s t : State) : Order → Prop
  | .openVc1 =>
      ((s.vp.channels.n1.state = .shut ∨ s.vp.channels.n1.state = .stopped) → s.vp.channels.n1.pending = false →
        if s.openOn .n1 = true ∧ s.shutOn .n1 = false then
          t.vp.channels.n1.state = .opened ∧ t.vp.channels.n1.command = .none
        else t.vp.channels.n1.state = .opening ∧ t.vp.channels.n1.command = .opened)
      ∧ ∀ m, m ≠ .n1 → t.vp.channels.get m = s.vp.channels.get m
  | .closeVc1 => t.vp.channels.n1.Closes ∧ ∀ m, m ≠ .n1 → t.vp.channels.get m = s.vp.channels.get m
  | .closeTanks =>
      (∀ m, s.channelUsed m = true → (t.vp.channels.get m).Closes)
        ∧ ∀ m, s.channelUsed m = false → t.vp.channels.get m = s.vp.channels.get m

/-- R28, R31: the table takes in a frame of station `n`: it has its entry, or room for one, or an entry to evict. With at
most eight protected entries (R28) it always does. -/
def TableTakes (s : State) (n : Nat) : Prop :=
  (s.sr.find n).isSome = true ∨ s.sr.entries.length < 12 ∨ ∃ e ∈ s.sr.entries, e.protected' = false

/-! ## The transmit queue (R163, R166) -/

/-- R178, R179: the request number that a REQUEST or ANSWER carries. -/
def HeldFrame.requestNumber : HeldFrame → BitVec 8
  | .request _ _ number _ _ => number
  | .answer _ _ number _ => number

/-- R163: the access wait of a frame of a kind after `n` failed attempts at station `own`, in character times: the access
gap, the kind hold-off and the retry hold-off. -/
def waitOf (own n : Nat) : FrameKind → Nat
  | .trip => 4 + 0 + n * own
  | .answer => 4 + 1 + n * own
  | .request => 4 + 2 + n * own
  | .status => 4 + (3 + own % 8) + n * own

/-! ## Frames for the Request Handler (R53, R56) -/

/-- R56: the ANSWER placed at PU: header, requester, number and outcome, in the ANSWER place. -/
def AnswerPlaced (t : State) (dest : Nat) (number : BitVec 8) (o : Decision) : Prop :=
  t.lc.answer = some ⟨some (.answer ⟨t.number, .pu, t.mr.record.transfer, t.pc.gen⟩ dest number o), 0, false⟩

/-- R54: PU's phase, step in hand, record, trip record and generation stay as they were. -/
def PuUnmoved (s t : State) : Prop :=
  t.pc.phase = s.pc.phase ∧ t.pc.inHand = s.pc.inHand ∧ t.pc.gen = s.pc.gen ∧ t.pc.transfer = s.pc.transfer
    ∧ t.tu.firstOut = s.tu.firstOut ∧ t.tu.latched = s.tu.latched ∧ t.vp.pump = s.vp.pump

/-- R47: the step that a request of a kind takes from a phase at PU; none in a phase in which it is not taken. -/
def requestStep : ReqKind → Phase → Option Phase
  | .nominate, .idle => some .lineup
  | .start, .lineup => some .opening
  | .pause, .pumping | .pause, .topping => some .paused
  | .resume, .paused => some .starting
  | .stop, .lineup => some .idle
  | .stop, .opening => some .closing
  | .stop, .starting | .stop, .pumping | .stop, .topping | .stop, .paused => some .stopping
  | .reset, .tripped => some .ended
  | .endack, .ended => some .idle
  | _, _ => none

/-- R54, R55, R72: the further condition of a kind fails at PU, with the outcome that says so. -/
def RequestFails (s : State) (k : ReqKind) (q r : Nat) (o : Decision) : Prop :=
  match k with
  | .nominate => ¬ (1 ≤ q ∧ q ≤ 9999999 ∧ 1000 ≤ r ∧ r ≤ 3000000) ∧ o = .badarg
  | .start => ¬ (s.lineupReadySet = true ∧ s.pc.ready = true) ∧ o = .notready
  | .resume => s.vp.pump ≠ .stopped ∧ o = .notready
  | .reset =>
      (∃ l ∈ s.tu.latched, s.causeActive l.cause = true) ∧ o = .causeactive
        ∨ (∀ l ∈ s.tu.latched, s.causeActive l.cause = false)
          ∧ ¬ (s.vp.pump = .stopped ∧ s.peersResettable = true) ∧ o = .notready
  | _ => False

/-- R54: PU turns a request away with an outcome, no step being in hand. The kind is none where its code is outside the
seven. -/
def TurnedAway (s : State) (kind : Option ReqKind) (q r : Nat) (o : Decision) : Prop :=
  match kind with
  | none => o = .wrongphase
  | some k =>
      if requestStep k s.pc.phase = none then o = .wrongphase else RequestFails s k q r o

/-- R31, R32: the table with a known sender's entry `e` at the front after a frame that is no usable STATUS. -/
def Roster.heard (r : Roster) (e : Entry) (role : Role) : Roster :=
  { r with entries :=
      { e with
        role := some role, presence := .present, age := 0
        last := if e.role = some role ∨ e.role = none then e.last else none }
      :: r.entries.filter fun x => x.number != e.number }

/-! ## Time -/

/-- A timer after a millisecond: stopped, it stays; running below its limit, it shows one more; at its limit it is held
(log 7). -/
def Advanced (limit : Nat) (a b : Timer) : Prop :=
  b.running = a.running ∧ (a.running = false → b.elapsed = a.elapsed)
    ∧ (a.running = true → b.elapsed = if a.elapsed < limit then a.elapsed + 1 else limit)

/-- R35, R37: an entry's age after a millisecond, held where a limit waits for its row (log 7). -/
def Older (silence : Nat) (e : Entry) (age : Nat) : Prop :=
  if e.protected' = true then
    (if e.presence = .silent then age = min 600000 (e.age + 1)
     else age = if e.age < silence then e.age + 1 else silence)
  else if e.age < silence then age = e.age + 1
  else if e.age = silence then age = silence
  else age = if e.age < 4 * silence then e.age + 1 else 4 * silence

/-! ## Events that cannot occur (log 5) -/

/-- The event of a command cannot occur in a state: what it happens to is not there, its timer does not run, its level is
the one held, or the station does not read it. -/
def CannotOccur (s : State) : Instr → Prop
  | .resetInOff _ _ => s.sl.step ≠ .hold
  | .setupRead _ => s.sl.step ≠ .read
  | .joinWindowEnd => s.pc.station ≠ .joining
  | .lineCharacter _ => s.listening = false
  | .echoTimeout => s.lc.attempt = none
  | .lineIdle => s.listening = false ∨ s.lc.attempt.isSome = true
  | .attempt =>
      s.running = false ∨ s.lc.line ≠ .quiet ∨ s.lc.attempt.isSome = true
        ∨ (s.lc.trip = none ∧ s.lc.answer = none ∧ s.lc.request = none ∧ s.lc.status = none)
  | .heartbeat => s.lc.heartbeat.running = false
  | .rosterTakeFrame => s.listening = false ∨ s.lc.delivery = none
  | .silenceLimit n =>
      s.listening = false ∨ s.sr.find n = none
        ∨ ∃ e, s.sr.find n = some e
            ∧ (e.protected' = true ∧ e.presence = .silent
              ∨ e.protected' = false ∧ s.sl.setup.silence < e.age)
  | .removalLimit n => s.listening = false ∨ ∀ e, s.sr.find n = some e → e.protected' = true
  | .stepConfirmationTimeout => s.running = false ∨ s.pc.inHand = none
  | .answerTimerExpiry => s.rh.outstanding = none
  | .reportSent => s.pp.queue = []
  | .esdInChange on => s.inputs.esd = on
  | .sepInChange on => s.inputs.sep = on
  | .ackInChange on => s.inputs.ack = on
  | .cadenceToggle .horn => s.an.horn.cadence = .off ∨ s.an.horn.cadence = .steady
  | .cadenceToggle .beacon => s.an.beacon.cadence = .off ∨ s.an.beacon.cadence = .steady
  | .hhChange n on => s.inputs.hh.get n = on
  | .qualificationExpiry q => (s.tu.qualTimer q).running = false
  | .valveSwitchChange n .openSw on => s.inputs.openSw.get n = on
  | .valveSwitchChange n .shutSw on => s.inputs.shutSw.get n = on
  | .dwellExpiry n => (s.vp.channels.get n).dwell.running = false
  | .travelLimitExpiry n => (s.vp.channels.get n).travel.running = false
  | .holdOffExpiry => s.vp.holdOff ≠ .holding
  | .pumpFbChange on => s.inputs.pumpFb = on
  | .feedbackTimerExpiry => s.vp.feedback.running = false
  | .stopTimerExpiry => s.vp.stopTimer.running = false
  | .meterPulse => s.hasRole .pu = false ∨ s.listening = false
  | .rateWindow => s.mr.window.running = false
  | .startLimitExpiry => s.mr.startLimit.running = false
  | .scanSetStart => s.listening = false ∨ s.hw.slot.isSome = true
  | .scanReading _ => s.listening = false ∨ s.hw.slot = none
  | .allowanceExpiry => s.hw.allowance.running = false
  | .relaxExpiry => s.hw.relax.running = false
  | .claimWaitExpiry => s.ow.claim.waiting = false
  | .settleWindowExpiry => s.ow.receipt ≠ .settling ∨ s.ow.settleWindow.running = false
  | .settleLimitExpiry => s.ow.receipt ≠ .settling ∨ s.ow.settleLimit.running = false
  | _ => False

/-! ## A typed line (R198) -/

/-- R198: a letter without regard to case. -/
def raised (b : Byte) : Byte := if 0x61 ≤ b.toNat ∧ b.toNat ≤ 0x7A then b - 0x20 else b

/-- R198: a line as it is typed splits into words: spaces may stand before, between and after them, and letters may have
either case. -/
inductive Typed : List (List Byte) → List Byte → Prop
  | blank (gap : List Byte) : (∀ b ∈ gap, b = 0x20) → Typed [] gap
  | word (gap w rest : List Byte) (ws : List (List Byte)) : (∀ b ∈ gap, b = 0x20) → w ≠ [] → (∀ b ∈ w, b ≠ 0x20) →
      (∀ b, rest.head? = some b → b = 0x20) → Typed ws rest → Typed (w.map raised :: ws) (gap ++ w ++ rest)

/-- R198: a number as a word: one to ten decimal digits, at most 4,294,967,295. -/
def Spells (w : List Byte) (n : Nat) : Prop :=
  1 ≤ w.length ∧ w.length ≤ 10 ∧ (∀ b ∈ w, 0x30 ≤ b.toNat ∧ b.toNat ≤ 0x39)
    ∧ n = w.foldl (fun n b => 10 * n + (b.toNat - 0x30)) 0 ∧ n ≤ 4294967295

/-- R203: the words after READ, for the rows that read. -/
def ReadFits : Instr → List (List Byte) → Prop
  | .readPhase, ws => ws = [word ['P', 'H', 'A', 'S', 'E']]
  | .readRoster none, ws => ws = [word ['R', 'O', 'S', 'T', 'E', 'R']]
  | .readRoster (some n), ws => ∃ w, ws = [word ['R', 'O', 'S', 'T', 'E', 'R'], w] ∧ Spells w n
  | .readTrip, ws => ws = [word ['T', 'R', 'I', 'P']]
  | .readAlarm, ws => ws = [word ['A', 'L', 'A', 'R', 'M']]
  | .readValve none, ws => ws = [word ['V', 'A', 'L', 'V', 'E']]
  | .readValve (some n), ws => ∃ w, ws = [word ['V', 'A', 'L', 'V', 'E'], w] ∧ Spells w n
  | .readPump, ws => ws = [word ['P', 'U', 'M', 'P']]
  | .readScan, ws => ws = [word ['S', 'C', 'A', 'N']]
  | .readTank none, ws => ws = [word ['T', 'A', 'N', 'K']]
  | .readTank (some n), ws => ∃ w, ws = [word ['T', 'A', 'N', 'K'], w] ∧ Spells w n
  | .readRecord, ws => ws = [word ['R', 'E', 'C', 'O', 'R', 'D']]
  | .readSetup, ws => ws = [word ['S', 'E', 'T', 'U', 'P']]
  | .readPanel, ws => ws = [word ['P', 'A', 'N', 'E', 'L']]
  | _, _ => False

/-- R198: the words of a line fit the form of a panel row. -/
def Fits : Instr → List (List Byte) → Prop
  | .nominate q r, ws => ∃ a b, ws = [ReqKind.nominate.text, a, b] ∧ Spells a q ∧ Spells b r
  | .start, ws => ws = [ReqKind.start.text]
  | .pause, ws => ws = [ReqKind.pause.text]
  | .resume, ws => ws = [ReqKind.resume.text]
  | .stop, ws => ws = [ReqKind.stop.text]
  | .reset, ws => ws = [ReqKind.reset.text]
  | .endack, ws => ws = [ReqKind.endack.text]
  | .trip, ws => ws = [CommandWord.trip.text]
  | .silence, ws => ws = [CommandWord.silence.text]
  | .assign t, ws => ∃ w, ws = [CommandWord.assign.text, w] ∧ Spells w t
  | .unassign t, ws => ∃ w, ws = [CommandWord.unassign.text, w] ∧ Spells w t
  | .mask .all, ws => ws = [CommandWord.mask.text, word ['A', 'L', 'L']]
  | .mask (.names l), ws => ws = CommandWord.mask.text :: l.map classText
  | i, ws => ∃ rest, ws = CommandWord.read.text :: rest ∧ ReadFits i rest

/-! ## The setup image (R188, R190) -/

/-- R188: the periods of SM_CLK of a read that took an image: 712 of them; 0B1H and 0000H sent, most significant bit first;
then the 86 bytes taken, address 0 first, each most significant bit first. -/
structure SerialReadOf (image : Image) (l : List SmPeriod) : Prop where
  periods : l.length = 712
  sent : l.take 24
    = ([true, false, true, true, false, false, false, true] ++ List.replicate 16 false).map SmPeriod.sent
  taken : ∀ (i : Fin 86) (j : Nat), j < 8 → l[24 + 8 * i.val + j]? = some (.taken (image[i].getLsbD (7 - j)))

/-- R189, R190: check 3 at one offset: where the role uses the field that begins there, `k` being the tank count, its value
lies in its range. -/
def FieldInRange (l : List Byte) (r : Role) (k o : Nat) : Prop :=
  let byte := byteAt l o
  let two := 256 * byteAt l o + byteAt l (o + 1)
  (o = 0 → byte ≤ 1) ∧ (o = 1 → byte ≤ 3) ∧ (2 ≤ o → o ≤ 9 → byte ≤ 15)
    ∧ (o = 12 → (r = .bv ∨ r = .sv ∨ r = .tw) → 2 ≤ byte ∧ byte ≤ 30)
    ∧ (o = 13 → r = .pu → 30 ≤ byte ∧ byte ≤ 120)
    ∧ ((r = .pu ∨ r = .bv ∨ r = .sv) →
        (o = 14 → 200 ≤ two ∧ two ≤ 2500) ∧ (o = 16 → 1 ≤ byte ∧ byte ≤ 25) ∧ (17 ≤ o → o ≤ 19 → byte ≤ 3))
    ∧ (r = .sv → (o = 20 → 50 ≤ two ∧ two ≤ 500) ∧ (o = 22 → byte ≤ 3))
    ∧ (∀ n : Ch, (n = .n1 ∧ (r = .bv ∨ r = .sv) ∨ r = .tw ∧ n.num ≤ k) → o = 22 + n.num → 1 ≤ byte ∧ byte ≤ 25)
    ∧ (∀ n : Ch, (n = .n1 ∧ (r = .pu ∨ r = .bv ∨ r = .sv) ∨ r = .tw ∧ n.num ≤ k) → o = 25 + 2 * n.num → 1 ≤ two)
    ∧ (r = .pu → (o = 35 → 1 ≤ two ∧ two ≤ 32767) ∧ (o = 41 → 256 * two + byteAt l (o + 2) ≤ 999999))

/-- R190: check 4 at one offset of the record of tank `n`: a level in range and above the level before it, and the litres
per mm in range. -/
def TankFieldInRange (l : List Byte) (n : Ch) (o : Nat) : Prop :=
  let at' := fun i : Nat => 256 * byteAt l i + byteAt l (i + 1)
  let base := 44 + 10 * (n.num - 1)
  (o = base → at' o ≤ 30000)
    ∧ ((o = base + 2 ∨ o = base + 4 ∨ o = base + 6) → at' o ≤ 30000 ∧ at' (o - 2) < at' o)
    ∧ (o = base + 8 → 1 ≤ at' o ∧ at' o ≤ 9999)

/-! ## The sound shape of a state: what every operation of the station keeps -/

/-- R162: the attempt counts of the transmit queue. -/
def LinkController.countsOk (l : LinkController) : Prop :=
  (∀ p, l.trip = some p → p.attempts ≤ 8) ∧ (∀ p, l.answer = some p → p.attempts ≤ 7)
    ∧ (∀ p, l.request = some p → p.attempts ≤ 7) ∧ (∀ p, l.status = some p → p.attempts ≤ 7)

/-- R81, R83, R89: the states of a channel as the table of R81 gives them: the command it holds and the drive that may
be on. -/
structure Channel.Ok (c : Channel) : Prop where
  /-- OPENING is an open command carried out -/
  opening : c.state = .opening ↔ c.command = .opened
  /-- CLOSING is a close command carried out -/
  closing : c.state = .closing → c.command = .close ∧ c.pending = false
  /-- a close command that is not pending is being carried out -/
  commanded : c.command = .close → c.pending = true ∨ c.state = .closing
  /-- close pending stands on an OPEN, STOPPED or FAULT channel -/
  pending : c.pending = true → c.command = .close ∧ (c.state = .opened ∨ c.state = .stopped ∨ c.state = .fault)
  /-- the open drive is on in OPENING alone -/
  openDrive : c.drive = .opened → c.state = .opening
  /-- the close drive is on in CLOSING alone -/
  closeDrive : c.drive = .close → c.state = .closing

/-- R75: at most one entry for each kind and detail. -/
def alarmsDistinct (set : List AlarmEntry) : Prop := (set.map AlarmEntry.key).Nodup

/-- The shape of a state that the manual gives in its bounds: the report queue (R202), the attempt counts (R162), the
alarm set (R75), the channel records (R81). -/
structure Sound (s : State) : Prop where
  queue : s.pp.queue.length ≤ 8
  counts : s.lc.countsOk
  alarms : alarmsDistinct s.an.set
  channels : ∀ n : Ch, (s.vp.channels.get n).Ok

/-! ## Invariants of a step -/

/-- R27: the table. -/
structure RosterOk (s : State) : Prop where
  places : s.sr.entries.length ≤ 12
  distinct : (s.sr.entries.map Entry.number).Nodup

/-- R169, R197: what is being assembled, on the line and at the panel. -/
structure BuffersOk (s : State) : Prop where
  frame : s.lc.assembly.bytes.length ≤ 64
  line : s.pp.buffer.length ≤ 40

/-- R162: outside RUNNING no frame is placed and none is on the line. -/
def QuietOutsideRunning (s : State) : Prop :=
  s.running = false →
    s.lc.trip = none ∧ s.lc.answer = none ∧ s.lc.request = none ∧ s.lc.status = none ∧ s.lc.attempt = none

/-- R60, R68: a latched cause means a RUNNING station in TRIPPED. -/
def LatchedMeansTripped (s : State) : Prop := s.tu.latched ≠ [] → s.running = true ∧ s.pc.phase = .tripped

/-- R94: PUMP_RUN is on only at a RUNNING PU in STARTING, PUMPING or TOPPING. -/
def RunMeansPumping (s : State) : Prop :=
  s.vp.pumpRun = true → s.runningPu = true ∧ s.pc.phase.pumpOn = true

/-- R79: HORN and BEACON sound what the alarm set gives. -/
def SoundersFollow (s : State) : Prop :=
  s.an.horn.cadence = hornCadence s.an.set ∧ s.an.beacon.cadence = beaconCadence s.an.set

/-- R139: once the setup is frozen at PU, the residual is less than the meter factor K. -/
def ResidualBelowK (s : State) : Prop :=
  if s.sl.step = .frozen ∧ s.hasRole .pu = true then s.mr.residual < s.sl.setup.meterK else s.mr.residual = 0

/-- R9: a step in hand is held at PU alone. -/
def InHandAtPu (s : State) : Prop := s.pc.inHand.isSome = true → s.runningPu = true

/-- R186, R187, R192: the sequence step and the station state agree, and from READ on there is a role. -/
structure SequenceOk (s : State) : Prop where
  startup : s.pc.station = .startup ↔ s.sl.step = .hold ∨ s.sl.step = .straps ∨ s.sl.step = .read ∨ s.sl.step = .check
  frozen : s.pc.station = .joining ∨ s.pc.station = .running → s.sl.step = .frozen
  role : s.sl.step = .read ∨ s.sl.step = .frozen → s.role.isSome = true
  idle : s.running = false → s.pc.phase = .idle

end Sys2Proof.Machine
end

