-- ==== Sys2Proof/Certificates/Slice0/Obligations.lean ====
section
/-! DEFINITION. The statements for the provers. -/

open Sys2Proof Sys2Proof.Machine

/-! ## One step -/

/-- O1. A step takes the command at the front of the queue and runs it on the state with the queue's rest. -/
def Obligations.StepTakesFront : Prop :=
  ∀ (c : Instr) (rest : List Instr) (s : State),
    step { s with pending := c :: rest } = exec c { s with pending := rest }

/-- O2. With no command waiting a step lets a millisecond pass (the model's choice, log 6): every running timer below
its limit shows one millisecond more, and one at its limit is held there for the row of its expiry (log 7); a stopped
timer stays; in JOINING and RUNNING the ages and the idle time advance; and nothing else changes. -/
def Obligations.IdleStepMovesTimersOnly : Prop :=
  ∀ s : State, s.pending = [] →
    ∃ t, step s = .next t
      ∧ t = { s with
          sl := { s.sl with joinWindow := t.sl.joinWindow }
          pc := { s.pc with inHand := t.pc.inHand }
          sr := { s.sr with entries := t.sr.entries }
          rh := { s.rh with outstanding := t.rh.outstanding }
          tu := { s.tu with overfill := t.tu.overfill, surge := t.tu.surge, leak := t.tu.leak }
          an := { s.an with
            horn := { s.an.horn with half := t.an.horn.half }, beacon := { s.an.beacon with half := t.an.beacon.half } }
          vp := { s.vp with
            channels := t.vp.channels, holdOffTimer := t.vp.holdOffTimer, feedback := t.vp.feedback
            stopTimer := t.vp.stopTimer }
          hw := { s.hw with setTimer := t.hw.setTimer, allowance := t.hw.allowance, relax := t.hw.relax }
          ow := { s.ow with
            claim := { s.ow.claim with timer := t.ow.claim.timer }, settleWindow := t.ow.settleWindow
            settleLimit := t.ow.settleLimit }
          mr := { s.mr with window := t.mr.window, startLimit := t.mr.startLimit }
          lc := { s.lc with idle := t.lc.idle, heartbeat := t.lc.heartbeat } }
      ∧ Advanced (2 * s.sl.setup.silence) s.sl.joinWindow t.sl.joinWindow
      ∧ (s.pc.inHand = none → t.pc.inHand = none)
      ∧ (∀ h, s.pc.inHand = some h → ∃ x, t.pc.inHand = some { h with timer := x } ∧ Advanced 5000 h.timer x)
      ∧ (s.rh.outstanding = none → t.rh.outstanding = none)
      ∧ (∀ o, s.rh.outstanding = some o →
          ∃ x, t.rh.outstanding = some { o with timer := x } ∧ Advanced 1000 o.timer x)
      ∧ (s.listening = false → t.sr.entries = s.sr.entries ∧ t.lc.idle = s.lc.idle)
      ∧ (s.listening = true →
          t.sr.entries.map (fun e => { e with age := 0 }) = s.sr.entries.map (fun e => { e with age := 0 })
            ∧ (∀ (i : Nat) (e e' : Entry), s.sr.entries[i]? = some e → t.sr.entries[i]? = some e' →
                Older s.sl.setup.silence e e'.age)
            ∧ t.lc.idle = s.lc.idle + (if s.sl.setup.fastLink = true then 384 else 192))
      ∧ (∀ n : Ch, (t.tu.overfill.get n).armed = (s.tu.overfill.get n).armed
          ∧ Advanced 1000 (s.tu.overfill.get n).timer (t.tu.overfill.get n).timer)
      ∧ t.tu.surge.armed = s.tu.surge.armed ∧ Advanced s.sl.setup.surgeQual s.tu.surge.timer t.tu.surge.timer
      ∧ t.tu.leak.armed = s.tu.leak.armed ∧ Advanced s.sl.setup.leakQual s.tu.leak.timer t.tu.leak.timer
      ∧ Advanced (if s.an.horn.cadence = .fast then 250 else 1000) s.an.horn.half t.an.horn.half
      ∧ Advanced (if s.an.beacon.cadence = .fast then 250 else 1000) s.an.beacon.half t.an.beacon.half
      ∧ (∀ n : Ch, ∃ d v, t.vp.channels.get n = { s.vp.channels.get n with dwell := d, travel := v }
          ∧ Advanced 500 (s.vp.channels.get n).dwell d
          ∧ Advanced (1000 * s.sl.setup.travel.get n) (s.vp.channels.get n).travel v)
      ∧ Advanced (1000 * s.sl.setup.holdOff) s.vp.holdOffTimer t.vp.holdOffTimer
      ∧ Advanced 10000 s.vp.feedback t.vp.feedback ∧ Advanced 30000 s.vp.stopTimer t.vp.stopTimer
      ∧ Advanced 1000 s.hw.setTimer t.hw.setTimer
      ∧ Advanced (1000 * s.sl.setup.allowance) s.hw.allowance t.hw.allowance
      ∧ Advanced (1000 * s.sl.setup.relax) s.hw.relax t.hw.relax
      ∧ Advanced 500 s.ow.claim.timer t.ow.claim.timer ∧ Advanced 20000 s.ow.settleWindow t.ow.settleWindow
      ∧ Advanced 120000 s.ow.settleLimit t.ow.settleLimit
      ∧ Advanced 10000 s.mr.window t.mr.window
      ∧ Advanced (1000 * s.sl.setup.startLimit) s.mr.startLimit t.mr.startLimit
      ∧ Advanced 250 s.lc.heartbeat t.lc.heartbeat

/-- O3. Every command answers in every state, and none touches the queue it came from. Where its event cannot occur,
the state it answers is the state it met: that is the model's reading (log 5). -/
def Obligations.EveryCommandAnswers : Prop :=
  ∀ (c : Instr) (s : State),
    (∃ t, exec c s = .next t ∧ t.pending = s.pending) ∧ (CannotOccur s c → exec c s = .next s)

/-! ## Start-up -/

/-- O4. The values the start-up rules give, in the machine right after reset; and START_UP (R186) in any state: every
block is at its start-up values, the inputs keep their levels with RESET_IN on, and each channel at rest follows its
switches (R82). The model's own choices are among them: the levels of the inputs are kept (log 1), no station and no
role are held before the straps (log 2), the setup, the spans and the pressure levels are 0 (log 3), the leak
condition is gone (log 25), the model's own fields (log 35), the pump state STOPPING before the role is known (log
41), and the empty report queue with no event of the clearing of the two records or of a claim's end (log 50). That a
stopped timer shows 0 is the model's choice (log 66). -/
def Obligations.StartUpValues : Prop :=
  (State.reset.sl.step = .hold ∧ State.reset.sl.fault = .none ∧ State.reset.sl.image = none
    ∧ State.reset.sl.serial = [] ∧ State.reset.smSel = false
    ∧ State.reset.pc.station = .startup ∧ State.reset.pc.phase = .idle ∧ State.reset.pc.transfer = 0
    ∧ State.reset.pc.gen = 0 ∧ State.reset.pc.inHand = none ∧ State.reset.pc.ready = false
    ∧ State.reset.pc.path = false ∧ State.reset.pc.closed = false
    ∧ State.reset.sr.entries = [] ∧ State.reset.sr.join = ⟨none, none, none, none, false⟩
    ∧ State.reset.rh = ⟨0, none⟩
    ∧ State.reset.tu.firstOut = none ∧ State.reset.tu.latched = [] ∧ State.reset.tu.cause = false
    ∧ State.reset.tu.mask = ⟨true, true, true, true⟩
    ∧ (∀ n : Ch, (State.reset.tu.overfill.get n).timer = ⟨false, 0⟩)
    ∧ State.reset.tu.surge.timer = ⟨false, 0⟩ ∧ State.reset.tu.leak.timer = ⟨false, 0⟩
    ∧ State.reset.an.set = [] ∧ State.reset.an.horn.cadence = .off ∧ State.reset.an.horn.on = false
    ∧ State.reset.an.beacon.cadence = .off ∧ State.reset.an.beacon.on = false
    ∧ (∀ n : Ch, (State.reset.vp.channels.get n).command = .none ∧ (State.reset.vp.channels.get n).pending = false
        ∧ (State.reset.vp.channels.get n).drive = .off ∧ (State.reset.vp.channels.get n).dwell = ⟨false, 0⟩
        ∧ (State.reset.vp.channels.get n).travel = ⟨false, 0⟩)
    ∧ State.reset.vp.holdOff = .none ∧ State.reset.vp.holdOffTimer = ⟨false, 0⟩
    ∧ State.reset.vp.pump = .stopping ∧ State.reset.vp.feedback = ⟨false, 0⟩
    ∧ State.reset.vp.stopTimer = ⟨false, 0⟩ ∧ State.reset.vp.pumpRun = false ∧ State.reset.vp.rateLow = false
    ∧ (∀ n : Ch, (State.reset.hw.chans.get n).enabled = false ∧ (State.reset.hw.chans.get n).lastRaw = none
        ∧ (State.reset.hw.chans.get n).value = none ∧ (State.reset.hw.chans.get n).fault = false
        ∧ (State.reset.hw.chans.get n).badCount = 0 ∧ (State.reset.hw.chans.get n).goodCount = 0)
    ∧ State.reset.hw.hardCount = 0 ∧ State.reset.hw.excursion = .none
    ∧ State.reset.hw.allowance = ⟨false, 0⟩ ∧ State.reset.hw.relax = ⟨false, 0⟩
    ∧ (∀ n : Ch, State.reset.ow.tanks.get n = ⟨.excluded, false, none, false, 0, false, false, 0⟩)
    ∧ State.reset.ow.claim = ⟨false, none, ⟨false, 0⟩⟩ ∧ State.reset.ow.receipt = .none
    ∧ State.reset.ow.received = 0
    ∧ State.reset.mr.residual = 0 ∧ State.reset.mr.stray = 0 ∧ State.reset.mr.window = ⟨false, 0⟩
    ∧ State.reset.mr.windowLitres = 0 ∧ State.reset.mr.lastRate = none ∧ State.reset.mr.startFlow = false
    ∧ State.reset.mr.startLimit = ⟨false, 0⟩ ∧ State.reset.mr.zeroCount = 0 ∧ State.reset.mr.cap = false
    ∧ State.reset.mr.belowCount = 0 ∧ State.reset.mr.record.state = .empty
    ∧ State.reset.lc.line = .quiet ∧ State.reset.lc.trip = none ∧ State.reset.lc.answer = none
    ∧ State.reset.lc.request = none ∧ State.reset.lc.status = none
    ∧ State.reset.lc.assembly.condition = .hunting ∧ State.reset.lc.check = none ∧ State.reset.lc.delivery = none
    ∧ State.reset.pp.buffer = [] ∧ State.reset.pp.overlong = false
    ∧ State.reset.pp.mask = ⟨true, true, true, true, true, false⟩ ∧ State.reset.pp.queue = []
    ∧ State.reset.pp.lost = false ∧ State.reset.pending = [])
  ∧ (∀ s : State, ∃ t, exec .startUp s = .next t
    ∧ t.inputs = { s.inputs with resetIn := true } ∧ t.smSel = false
    ∧ t.sl = State.reset.sl ∧ t.pc = State.reset.pc ∧ t.sr = State.reset.sr ∧ t.rh = State.reset.rh
    ∧ t.tu = State.reset.tu ∧ t.an = State.reset.an ∧ t.hw = State.reset.hw ∧ t.ow = State.reset.ow
    ∧ t.mr = State.reset.mr ∧ t.lc = State.reset.lc ∧ t.pp = State.reset.pp ∧ t.pending = s.pending
    ∧ t.draws = s.draws ∧ t.vp.holdOff = .none ∧ t.vp.holdOffTimer = ⟨false, 0⟩ ∧ t.vp.pump = .stopping
    ∧ t.vp.feedback = ⟨false, 0⟩ ∧ t.vp.stopTimer = ⟨false, 0⟩ ∧ t.vp.pumpRun = false ∧ t.vp.rateLow = false
    ∧ (∀ n : Ch, (t.vp.channels.get n).command = .none ∧ (t.vp.channels.get n).pending = false
        ∧ (t.vp.channels.get n).drive = .off ∧ (t.vp.channels.get n).dwell = ⟨false, 0⟩
        ∧ (t.vp.channels.get n).travel = ⟨false, 0⟩
        ∧ (t.vp.channels.get n).state =
            (match s.inputs.openSw.get n, s.inputs.shutSw.get n with
             | false, true => .shut
             | true, false => .opened
             | false, false => .stopped
             | true, true => .fault)))

/-- O5. RESET_IN_OFF (R187): with valid straps the number and the role are kept, the READ step follows with SM_SEL on
(R188), and the pump state is STOPPED at every role but PU (R94; that it waits for the straps is the model's reading,
log 41). With an invalid strap (R191, R193): REJECTED and OFFLINE with reason STRAP, SN named before RL, the SETUP
alarm sounding, and the setup memory not read. -/
def Obligations.StrapsRead : Prop :=
  (∀ (s : State) (sn : BitVec 4) (rl : BitVec 3) (r : Role), s.sl.step = .hold → sn ≠ 0 →
    ((rl = 1 ∧ r = .pu) ∨ (rl = 2 ∧ r = .bv) ∨ (rl = 3 ∧ r = .sv) ∨ (rl = 4 ∧ r = .tw) ∨ (rl = 5 ∧ r = .mn)) →
    ∃ t, exec (.resetInOff sn rl) s = .next t ∧ t.sl.step = .read ∧ t.number = sn.toNat ∧ t.role = some r
      ∧ s.smSel = false ∧ t.smSel = true
      ∧ t.inputs = { s.inputs with resetIn := false } ∧ (r = .pu → t.vp = s.vp)
      ∧ (r ≠ .pu → t.vp = { s.vp with pump := .stopped })
      ∧ Frame [.inputs, .setup, .pump] s t)
  ∧ (∀ (s : State) (sn : BitVec 4) (rl : BitVec 3), s.sl.step = .hold → s.an.set = [] →
    (sn = 0 ∨ rl = 0 ∨ rl = 6 ∨ rl = 7) →
    ∃ t, exec (.resetInOff sn rl) s = .next t ∧ t.sl.step = .rejected ∧ t.pc.station = .offline
      ∧ t.sl.fault = (if sn = 0 then .strap true 0 else .strap false rl.toNat)
      ∧ t.smSel = false ∧ t.sl.serial = s.sl.serial ∧ t.sl.image = s.sl.image
      ∧ t.an.set = [⟨.setup .strap, .activeNew⟩] ∧ t.an.horn.cadence = .slow ∧ t.an.beacon.cadence = .slow
      ∧ t.vp.pumpRun = false ∧ (∀ n : Ch, (t.vp.channels.get n).drive = .off)
      ∧ Frame [.inputs, .setup, .station, .flags, .timers, .alarms, .channels, .pump, .scan, .pressure,
          .receive, .heartbeat, .frames, .reports] s t)

/-- O6. SETUP_READ (R188, R192, R28, R38, R100, R101) with an image every check of R190 passes: the serial read, 712
periods with 0B1H and 0000H sent and the 86 bytes taken, and SM_SEL off; FROZEN, JOINING, the protected entries ABSENT with age 0 in the order of the line-up list, the join summary empty, the channels of the role
enabled with their spans and the first set begun, the profile mask, and the pump's stop timer at PU. -/
def Obligations.SetupAccepted : Prop :=
  ∀ (s : State) (image : Image) (r : Role), s.sl.step = .read → s.role = some r →
    setupFailure image.toList r = none →
    ∃ t, exec (.setupRead image) s = .next t ∧ t.sl.step = .frozen ∧ t.pc.station = .joining
      ∧ t.sl.setup = freezeSetup image.toList r ∧ t.sl.image = some image ∧ t.sl.joinWindow = ⟨true, 0⟩
      ∧ s.smSel = true ∧ SerialReadOf image t.sl.serial ∧ t.smSel = false
      ∧ (∀ e ∈ t.sr.entries, e.protected' = true ∧ e.presence = .absent ∧ e.age = 0 ∧ e.role = none ∧ e.last = none)
      ∧ (t.sr.entries.map Entry.number).Nodup
      ∧ (∀ n, n ∈ t.sr.entries.map Entry.number ↔ n ∈ t.sl.setup.lineup ∧ n ≠ 0 ∧ n ≠ s.number)
      ∧ t.sr.join = ⟨none, none, none, none, false⟩
      ∧ (t.sr.entries.map Entry.number).Pairwise (fun a b => t.sl.setup.lineup.idxOf a < t.sl.setup.lineup.idxOf b)
      ∧ (∀ n : Ch, t.hw.chans.get n =
          (if (n = .n1 ∧ (r = .pu ∨ r = .bv ∨ r = .sv)) ∨ (r = .tw ∧ n.num ≤ t.sl.setup.tankCount) then
            { s.hw.chans.get n with enabled := true, span := t.sl.setup.span.get n }
          else s.hw.chans.get n))
      ∧ (∀ n : Ch, (t.hw.chans.get n).enabled = true → (∀ m : Ch, m.num < n.num → (t.hw.chans.get m).enabled = false) →
          t.hw.slot = some n ∧ t.hw.setTimer = ⟨true, 0⟩)
      ∧ t.tu.mask = t.sl.setup.mask
      ∧ t.vp.stopTimer = (if r = .pu then ⟨true, 0⟩ else s.vp.stopTimer)
      ∧ t.lc = s.lc
      ∧ Frame [.setup, .station, .roster, .profile, .pump, .readings, .levels, .scan, .tanks] s t

/-- O7. SETUP_READ (R188, R190, R191, R193) with an image that fails a check: the serial read as in SetupAccepted;
REJECTED and OFFLINE with reason SETUP and the check and offset named. A wrong check word is check 1, and every image is covered by SetupAccepted or
SetupRejected. -/
def Obligations.SetupRejected : Prop :=
  ∀ (s : State) (image : Image) (r : Role) (check offset : Nat), s.sl.step = .read → s.role = some r →
    s.an.set = [] → setupFailure image.toList r = some (check, offset) →
    (∃ t, exec (.setupRead image) s = .next t ∧ t.sl.step = .rejected ∧ t.pc.station = .offline
      ∧ t.sl.fault = .setup check offset ∧ t.sl.image = some image ∧ t.sl.setup = s.sl.setup
      ∧ SerialReadOf image t.sl.serial ∧ t.smSel = false
      ∧ t.an.set = [⟨.setup .setup, .activeNew⟩]
      ∧ Frame [.setup, .station, .flags, .timers, .alarms, .channels, .pump, .scan, .pressure, .receive,
          .heartbeat, .frames, .reports] s t)
    ∧ ((frameCheck (image.toList.take 84)).toNat ≠ numAt image.toList 84 2 → check = 1 ∧ offset = 84)

/-- O8. R189, R190: each field of the frozen setup is what its bytes of the image spell (a field that the role does
not use is 0: the model's choice, log 3), and the checks 2, 3 and 4 of an image whose check word is right name the
first field that fails. That a list's element that fails is named by its own offset is the model's reading (log
19); that of two levels that do not increase the later is named is its choice (log 77). -/
def Obligations.SetupBytes : Prop :=
  (∀ (l : List Byte) (r : Role) (c : Setup), l.length = 86 → c = freezeSetup l r →
      let two := fun o : Nat => 256 * byteAt l o + byteAt l (o + 1)
      (c.fastLink = true ↔ byteAt l 0 = 1)
        ∧ [(0, 500), (1, 1000), (2, 2000), (3, 4000)].all (fun p : Nat × Nat =>
            byteAt l 1 != p.1 || c.silence == p.2) = true
        ∧ c.lineup = [byteAt l 2, byteAt l 3, byteAt l 4, byteAt l 5, byteAt l 6, byteAt l 7, byteAt l 8, byteAt l 9]
        ∧ c.tankCount = (if r = .tw then byteAt l 10 else 0)
        ∧ (c.mask.surge = true ↔ byteAt l 11 % 2 = 1) ∧ (c.mask.leak = true ↔ byteAt l 11 / 2 % 2 = 1)
        ∧ (c.mask.noflow = true ↔ byteAt l 11 / 4 % 2 = 1) ∧ (c.mask.sensor = true ↔ byteAt l 11 / 8 % 2 = 1)
        ∧ c.holdOff = (if r = .bv ∨ r = .sv ∨ r = .tw then byteAt l 12 else 0)
        ∧ c.startLimit = (if r = .pu then byteAt l 13 else 0)
        ∧ ((r = .pu ∨ r = .bv ∨ r = .sv) → c.rated = two 14 ∧ c.surgeCode = byteAt l 16
          ∧ [(0, 250), (1, 500), (2, 1000), (3, 2000)].all (fun p : Nat × Nat =>
              byteAt l 17 != p.1 || c.surgeQual == p.2) = true
          ∧ [(0, 1), (1, 2), (2, 5), (3, 10)].all (fun p : Nat × Nat =>
              byteAt l 18 != p.1 || c.allowance == p.2) = true
          ∧ [(0, 20), (1, 40), (2, 80), (3, 160)].all (fun p : Nat × Nat =>
              byteAt l 19 != p.1 || c.relax == p.2) = true)
        ∧ ((r = .tw ∨ r = .mn) → c.rated = 0 ∧ c.surgeCode = 0 ∧ c.surgeQual = 0 ∧ c.allowance = 0 ∧ c.relax = 0)
        ∧ (r = .sv → c.leakBand = two 20
          ∧ [(0, 2000), (1, 5000), (2, 10000), (3, 20000)].all (fun p : Nat × Nat =>
              byteAt l 22 != p.1 || c.leakQual == p.2) = true)
        ∧ (r ≠ .sv → c.leakBand = 0 ∧ c.leakQual = 0)
        ∧ (∀ n : Ch, c.travel.get n =
            (if (n = .n1 ∧ (r = .bv ∨ r = .sv)) ∨ (r = .tw ∧ n.num ≤ byteAt l 10) then 10 * byteAt l (22 + n.num)
             else 0))
        ∧ (∀ n : Ch, c.span.get n =
            (if (n = .n1 ∧ (r = .pu ∨ r = .bv ∨ r = .sv)) ∨ (r = .tw ∧ n.num ≤ byteAt l 10) then two (25 + 2 * n.num)
             else 0))
        ∧ c.meterK = (if r = .pu then two 35 else 0) ∧ c.quantityTol = two 37 ∧ c.mismatchTol = two 39
        ∧ c.toppingMargin = (if r = .pu then 256 * two 41 + byteAt l 43 else 0)
        ∧ (∀ n : Ch, c.tanks.get n =
            (if r = .tw ∧ n.num ≤ byteAt l 10 then
              ⟨two (34 + 10 * n.num), two (36 + 10 * n.num), two (38 + 10 * n.num), two (40 + 10 * n.num),
                two (42 + 10 * n.num)⟩
             else ⟨0, 0, 0, 0, 0⟩))
        ∧ c.checkWord.toNat = two 84)
  ∧ (∀ (l : List Byte) (r : Role) (k : Nat), l.length = 86 → k = byteAt l 10 →
      (frameCheck (l.take 84)).toNat = 256 * byteAt l 84 + byteAt l 85 →
      (r = .tw → k < 1 ∨ 4 < k → setupFailure l r = some (2, 10))
        ∧ ((r = .tw → 1 ≤ k ∧ k ≤ 4) →
          (∀ o, ¬ FieldInRange l r k o → (∀ o', o' < o → FieldInRange l r k o') →
              setupFailure l r = some (3, o))
            ∧ ((∀ o, FieldInRange l r k o) →
              (∀ (n : Ch) (o : Nat), r = .tw → n.num ≤ k → ¬ TankFieldInRange l n o →
                  (∀ o', o' < o → TankFieldInRange l n o') →
                  (∀ (m : Ch) (o' : Nat), m.num < n.num → TankFieldInRange l m o') →
                  setupFailure l r = some (4, o))
                ∧ ((r = .tw → ∀ (n : Ch) (o : Nat), n.num ≤ k → TankFieldInRange l n o) →
                  setupFailure l r = none))))

/-- O9. R106: the three pressure levels are computed at JOINING entry at PU, BV and SV, and kept until the next
start-up, whatever command comes; what above and below a level mean, and what each level is used for; at TW and MN
they are neither computed nor used. -/
def Obligations.PressureLevels : Prop :=
  (∀ (s : State) (image : Image) (r : Role), s.sl.step = .read → s.role = some r →
      setupFailure image.toList r = none → (r = .pu ∨ r = .bv ∨ r = .sv) →
      ∃ t, exec (.setupRead image) s = .next t ∧ t.pc.station = .joining
        ∧ t.hw.surgeThreshold = t.sl.setup.rated * (105 + 5 * t.sl.setup.surgeCode) / 100
        ∧ t.hw.hardLimit = t.hw.surgeThreshold * 110 / 100
        ∧ t.hw.settleLevel = t.sl.setup.rated * 10 / 100
        ∧ 200 ≤ t.sl.setup.rated ∧ t.sl.setup.rated ≤ 2500 ∧ 1 ≤ t.sl.setup.surgeCode ∧ t.sl.setup.surgeCode ≤ 25)
  ∧ (∀ (s : State) (image : Image) (r : Role), s.sl.step = .read → s.role = some r →
      setupFailure image.toList r = none → (r = .tw ∨ r = .mn) →
      ∃ t, exec (.setupRead image) s = .next t ∧ t.pc.station = .joining
        ∧ t.hw.surgeThreshold = s.hw.surgeThreshold ∧ t.hw.hardLimit = s.hw.hardLimit
        ∧ t.hw.settleLevel = s.hw.settleLevel)
  ∧ (∀ (c : Instr) (s t : State), s.sl.step = .frozen → c ≠ .startUp → exec c s = .next t →
      t.hw.surgeThreshold = s.hw.surgeThreshold ∧ t.hw.hardLimit = s.hw.hardLimit
        ∧ t.hw.settleLevel = s.hw.settleLevel)
  ∧ (∀ s t : State, s.pending = [] → step s = .next t →
      t.hw.surgeThreshold = s.hw.surgeThreshold ∧ t.hw.hardLimit = s.hw.hardLimit
        ∧ t.hw.settleLevel = s.hw.settleLevel)
  ∧ (∀ (s : State) (p : Nat), s.hw.chans.n1.fault = false → s.hw.chans.n1.value = some p →
      (s.hasRole .pu = true ∨ s.hasRole .bv = true ∨ s.hasRole .sv = true) →
      (s.aboveThreshold = true ↔ s.hw.surgeThreshold < p) ∧ (s.aboveHardLimit = true ↔ s.hw.hardLimit < p)
        ∧ (s.hasRole .pu = true → (s.settleFact = true ↔ p < s.hw.settleLevel)))
  ∧ (∀ (s : State) (v : Nat), (s.hw.takePressure v).hardCount
        = (if s.hw.hardLimit < v then min 2 (s.hw.hardCount + 1) else 0)
      ∧ ((s.hw.takePressure v).surgeCond = true → s.hw.surgeThreshold < v)
      ∧ (s.pumpProved = true → s.settleFact = true))
  ∧ (∀ s : State, (s.hasRole .tw = true ∨ s.hasRole .mn = true) →
      s.aboveThreshold = false ∧ s.aboveHardLimit = false ∧ s.settleFact = false)

/-! ## Joining -/

/-- O10. JOIN_WINDOW_END (R3) with nothing of a transfer heard and ESD_IN off: RUNNING in IDLE, under the generation
and transfer number the join summary gives, with a STATUS asked for. -/
def Obligations.JoinEndsInIdle : Prop :=
  ∀ s : State, s.pc.station = .joining → s.pc.phase = .idle → s.pc.inHand = none → s.pc.order = none →
    s.sr.join.heard = false → s.inputs.esd = false →
    ∃ t, exec .joinWindowEnd s = .next t ∧ t.running = true ∧ t.pc.phase = .idle ∧ t.pc.inHand = none
      ∧ t.pc.gen = (match s.sr.join.genPu, s.sr.join.genAny with
          | some g, _ => g
          | none, some g => g
          | none, none => 0)
      ∧ t.pc.transfer = (if s.hasRole .pu then s.sr.join.transferAny.getD 0 else s.sr.join.transferPu.getD 0)
      ∧ t.sr.join = ⟨none, none, none, none, false⟩ ∧ t.sr.entries = s.sr.entries
      ∧ t.tu.latched = s.tu.latched ∧ t.lc.status.isSome = true ∧ t.lc.heartbeat = ⟨true, 0⟩
      ∧ t.hw.hardCount = 0
      ∧ Frame (watchParts ++ [.station, .setup, .generation, .transfer, .roster, .heartbeat, .channels, .pressure,
          .leak, .meter]) s t

/-- O11. JOIN_WINDOW_END (R3, R65) with a transfer heard: RUNNING in TRIPPED, PHASE latched, and PHASE the first-out
with this station as origin. -/
def Obligations.JoinEndsInTripped : Prop :=
  ∀ s : State, s.pc.station = .joining → s.pc.phase = .idle → s.sr.join.heard = true →
    s.tu.latched = [] → s.tu.firstOut = none →
    ∃ t, exec .joinWindowEnd s = .next t ∧ t.running = true ∧ t.pc.phase = .tripped
      ∧ t.tu.latched.head? = some ⟨.phase, none⟩
      ∧ t.tu.firstOut = some ⟨some .phase, .localOrigin, s.number, none⟩
      ∧ t.pc.gen = (match s.sr.join.genPu, s.sr.join.genAny with
          | some g, _ => g
          | none, some g => g
          | none, none => 0)
      ∧ t.pc.transfer = (if s.hasRole .pu then s.sr.join.transferAny.getD 0 else s.sr.join.transferPu.getD 0)
      ∧ t.sr.join = ⟨none, none, none, none, false⟩ ∧ t.sr.entries = s.sr.entries ∧ t.lc.status.isSome = true
      ∧ Frame (cascadeParts ++ [.station, .setup, .generation, .transfer, .roster, .heartbeat, .leak]) s t

/-! ## The line -/

/-- O12. LINE_CHARACTER (R159, R169, R170) with no attempt under way: the table of R169, row by row. -/
def Obligations.CharacterAssembled : Prop :=
  ∀ (s : State) (c : LineChar), s.listening = true → s.lc.attempt = none →
    ∃ t, exec (.lineCharacter c) s = .next t ∧ t.lc.idle = 0
      ∧ t.lc.line = (if s.lc.line = .quiet then .receiving else s.lc.line)
      ∧ t.lc.check = s.lc.check ∧ t.lc.delivery = s.lc.delivery
      ∧ (c = .good 0xD3 → s.lc.assembly.markSeen = false →
          t.lc.assembly = { s.lc.assembly with markSeen := true } ∧ t.pp = s.pp)
      ∧ (c = .good 0xD3 → s.lc.assembly.markSeen = true → s.lc.assembly.condition ≠ .building →
          t.lc.assembly = { s.lc.assembly with markSeen := false } ∧ t.pp = s.pp)
      ∧ (c = .good 0xD3 → s.lc.assembly.markSeen = true → s.lc.assembly.condition = .building →
          s.lc.assembly.bytes.length < 64 →
          t.lc.assembly = { s.lc.assembly with markSeen := false, bytes := s.lc.assembly.bytes ++ [0xD3] }
            ∧ t.pp = s.pp)
      ∧ (∀ b, c = .good b → b ≠ 0xD3 → s.lc.assembly.markSeen = true → s.lc.assembly.condition = .hunting →
          t.lc.assembly = ⟨.building, false, [b], false, s.lc.line == .sending⟩ ∧ t.pp = s.pp)
      ∧ (∀ b, c = .good b → b ≠ 0xD3 → s.lc.assembly.markSeen = true → s.lc.assembly.condition = .building →
          t.lc.assembly = ⟨.building, false, [b], false, s.lc.line == .sending⟩
            ∧ t.pp = s.pp.placeEvent (.frameLost .framing none none))
      ∧ (∀ b, c = .good b → b ≠ 0xD3 → s.lc.assembly.markSeen = true → s.lc.assembly.condition = .full →
          t.lc.assembly = { s.lc.assembly with markSeen := false }
            ∧ t.pp = (if s.lc.line = .sending then s.pp else s.pp.placeEvent (.frameLost .overrun none none)))
      ∧ (∀ b, c = .good b → b ≠ 0xD3 → s.lc.assembly.markSeen = false → s.lc.assembly.condition = .building →
          s.lc.assembly.bytes.length < 64 →
          t.lc.assembly = { s.lc.assembly with bytes := s.lc.assembly.bytes ++ [b] } ∧ t.pp = s.pp)
      ∧ (∀ b, c = .good b → b ≠ 0xD3 → s.lc.assembly.markSeen = false → s.lc.assembly.condition ≠ .building →
          t.lc.assembly = s.lc.assembly ∧ t.pp = s.pp)
      ∧ (∀ b, c = .good b → (b = 0xD3 ↔ s.lc.assembly.markSeen = true) → s.lc.assembly.condition = .building →
          64 ≤ s.lc.assembly.bytes.length →
          t.lc.assembly = ⟨.hunting, false, [], false, false⟩
            ∧ t.pp = s.pp.placeEvent (.frameLost .length none none))
      ∧ (c = .bad →
          t.lc.assembly = { s.lc.assembly with
              markSeen := false, damaged := s.lc.assembly.damaged || s.lc.assembly.condition == .building }
            ∧ t.pp = s.pp)
      ∧ Frame [.receive, .reports] s t

/-- O13. LINE_CHARACTER and ECHO_TIMEOUT during an attempt (R164 to R166): a matching echo goes on, the last one ends
the attempt and frees the place or keeps it for a fresh frame, and a mismatch backs off and counts. At the eighth
failure the frame is dropped, with a LINK event that names the kind and the request number (R166), and the request
that a dropped REQUEST ends is answered NOANSWER (R52); that the event stands before the answer is the model's choice
(log 52). The other places stay. An attempt that has been detached from its place (R167) ends the same way on the line
and touches no place. What else reaches the Panel Port is the event of a frame abandoned in assembly (R169). -/
def Obligations.EchoCompared : Prop :=
  (∀ (s : State) (a : Attempt) (x : Byte) (rest : List Byte) (p : Place), s.running = true →
        s.lc.line = .sending → s.lc.attempt = some a → a.awaited = x :: rest → a.detached = false →
        s.lc.place a.kind = some p →
        (∃ t, exec (.lineCharacter (.good x)) s = .next t ∧ t.lc.line = .sending ∧ t.lc.idle = 0
          ∧ (rest ≠ [] → t.lc.attempt = some { a with awaited := rest } ∧ t.lc.place a.kind = some p)
          ∧ (rest = [] → t.lc.attempt = none
              ∧ ((a.kind = .request ∨ a.kind = .answer) → t.lc.place a.kind = none)
              ∧ ((a.kind = .status ∨ a.kind = .trip) →
                  t.lc.place a.kind =
                      (if p.askedAgain then some { p with attempts := 0, askedAgain := false } else none))
              ∧ (a.kind = .status → t.lc.heartbeat = ⟨true, 0⟩))
          ∧ ((rest ≠ [] ∨ a.kind ≠ .status) → t.lc.heartbeat = s.lc.heartbeat)
          ∧ (∀ k, k ≠ a.kind → t.lc.place k = s.lc.place k)
          ∧ (t.pp = s.pp ∨ ∃ r, EventPlaced s.pp t.pp (.frameLost r none none))
          ∧ Frame [.receive, .frames, .heartbeat, .reports] s t)
        ∧ (∀ c : Instr, (c = .echoTimeout ∨ c = .lineCharacter .bad ∨ ∃ b, b ≠ x ∧ c = .lineCharacter (.good b)) →
            ∃ t, exec c s = .next t ∧ t.lc.line = .backingOff ∧ t.lc.attempt = none
              ∧ (a.kind = .trip →
                  t.lc.trip = some { p with attempts := min 8 (p.attempts + 1), askedAgain := false })
              ∧ (a.kind ≠ .trip → p.attempts < 7 →
                  t.lc.place a.kind = some { p with attempts := p.attempts + 1, askedAgain := false }
                    ∧ t.rh = s.rh)
              ∧ (a.kind = .status → 7 ≤ p.attempts → p.askedAgain = true →
                  t.lc.status = some { p with attempts := 0, askedAgain := false })
              ∧ (a.kind = .status → 7 ≤ p.attempts → p.askedAgain = false → t.lc.status = none)
              ∧ (a.kind = .answer → 7 ≤ p.attempts → t.lc.answer = none)
              ∧ (a.kind = .request → 7 ≤ p.attempts → t.lc.request = none ∧ t.rh.outstanding = none
                  ∧ t.rh.nextNumber = s.rh.nextNumber)
              ∧ (a.kind ≠ .request → t.rh = s.rh) ∧ (∀ k, k ≠ a.kind → t.lc.place k = s.lc.place k)
              -- what the Panel Port is given
              ∧ (∃ u : PanelPort, ((a.kind = .trip ∨ p.attempts < 7) → u = s.pp)
                  ∧ (a.kind ≠ .trip → 7 ≤ p.attempts → ∃ v : PanelPort,
                      EventPlaced s.pp v (.dropped a.kind (p.frame.map HeldFrame.requestNumber))
                        ∧ (∀ o, a.kind = .request → s.rh.outstanding = some o →
                            ReplyPlaced v u (.answer (some (.request o.kind)) (some o.number) .noanswer .none))
                        ∧ ((a.kind ≠ .request ∨ s.rh.outstanding = none) → u = v))
                  ∧ ((c = .echoTimeout ∨ c = .lineCharacter .bad) → t.pp = u)
                  ∧ (t.pp = u ∨ ∃ r, EventPlaced u t.pp (.frameLost r none none)))
              ∧ Frame [.receive, .frames, .requests, .reports] s t))
  ∧ (∀ (s : State) (a : Attempt) (x : Byte) (rest : List Byte), s.running = true → s.lc.line = .sending →
      s.lc.attempt = some a → a.awaited = x :: rest → a.detached = true →
      (∃ t, exec (.lineCharacter (.good x)) s = .next t ∧ t.lc.line = .sending ∧ t.lc.idle = 0
        ∧ t.lc.attempt = (if rest = [] then none else some { a with awaited := rest })
        ∧ t.lc.trip = s.lc.trip ∧ t.lc.answer = s.lc.answer ∧ t.lc.request = s.lc.request ∧ t.lc.status = s.lc.status
        ∧ (rest = [] → a.kind = .status → t.lc.heartbeat = ⟨true, 0⟩)
        ∧ ((rest ≠ [] ∨ a.kind ≠ .status) → t.lc.heartbeat = s.lc.heartbeat)
        ∧ (t.pp = s.pp ∨ ∃ r, EventPlaced s.pp t.pp (.frameLost r none none))
        ∧ Frame [.receive, .frames, .heartbeat, .reports] s t)
      ∧ (∀ c : Instr, (c = .echoTimeout ∨ c = .lineCharacter .bad ∨ ∃ b, b ≠ x ∧ c = .lineCharacter (.good b)) →
          ∃ t, exec c s = .next t ∧ t.lc.line = .backingOff ∧ t.lc.attempt = none
            ∧ t.lc.trip = s.lc.trip ∧ t.lc.answer = s.lc.answer ∧ t.lc.request = s.lc.request
            ∧ t.lc.status = s.lc.status
            ∧ ((c = .echoTimeout ∨ c = .lineCharacter .bad) → t.pp = s.pp)
            ∧ (t.pp = s.pp ∨ ∃ r, EventPlaced s.pp t.pp (.frameLost r none none))
            ∧ Frame [.receive, .frames, .reports] s t))

/-- O14. LINE_IDLE (R159, R168, R169, R171): the line is QUIET, mark-seen clears, and a frame in hand ends and moves
on as far as the slots are empty. That the event of a discarded frame names the first two bytes assembled, where a bad
character left one out, is the model's choice (log 56). -/
def Obligations.LineIdleEndsFrame : Prop :=
  ∀ s : State, s.listening = true → s.lc.attempt = none →
    ∃ t, exec .lineIdle s = .next t ∧ t.lc.line = .quiet ∧ 200 ≤ t.lc.idle ∧ t.lc.assembly.markSeen = false
      ∧ (s.lc.assembly.condition = .hunting → s.lc.check = none →
          t.lc.assembly = { s.lc.assembly with markSeen := false } ∧ t.lc.check = none
            ∧ t.lc.delivery = s.lc.delivery ∧ t.pp = s.pp)
      ∧ (s.lc.assembly.condition = .building → s.lc.check = none →
          judge s.lc.assembly.echo s.lc.assembly.damaged s.lc.assembly.bytes = .good →
          t.lc.assembly = ⟨.hunting, false, [], false, false⟩ ∧ t.pp = s.pp
            ∧ (s.lc.delivery = none → t.lc.delivery = some s.lc.assembly.bytes ∧ t.lc.check = none)
            ∧ (s.lc.delivery.isSome = true →
                t.lc.delivery = s.lc.delivery ∧ t.lc.check = some s.lc.assembly.bytes))
      ∧ (s.lc.assembly.condition = .building → s.lc.check = none →
          judge s.lc.assembly.echo s.lc.assembly.damaged s.lc.assembly.bytes = .echo →
          t.lc.assembly = ⟨.hunting, false, [], false, false⟩ ∧ t.lc.check = none
            ∧ t.lc.delivery = s.lc.delivery ∧ t.pp = s.pp)
      ∧ (∀ r, s.lc.assembly.condition = .building → s.lc.check = none →
          judge s.lc.assembly.echo s.lc.assembly.damaged s.lc.assembly.bytes = .discard r →
          t.lc.assembly = ⟨.hunting, false, [], false, false⟩ ∧ t.lc.check = none
            ∧ t.lc.delivery = s.lc.delivery
            ∧ t.pp = s.pp.placeEvent (.frameLost r s.lc.assembly.bytes[0]? s.lc.assembly.bytes[1]?))
      ∧ (s.lc.assembly.condition = .building → s.lc.check.isSome = true → s.lc.delivery.isSome = true →
          t.lc.assembly = { s.lc.assembly with condition := .full, markSeen := false }
            ∧ t.lc.check = s.lc.check ∧ t.lc.delivery = s.lc.delivery ∧ t.pp = s.pp)
      ∧ Frame [.receive, .reports] s t

/-- O15. ATTEMPT (R163, R164, R174 to R180, R185): the occupied place of highest kind begins; a STATUS or TRIP is
built from the blocks as they stand, a REQUEST or ANSWER is the frame held, and the line carries the mark byte, the
stuffed bytes and the stuffed check. The places and the receive slots stay. The idle time has reached the access wait
of R163; that ATTEMPT itself stands for that moment, and so makes the idle time at least the wait, is the model's
choice (log 4). -/
def Obligations.AttemptBegins : Prop :=
  ∀ (s : State) (k : FrameKind) (p : Place) (r : Role), s.running = true → s.lc.line = .quiet →
    s.lc.attempt = none → s.role = some r → s.lc.place k = some p →
    (k = .answer → s.lc.trip = none) → (k = .request → s.lc.trip = none ∧ s.lc.answer = none) →
    (k = .status → s.lc.trip = none ∧ s.lc.answer = none ∧ s.lc.request = none) →
    ((k = .request ∨ k = .answer) → p.frame.isSome = true) →
    ∃ t a, exec .attempt s = .next t ∧ t.lc.line = .sending ∧ t.lc.attempt = some a ∧ a.kind = k
      ∧ a.detached = false ∧ (∀ k', t.lc.place k' = s.lc.place k')
      ∧ t.lc.idle = max s.lc.idle (100 * waitOf s.number p.attempts k)
      ∧ t.lc.assembly = s.lc.assembly ∧ t.lc.check = s.lc.check ∧ t.lc.delivery = s.lc.delivery
      ∧ (∀ f, p.frame = some f → (k = .request ∨ k = .answer) → a.awaited = onLine (withCheck (heldBytes f)))
      ∧ (k = .trip → a.awaited = onLine (withCheck (tripBytes ⟨s.number, r, s.mr.record.transfer, s.pc.gen⟩
          (s.tu.firstOut.bind FirstOut.cause) ((s.tu.firstOut.map FirstOut.origin).getD 0))))
      ∧ (k = .status → ∃ st : Status, a.awaited = onLine (withCheck (statusBytes s.number r st))
          ∧ st.transfer = s.mr.record.transfer ∧ st.gen = s.pc.gen ∧ st.phase = s.pc.phase
          ∧ st.ready = s.pc.ready ∧ st.cause = s.tu.cause ∧ st.closed = s.pc.closed ∧ st.path = s.pc.path
          ∧ st.claim = s.ow.claim.waiting ∧ st.firstCause = s.tu.firstOut.bind FirstOut.cause
          ∧ st.firstOrigin = (s.tu.firstOut.map FirstOut.origin).getD 0
          ∧ (r = .pu → st.body = .pu s.vp.pump (s.hw.chans.n1.value.getD 0) s.hw.chans.n1.valid.isSome
              s.mr.record.delivered s.mr.record.endKind s.mr.record.nomination s.mr.record.maxRate)
          ∧ ((r = .bv ∨ r = .sv) → st.body = .valve s.vp.channels.n1.state (s.hw.chans.n1.value.getD 0)
              s.hw.chans.n1.valid.isSome)
          ∧ (r = .tw → st.body = .tw s.ow.receipt s.ow.received ((Ch.all.filter s.tankUsed).map fun n =>
              ⟨(s.ow.tanks.get n).state, (s.ow.tanks.get n).level.getD 0, (s.ow.tanks.get n).levelValid⟩))
          ∧ (r = .mn → st.body = .mn))
      ∧ Frame [.receive, .frames] s t

/-- O16. HEARTBEAT (R184, R162): the timer restarts and a STATUS is asked for. -/
def Obligations.HeartbeatAsks : Prop :=
  ∀ s : State, s.running = true → s.lc.heartbeat.running = true →
    ∃ t, exec .heartbeat s = .next t ∧ t.lc.heartbeat = ⟨true, 0⟩
      ∧ (s.lc.status = none → t.lc.status = some ⟨none, 0, false⟩)
      ∧ (∀ p, s.lc.status = some p → t.lc.status = some { p with
          askedAgain := p.askedAgain || s.lc.attempt.any fun a => a.kind == .status && !a.detached })
      ∧ t.lc.trip = s.lc.trip ∧ t.lc.answer = s.lc.answer ∧ t.lc.request = s.lc.request
      ∧ t.lc.attempt = s.lc.attempt ∧ Frame [.heartbeat, .frames] s t

/-! ## Frames -/

/-- O17. R160, R169: the characters of a frame, heard one after another by a HUNTING assembly slot, rebuild its
bytes. -/
def Obligations.LineRebuildsFrame : Prop :=
  ∀ (b : Byte) (l : List Byte), b ≠ 0xD3 → l.length < 64 →
    ((onLine (b :: l)).foldl (fun (a : Assembly) (x : Byte) => (a.take (.good x) false).1)
      ⟨.hunting, false, [], false, false⟩) = ⟨.building, false, b :: l, false, false⟩

/-- O18. R174 to R182: every frame a station can send, read back by a receiver, gives the header and the contents it
was built from, and passes the check slot; and so does a REQUEST of a kind code outside the table, read with the code
it carries (R182). -/
def Obligations.FramesReadBack : Prop :=
  (∀ (n : Nat) (r : Role) (st : Status), 1 ≤ n → n ≤ 15 → st.firstOrigin ≤ 15 →
      (match r, st.body with
       | .pu, .pu _ p _ d _ q m => p < 65536 ∧ d < 4294967296 ∧ q < 4294967296 ∧ m < 4294967296
       | .bv, .valve _ p _ => p < 65536
       | .sv, .valve _ p _ => p < 65536
       | .tw, .tw _ d items => d < 4294967296 ∧ items.length ≤ 4 ∧ ∀ i ∈ items, i.level < 32768
       | .mn, .mn => True
       | _, _ => False) →
      readFrame (withCheck (statusBytes n r st)) = some ⟨.status, ⟨n, r, st.transfer, st.gen⟩, .status st⟩
        ∧ judge false false (withCheck (statusBytes n r st)) = .good)
  ∧ (∀ (h : Header) (k : ReqKind) (number : BitVec 8) (q m : Nat), 1 ≤ h.sender → h.sender ≤ 15 →
      q < 4294967296 → m < 4294967296 →
      (∃ q' m', readFrame (withCheck (heldBytes (.request h k number q m)))
          = some ⟨.request, h, .request k.code number q' m'⟩ ∧ (k = .nominate → q' = q ∧ m' = m))
        ∧ judge false false (withCheck (heldBytes (.request h k number q m))) = .good)
  ∧ (∀ (h : Header) (code : Nat) (number : BitVec 8), 1 ≤ h.sender → h.sender ≤ 15 → code < 256 → code ≠ 1 →
      (∃ q m, readFrame (withCheck (headerBytes .request h ++ [byteOf code, number]))
          = some ⟨.request, h, .request code number q m⟩)
        ∧ judge false false (withCheck (headerBytes .request h ++ [byteOf code, number])) = .good)
  ∧ (∀ (h : Header) (dest : Nat) (number : BitVec 8) (o : Decision), 1 ≤ h.sender → h.sender ≤ 15 → dest < 256 →
      readFrame (withCheck (heldBytes (.answer h dest number o))) = some ⟨.answer, h, .answer dest number o⟩
        ∧ judge false false (withCheck (heldBytes (.answer h dest number o))) = .good)
  ∧ (∀ (h : Header) (c : Option Cause) (o : Nat), 1 ≤ h.sender → h.sender ≤ 15 → o ≤ 15 →
      readFrame (withCheck (tripBytes h c o)) = some ⟨.trip, h, .trip c o⟩
        ∧ judge false false (withCheck (tripBytes h c o)) = .good)

/-- O19. R171: the seven checks of the check slot, each reached when those before it pass; and the reference value of
R161. -/
def Obligations.CheckSlotJudges : Prop :=
  frameCheck [0x31, 0x32, 0x33, 0x34, 0x35, 0x36, 0x37, 0x38, 0x39] = 0x29B1#16
  ∧ ∀ l : List Byte,
    (∀ d, judge true d l = .echo) ∧ judge false true l = .discard .character
    ∧ (l.length < 7 → judge false false l = .discard .length)
    ∧ (7 ≤ l.length → (frameCheck (l.take (l.length - 2))).toNat ≠ numAt l (l.length - 2) 2 →
        judge false false l = .discard .check)
    ∧ (7 ≤ l.length → (frameCheck (l.take (l.length - 2))).toNat = numAt l (l.length - 2) 2 →
        (FrameKind.ofCode (byteAt l 0) = none → judge false false l = .discard .kind)
        ∧ (∀ k, FrameKind.ofCode (byteAt l 0) = some k → expectedLength l k ≠ some l.length →
            judge false false l = .discard .length)
        ∧ (∀ k, FrameKind.ofCode (byteAt l 0) = some k → expectedLength l k = some l.length →
            (1 ≤ byteAt l 1 ∧ byteAt l 1 ≤ 15 → judge false false l = .good)
            ∧ (¬ (1 ≤ byteAt l 1 ∧ byteAt l 1 ≤ 15) → judge false false l = .discard .sender)))

/-! ## The roster -/

/-- O20. ROSTER_TAKE_FRAME (R29, R31, R32, R33, R168, R170, R171, R172) with a STATUS that is no clash, in JOINING or
RUNNING: the sender's entry, found or made, goes to the front with the sender's role, PRESENT, age 0 and this STATUS;
the other entries keep their order; and the receive slots move on: the check slot's frame goes to the delivery slot,
and a frame that stands FULL in the assembly slot goes to the check slot, is judged there, and goes on where no frame
was before it; the assembly slot is HUNTING again. In RUNNING the leak condition is what R113 asks; in JOINING the
roster offers nothing (R29), and it stays. The event of a frame that is discarded names the first two bytes
assembled (the model's choice where a bad character left one out, log 56). -/
def Obligations.StatusEntersRoster : Prop :=
  ∀ (s : State) (l : List Byte) (h : Header) (st : Status), s.listening = true → s.lc.delivery = some l →
    readFrame l = some ⟨.status, h, .status st⟩ → s.isClash h = false →
    ∃ t, exec .rosterTakeFrame s = .next t
      ∧ (∀ e, s.sr.find h.sender = some e →
          t.sr.entries = { e with role := some h.role, presence := .present, age := 0, last := some st }
            :: s.sr.entries.filter fun x => x.number != h.sender)
      ∧ (s.sr.find h.sender = none → s.sr.entries.length < 12 →
          t.sr.entries = ⟨h.sender, some h.role, false, .present, 0, some st⟩ :: s.sr.entries)
      ∧ (∀ v, s.sr.find h.sender = none → 12 ≤ s.sr.entries.length →
          (s.sr.entries.reverse.find? fun e => !e.protected') = some v →
          t.sr.entries = ⟨h.sender, some h.role, false, .present, 0, some st⟩
            :: s.sr.entries.filter fun x => x.number != v.number)
      ∧ (s.sr.find h.sender = none → 12 ≤ s.sr.entries.length → (∀ e ∈ s.sr.entries, e.protected' = true) →
          t.sr.entries = s.sr.entries)
      ∧ (s.lc.assembly.condition ≠ .full → t.lc.delivery = s.lc.check ∧ t.lc.check = none)
      ∧ (s.lc.assembly.condition = .full → ∀ v,
          v = judge s.lc.assembly.echo s.lc.assembly.damaged s.lc.assembly.bytes →
          t.lc.assembly = { s.lc.assembly with condition := .hunting, bytes := [], damaged := false, echo := false }
            ∧ (v ≠ .good → t.lc.delivery = s.lc.check ∧ t.lc.check = none)
            ∧ (v = .good → s.lc.check = none → t.lc.delivery = some s.lc.assembly.bytes ∧ t.lc.check = none)
            ∧ (v = .good → s.lc.check ≠ none →
                t.lc.delivery = s.lc.check ∧ t.lc.check = some s.lc.assembly.bytes)
            ∧ (∀ r, v = .discard r → s.pp.mask.link = true → t.pp.queue.length < 8 →
                NewestReport t (.event (.frameLost r s.lc.assembly.bytes[0]? s.lc.assembly.bytes[1]?))))
      ∧ (s.pc.station = .joining →
          t.sr.join = ⟨if h.role = .pu then some h.gen else s.sr.join.genPu, some h.gen,
            if h.role = .pu then some h.transfer else s.sr.join.transferPu,
            if h.transfer ≠ 0 then some h.transfer else s.sr.join.transferAny,
            s.sr.join.heard || st.phase != .idle⟩ ∧ Frame [.roster, .receive, .reports] s t)
      ∧ (s.running = true → t.sr.join = s.sr.join ∧ (t.hw.leakCond = true ↔ LeakFacts t))
      ∧ Frame (cascadeParts ++ [.leak, .roster, .receive, .generation, .transfer]) s t

/-- O21. ROSTER_TAKE_FRAME (R30, R193) with a clash. In JOINING: OFFLINE with reason CLASH and the sender named, and
nothing queued, sent or assembled any more; the roster stays. In RUNNING: PHASE is handed with the sender as its
detail, and the frame is not entered and asks for no answer; that the Request Handler takes nothing from it either,
where it is an ANSWER to this station, is the model's reading (log 24). -/
def Obligations.ClashTaken : Prop :=
  (∀ (s : State) (l : List Byte) (r : Received), s.pc.station = .joining → s.lc.delivery = some l →
        readFrame l = some r →
        (r.header.sender = s.number
          ∨ ((r.header.role = .pu ∨ r.header.role = .bv ∨ r.header.role = .sv)
              ∧ (s.role = some r.header.role
                  ∨ ∃ e ∈ s.sr.entries, e.role = some r.header.role ∧ e.number ≠ r.header.sender))) →
        ∃ t, exec .rosterTakeFrame s = .next t ∧ t.pc.station = .offline
          ∧ t.sl.fault = .clash r.header.sender r.header.role ∧ t.sl.setup = s.sl.setup ∧ t.sr = s.sr
          ∧ t.lc.line = .quiet ∧ t.lc.trip = none ∧ t.lc.answer = none ∧ t.lc.request = none ∧ t.lc.status = none
          ∧ t.lc.attempt = none ∧ t.lc.check = none ∧ t.lc.delivery = none ∧ t.lc.assembly.condition = .hunting
          ∧ t.vp.pumpRun = false ∧ (∀ n : Ch, (t.vp.channels.get n).drive = .off)
          ∧ Frame [.setup, .station, .flags, .timers, .alarms, .channels, .pump, .scan, .pressure, .receive,
              .heartbeat, .frames, .reports] s t)
  ∧ (∀ (s : State) (l : List Byte) (r : Received), s.running = true → s.lc.delivery = some l → readFrame l = some r →
      (r.header.sender = s.number
        ∨ ((r.header.role = .pu ∨ r.header.role = .bv ∨ r.header.role = .sv)
            ∧ (s.role = some r.header.role
                ∨ ∃ e ∈ s.sr.entries, e.role = some r.header.role ∧ e.number ≠ r.header.sender))) →
      ∃ t, exec .rosterTakeFrame s = .next t ∧ t.pc.station = .running ∧ t.sr = s.sr ∧ t.rh = s.rh
        ∧ t.lc.answer = s.lc.answer
        ∧ (s.hasLatched .phase = false → t.pc.phase = .tripped ∧ ⟨.phase, some r.header.sender⟩ ∈ t.tu.latched)
        ∧ (s.hasLatched .phase = true → s.pc.phase = .tripped →
            t.pc.phase = .tripped ∧ t.tu.latched = s.tu.latched)
        ∧ Frame (cascadeParts ++ [.receive]) s t)

/-- O22. ROSTER_TAKE_FRAME (R69, R26) with a TRIP that is no clash, under this station's generation: TRIPPED, with the
first-out of the frame where there was none, and the pump told to stop at PU. A TRIP under another generation is not
honoured (R70). -/
def Obligations.RemoteTripHonoured : Prop :=
  ∀ (s : State) (l : List Byte) (h : Header) (c : Option Cause) (o : Nat), s.running = true →
    s.lc.delivery = some l → readFrame l = some ⟨.trip, h, .trip c o⟩ → s.isClash h = false →
    (h.gen = s.pc.gen →
      ∃ t, exec .rosterTakeFrame s = .next t ∧ t.pc.phase = .tripped
        ∧ (s.tu.firstOut = none →
            t.tu.firstOut = some ⟨c, .remoteOrigin, if c = none ∨ o = 0 then h.sender else o, none⟩)
        ∧ (∀ f, s.tu.firstOut = some f → t.tu.firstOut = some f)
        ∧ (s.hasRole .pu = true → s.pc.phase ≠ .tripped → t.vp.pumpRun = false)
        ∧ Frame (cascadeParts ++ [.leak, .roster, .receive]) s t)
    ∧ (h.gen ≠ s.pc.gen → s.hasRole .pu = false → s.pc.order = none →
      ∃ t, exec .rosterTakeFrame s = .next t ∧ t.pc.phase = s.pc.phase ∧ t.tu.firstOut = s.tu.firstOut
        ∧ t.tu.latched = s.tu.latched
        ∧ Frame (watchParts ++ [.leak, .channels, .pressure, .tanks, .record, .roster, .receive]) s t)

/-- O23. ROSTER_TAKE_FRAME with a STATUS of PU at a follower (R12, R13, R14, R15, R74), phase by phase and generation
by generation. -/
def Obligations.FollowerFollows : Prop :=
  ∀ (s : State) (n : Nat) (st : Status), PuStatusWaits s n st →
    -- a phase one step on is adopted
    (st.gen = s.pc.gen → QuietEntry s n st → NoValveFault s → (s.pc.phase, st.phase) ∈
        ([(.idle, .lineup), (.lineup, .idle), (.lineup, .opening), (.opening, .starting), (.opening, .closing),
          (.starting, .pumping), (.pumping, .topping), (.starting, .stopping), (.pumping, .stopping),
          (.topping, .stopping), (.pumping, .paused), (.topping, .paused), (.paused, .starting),
          (.paused, .stopping), (.stopping, .closing), (.closing, .ended), (.ended, .idle)] : List (Phase × Phase)) →
      ∃ t, exec .rosterTakeFrame s = .next t ∧ t.pc.phase = st.phase ∧ t.pc.gen = s.pc.gen
        ∧ t.pc.inHand = s.pc.inHand ∧ t.tu.firstOut = s.tu.firstOut ∧ t.tu.latched = s.tu.latched
        ∧ t.lc.status.isSome = true
        ∧ t.pc.transfer = (if s.pc.phase = .idle then st.transfer else s.pc.transfer))
    -- the phase held already changes nothing
    ∧ (st.gen = s.pc.gen → st.phase = s.pc.phase → s.pc.phase ≠ .tripped → s.pc.order = none →
        (s.mr.record.state = .empty ∨ st.transfer = 0 ∨ st.transfer = s.pc.transfer) →
        ∃ t, exec .rosterTakeFrame s = .next t ∧ t.pc.phase = s.pc.phase ∧ t.pc.gen = s.pc.gen
          ∧ t.tu.firstOut = s.tu.firstOut ∧ t.tu.latched = s.tu.latched)
    -- another transfer number latches PHASE
    ∧ (st.gen = s.pc.gen → st.phase = s.pc.phase → s.pc.phase ≠ .tripped → s.mr.record.state ≠ .empty →
        st.transfer ≠ 0 → st.transfer ≠ s.pc.transfer → s.hasLatched .phase = false →
        ∃ t, exec .rosterTakeFrame s = .next t ∧ t.pc.phase = .tripped ∧ ⟨.phase, none⟩ ∈ t.tu.latched)
    -- a phase that is not one step on latches PHASE
    ∧ (st.gen = s.pc.gen → s.pc.phase ≠ .tripped → st.phase ≠ .tripped → st.phase ≠ s.pc.phase →
        s.pc.phase.stepsTo st.phase = false → s.hasLatched .phase = false →
        ∃ t, exec .rosterTakeFrame s = .next t ∧ t.pc.phase = .tripped ∧ ⟨.phase, none⟩ ∈ t.tu.latched)
    -- TRIPPED under the follower's generation is a remote trip
    ∧ (st.gen = s.pc.gen → st.phase = .tripped →
        ∃ t, exec .rosterTakeFrame s = .next t ∧ t.pc.phase = .tripped ∧ t.pc.gen = s.pc.gen
          ∧ t.tu.firstOut = some (s.tu.firstOut.getD ⟨st.firstCause, .remoteOrigin,
              if st.firstCause = none ∨ st.firstOrigin = 0 then n else st.firstOrigin, none⟩))
    -- in TRIPPED no phase under the follower's generation moves it
    ∧ (st.gen = s.pc.gen → s.pc.phase = .tripped →
        ∃ t, exec .rosterTakeFrame s = .next t ∧ t.pc.phase = .tripped ∧ t.pc.gen = s.pc.gen
          ∧ t.tu.latched = s.tu.latched)
    -- TRIPPED under another generation does not reach a follower that is not in TRIPPED
    ∧ (st.gen ≠ s.pc.gen → s.pc.phase ≠ .tripped → st.phase = .tripped → s.pc.order = none →
        ∃ t, exec .rosterTakeFrame s = .next t ∧ t.pc.phase = s.pc.phase ∧ t.pc.gen = s.pc.gen
          ∧ t.tu.firstOut = s.tu.firstOut ∧ t.tu.latched = s.tu.latched)
    -- ENDED or TRIPPED under another generation at a follower in TRIPPED: the reset
    ∧ (st.gen ≠ s.pc.gen → s.pc.phase = .tripped → (st.phase = .ended ∨ st.phase = .tripped) →
        ∃ t, exec .rosterTakeFrame s = .next t ∧ t.pc.gen = st.gen
          ∧ ((∃ l ∈ s.tu.latched, ({ s with sr := t.sr }).causeActive l.cause = true) →
              t.pc.phase = .tripped ∧ t.tu.firstOut = s.tu.firstOut ∧ t.tu.latched = s.tu.latched
                ∧ t.lc.trip.isSome = true)
          ∧ ((∀ l ∈ s.tu.latched, ({ s with sr := t.sr }).causeActive l.cause = false) → st.phase = .ended →
              (s.mr.record.state = .empty ∨ st.transfer = 0 ∨ st.transfer = s.pc.transfer) →
              t.pc.phase = .ended ∧ t.tu.firstOut = none ∧ t.tu.latched = [] ∧ t.tu.cause = false
                ∧ (s.mr.record.state = .opened →
                    t.mr.record.state = .sampled ∧ t.mr.record.sampleKind = .forced))
          ∧ ((∀ l ∈ s.tu.latched, ({ s with sr := t.sr }).causeActive l.cause = false) → st.phase = .tripped →
              t.pc.phase = .tripped ∧ t.tu.latched = []
                ∧ t.tu.firstOut = some ⟨st.firstCause, .remoteOrigin,
                    if st.firstCause = none ∨ st.firstOrigin = 0 then n else st.firstOrigin, none⟩))
    -- another phase under another generation latches PHASE under the new generation
    ∧ (st.gen ≠ s.pc.gen → st.phase ≠ .tripped → ¬ (s.pc.phase = .tripped ∧ st.phase = .ended) →
        s.hasLatched .phase = false →
        ∃ t, exec .rosterTakeFrame s = .next t ∧ t.pc.gen = st.gen ∧ t.pc.phase = .tripped
          ∧ ⟨.phase, none⟩ ∈ t.tu.latched)

/-- O24. R18 to R25 and R121, R125 at a follower: the entry actions of a phase adopted from PU's STATUS at BV, SV and
TW, the standing orders placed there and carried out once their condition holds (R21, R24), the record that every
station clears at IDLE (R19, R155) and the external end at CLOSING from OPENING (R24), and PATH (R20); and that each
cause handed at OPENING entry latches (R36, R84, R104, R115). That VC1 becomes OPEN with no command where its open
switch is on when the order is carried out is the model's reading (log 16). That a cause handed at that entry latches
where another has tripped the station just before it is the model's choice (log 12), and so is that a stopped timer
shows 0 (log 66). -/
def Obligations.EntryActions : Prop :=
  -- OPENING at TW
  (∀ (s : State) (n : Nat) (st : Status), PuStatusWaits s n st → QuietEntry s n st → st.gen = s.pc.gen →
      s.pc.phase = .lineup → st.phase = .opening → s.hasRole .tw = true → NoValveFault s → s.vp.holdOff ≠ .holding →
        ∃ t, exec .rosterTakeFrame s = .next t ∧ t.pc.phase = .opening ∧ t.ow.receipt = .receiving ∧ t.ow.received = 0
          ∧ (∀ c, s.tankUsed c = true → (s.ow.tanks.get c).state = .assigned →
              t.ow.tanks.get c = { s.ow.tanks.get c with
                  state := .opened, takingPart := true, startLevel := (s.ow.tanks.get c).level.getD 0 }
                ∧ ((s.vp.channels.get c).state = .shut → (s.vp.channels.get c).pending = false → s.openOn c = false →
                    (t.vp.channels.get c).state = .opening ∧ (t.vp.channels.get c).command = .opened
                      ∧ ((s.vp.channels.get c).dwell.running = false → (s.vp.channels.get c).drive = .off →
                          (t.vp.channels.get c).drive = .opened ∧ (t.vp.channels.get c).travel = ⟨true, 0⟩)))
          ∧ (∀ c, (s.tankUsed c = false ∨ (s.ow.tanks.get c).state ≠ .assigned) →
              t.ow.tanks.get c = s.ow.tanks.get c
                ∧ ((s.ow.tanks.get c).takingPart = false → t.vp.channels.get c = s.vp.channels.get c))
          ∧ ((∀ c, (s.ow.tanks.get c).takingPart = false) →
              (t.pc.path = true ↔ s.pc.path = true ∨ ∀ c, s.tankUsed c = true → (s.ow.tanks.get c).state = .assigned →
                (t.vp.channels.get c).state = .opened)))
  -- OPENING: each cause handed at that entry latches, VALVE of a refused open command (R84) among them, also where
  -- several are handed; at BV and SV the open command is the standing order's, where it is due at the entry
  ∧ (∀ (s : State) (n : Nat) (st : Status), PuStatusWaits s n st → st.gen = s.pc.gen → s.pc.phase = .lineup →
      st.phase = .opening →
      ∃ t, exec .rosterTakeFrame s = .next t
        ∧ ∀ c, (HandedAtOpening s n c
              ∨ c = .valve ∧ s.valveRole = true ∧ OrderHolds { s with sr := t.sr } .openVc1
                ∧ s.vp.channels.n1.state = .fault ∧ s.vp.channels.n1.pending = false) →
            t.hasLatched c = true ∧ (s.hasLatched c = false → t.pc.phase = .tripped))
  -- IDLE
  ∧ (∀ (s : State) (n : Nat) (st : Status), PuStatusWaits s n st → QuietEntry s n st → st.gen = s.pc.gen →
      (s.pc.phase = .ended ∨ s.pc.phase = .lineup) → st.phase = .idle →
      ∃ t, exec .rosterTakeFrame s = .next t ∧ t.pc.phase = .idle ∧ t.mr.record = Record.empty
        ∧ (s.pc.phase = .lineup → t.ow.tanks = s.ow.tanks)
        ∧ (s.pc.phase = .ended → s.hasRole .tw = true →
            (∀ c, s.tankUsed c = true → t.ow.tanks.get c = { s.ow.tanks.get c with
                state := .excluded, takingPart := false, startLevel := 0 })
              ∧ (∀ c, s.tankUsed c = false → t.ow.tanks.get c = s.ow.tanks.get c)
              ∧ (∀ c, s.ow.claim.tank = some c → t.ow.claim.waiting = false)
              ∧ t.ow.receipt = .none ∧ t.ow.received = 0 ∧ t.ow.settleWindow = ⟨false, 0⟩
              ∧ t.ow.settleLimit = ⟨false, 0⟩))
  -- OPENING at BV and SV, CLOSING at SV and TW: the standing order, carried out at once where it is due
  ∧ (∀ (s : State) (n : Nat) (st : Status) (o : Order), PuStatusWaits s n st → QuietEntry s n st → NoValveFault s →
      st.gen = s.pc.gen → s.vp.holdOff ≠ .holding → (s.pc.phase, st.phase) ∈
        ([(.lineup, .opening), (.opening, .closing), (.stopping, .closing)] : List (Phase × Phase)) →
      (st.phase = .opening ∧ s.valveRole = true ∧ o = .openVc1
        ∨ st.phase = .closing ∧ s.hasRole .sv = true ∧ o = .closeVc1
        ∨ st.phase = .closing ∧ s.hasRole .tw = true ∧ o = .closeTanks) →
      ∃ t, exec .rosterTakeFrame s = .next t ∧ t.pc.phase = st.phase
        ∧ (OrderHolds { s with sr := t.sr } o → t.pc.order = none ∧ OrderDone s t o)
        ∧ (¬ OrderHolds { s with sr := t.sr } o → t.pc.order = some o ∧ t.vp.channels = s.vp.channels))
  -- CLOSING at BV
  ∧ (∀ (s : State) (n : Nat) (st : Status), PuStatusWaits s n st → QuietEntry s n st → st.gen = s.pc.gen →
      (s.pc.phase = .opening ∨ s.pc.phase = .stopping) → st.phase = .closing → s.hasRole .bv = true →
      s.vp.holdOff ≠ .holding →
      ∃ t, exec .rosterTakeFrame s = .next t ∧ t.pc.phase = .closing ∧ t.vp.channels.n1.Closes
        ∧ ∀ m, m ≠ .n1 → t.vp.channels.get m = s.vp.channels.get m)
  -- the external end at CLOSING from OPENING, and PATH clear
  ∧ (∀ (s : State) (n : Nat) (st : Status), PuStatusWaits s n st → QuietEntry s n st → st.gen = s.pc.gen →
      s.pc.phase = .opening → st.phase = .closing → s.mr.record.state = .opened →
      ∃ t, exec .rosterTakeFrame s = .next t ∧ t.mr.record.externalEnd = true ∧ t.pc.path = false)
  -- a standing order at the STATUS of another peer
  ∧ (∀ (s : State) (l : List Byte) (h : Header) (st : Status) (o : Order), s.running = true → s.hasRole .pu = false →
      s.role.isSome = true → s.lc.delivery = some l → readFrame l = some ⟨.status, h, .status st⟩ →
      s.isClash h = false → h.role ≠ .pu → (st.phase = .tripped → h.gen ≠ s.pc.gen) → s.vp.holdOff ≠ .holding →
      s.pc.order = some o →
      ∃ t, exec .rosterTakeFrame s = .next t
        ∧ (¬ OrderHolds { s with sr := t.sr } o →
            t.pc.phase = s.pc.phase ∧ t.pc.order = some o ∧ t.vp.channels = s.vp.channels)
        ∧ (OrderHolds { s with sr := t.sr } o → (o = .openVc1 → s.vp.channels.n1.state ≠ .fault) →
            t.pc.phase = s.pc.phase ∧ t.pc.order = none ∧ OrderDone s t o)
        ∧ (OrderHolds { s with sr := t.sr } o → o = .openVc1 → s.vp.channels.n1.state = .fault →
            s.vp.channels.n1.pending = false → s.pc.phase.active = true → s.hasLatched .valve = false →
            t.pc.phase = .tripped ∧ ⟨.valve, some 1⟩ ∈ t.tu.latched))
  -- PATH, as the last channel of a tank taking part arrives
  ∧ (∀ (s : State) (n : Ch), s.running = true → s.hasRole .tw = true → s.pc.phase = .opening → s.tankUsed n = true →
      (s.vp.channels.get n).command = .opened → (s.vp.channels.get n).state ≠ .fault → s.openOn n = false →
      s.shutOn n = false →
      ∃ t, exec (.valveSwitchChange n .openSw true) s = .next t
        ∧ (t.pc.path = true ↔ s.pc.path = true ∨ ∀ m, s.tankUsed m = true → (s.ow.tanks.get m).takingPart = true →
            m = n ∨ (s.vp.channels.get m).state = .opened))

/-- O25. The record at a station other than PU: opened at the adoption of LINEUP with PU's figures (R146, R147, R148);
delivered as the greatest that PU has reported and the end kind as PU's (R147, R148); the external end by PU's STATUS,
with the tanks of a TW settling (R149, R135); and at every station received, the internal end and the normal sample by
a STATUS of another peer (R147, R150, R151). That the internal end is judged as a level is the model's choice (log
55), and that the STATUS from which LINEUP is adopted gives the record it opens its delivered and end kind too (log
60). The external end is read from PU's entry (R43): a full table of protected entries without the sender, which R28
rules out, takes no entry, and there the external end stays. -/
def Obligations.RecordAtFollowers : Prop :=
  (∀ (s : State) (n : Nat) (st : Status), PuStatusWaits s n st →
      ∀ pump pressure valid delivered endKind nomination maxRate,
        st.body = .pu pump pressure valid delivered endKind nomination maxRate → st.gen = s.pc.gen →
        -- LINEUP adopted
        (QuietEntry s n st → s.pc.phase = .idle → st.phase = .lineup →
          ∃ t, exec .rosterTakeFrame s = .next t ∧ t.pc.phase = .lineup ∧ t.pc.transfer = st.transfer
            ∧ t.mr.record = { Record.empty with
                state := .opened, transfer := st.transfer, nomination := nomination, maxRate := maxRate,
                delivered := delivered, endKind := endKind, received := t.mr.record.received,
                internalEnd := t.mr.record.internalEnd })
        -- PU's figures in the phase held
        ∧ (st.phase = s.pc.phase → s.mr.record.state = .opened → s.pc.order = none →
            (s.pc.phase = .tripped ∨ st.transfer = 0 ∨ st.transfer = s.pc.transfer) →
            ∃ t, exec .rosterTakeFrame s = .next t
              ∧ (st.transfer = s.mr.record.transfer →
                  t.mr.record.delivered = max s.mr.record.delivered delivered
                    ∧ t.mr.record.endKind = (if s.mr.record.endKind = .none then endKind else s.mr.record.endKind))
              ∧ (st.transfer ≠ s.mr.record.transfer →
                  t.mr.record.delivered = s.mr.record.delivered ∧ t.mr.record.endKind = s.mr.record.endKind)
              -- the external end
              ∧ (TableTakes s n → pump = .stopped →
                  (st.phase = .stopping ∨ st.phase = .closing ∨ st.phase = .ended ∨ st.phase = .tripped) →
                  t.mr.record.externalEnd = true
                    ∧ (s.mr.record.externalEnd = false → (s.ow.receipt = .receiving ∨ s.ow.receipt = .allfull) →
                        t.ow.receipt = .settling ∧ t.ow.settleLimit = ⟨true, 0⟩
                          ∧ t.ow.settleWindow.running = !(Ch.all.any fun c =>
                              (s.ow.tanks.get c).takingPart && !(s.ow.tanks.get c).levelValid)
                          ∧ ∀ c, t.ow.tanks.get c = (if (s.ow.tanks.get c).takingPart = true
                                ∧ (s.ow.tanks.get c).levelValid = true then
                              { s.ow.tanks.get c with reference := (s.ow.tanks.get c).level.getD 0 }
                            else s.ow.tanks.get c)))
              ∧ ((¬ TableTakes s n ∨ pump ≠ .stopped ∨ ¬ (st.phase = .stopping ∨ st.phase = .closing ∨ st.phase = .ended
                    ∨ st.phase = .tripped)) →
                  t.mr.record.externalEnd = s.mr.record.externalEnd))
        -- a record that is not OPEN
        ∧ (st.phase = s.pc.phase → s.mr.record.state = .sampled → s.pc.order = none →
            (s.pc.phase = .tripped ∨ st.transfer = 0 ∨ st.transfer = s.pc.transfer) →
            ∃ t, exec .rosterTakeFrame s = .next t ∧ t.mr.record = s.mr.record))
  -- received, the internal end and the normal sample
  ∧ (∀ (s : State) (l : List Byte) (h : Header) (st : Status), s.running = true → s.lc.delivery = some l →
      readFrame l = some ⟨.status, h, .status st⟩ → s.isClash h = false → h.role ≠ .pu →
      (st.phase = .tripped → h.gen ≠ s.pc.gen) → s.pc.order = none → s.mr.record.state = .opened →
      (s.mr.record.externalEnd = true
        ∨ ∀ e ∈ s.sr.entries, e.role = some .pu → ∀ x, e.last = some x → x.body.pump ≠ some .stopped) →
      ∃ t u, exec .rosterTakeFrame s = .next t ∧ u = { s with sr := t.sr }
        ∧ t.mr.record.received = min 99999999
            ((t.sr.entries.map (heardReceived s.mr.record.transfer)).sum
              + if s.hasRole .tw = true then s.ow.received else 0)
        ∧ (t.mr.record.internalEnd = true ↔ s.mr.record.internalEnd = true
            ∨ (s.hasRole .tw = false ∧ EveryTwShows u InternalEndShown)
            ∨ (s.hasRole .tw = true ∧ OwnInternalEnd s
                ∧ ∀ e ∈ t.sr.entries, e.protected' = true → e.role = some .tw → Showing u e InternalEndShown))
        ∧ (s.mr.record.externalEnd = true → t.mr.record.internalEnd = true →
            ((s.hasRole .tw = false ∧ EveryTwShows u (ReceiptShown .complete))
              ∨ (s.hasRole .tw = true ∧ s.ow.receipt = .complete
                  ∧ ∀ e ∈ t.sr.entries, e.protected' = true → e.role = some .tw →
                      Showing u e (ReceiptShown .complete))) →
            t.mr.record.state = .sampled ∧ t.mr.record.sampleKind = .normal)
        ∧ (s.hasRole .pu = false → s.mr.record.externalEnd = false →
            t.mr.record.state = .opened ∧ t.mr.record.externalEnd = false))

/-- O26. SILENCE_LIMIT (R35, R36) of a protected entry: it becomes SILENT where it stands, and in an active phase
LINKLOSS latches, naming the station, at a follower and at PU (where no automatic step and no sample falls due by the
change). REMOVAL_LIMIT (R37) takes an unprotected entry out of the table. In RUNNING the leak condition is then what
R113 asks; that it stays in JOINING, where the roster offers nothing (R29), is the model's choice (log 25). That a passed limit leaves the age one past
it is the model's choice (log 7). -/
def Obligations.SilenceAndRemoval : Prop :=
  (∀ (s : State) (n : Nat) (e : Entry), s.listening = true → s.sr.find n = some e → e.protected' = true →
      e.presence ≠ .silent →
      ∃ t, exec (.silenceLimit n) s = .next t
        ∧ t.sr.entries = s.sr.entries.map (fun x => if x.number = n then
            { e with presence := .silent, age := max e.age (s.sl.setup.silence + 1) } else x)
        ∧ (s.running = true → s.hasRole .pu = false → s.pc.phase.active = true → s.hasLatched .linkloss = false →
            (s.pc.order = some .openVc1 → s.vp.channels.n1.state ≠ .fault) →
            t.pc.phase = .tripped ∧ ⟨.linkloss, some n⟩ ∈ t.tu.latched)
        ∧ (s.runningPu = true → s.pc.order = none → s.pc.phase.active = true → s.hasLatched .linkloss = false →
            NoStepDue { s with sr := t.sr } → ¬ SampleDue { s with sr := t.sr } →
            t.pc.phase = .tripped ∧ ⟨.linkloss, some n⟩ ∈ t.tu.latched ∧ t.vp.pumpRun = false)
        ∧ (s.running = true → (t.hw.leakCond = true ↔ LeakFacts t))
        ∧ (s.running = false → Frame [.roster, .reports] s t)
        ∧ Frame (cascadeParts ++ [.leak, .roster]) s t)
  ∧ (∀ (s : State) (n : Nat) (e : Entry), s.listening = true → s.sr.find n = some e → e.protected' = false →
      (∃ t, exec (.removalLimit n) s = .next t
        ∧ t.sr.entries = (s.sr.entries.filter fun x => x.number != n)
        ∧ (s.running = true → (t.hw.leakCond = true ↔ LeakFacts t))
        ∧ (s.running = false → Frame [.roster, .reports] s t)
        ∧ Frame (cascadeParts ++ [.leak, .roster]) s t)
      ∧ (e.age ≤ s.sl.setup.silence →
          ∃ t, exec (.silenceLimit n) s = .next t
            ∧ t.sr.entries = s.sr.entries.map (fun x => if x.number = n then
                { e with age := s.sl.setup.silence + 1 } else x)
            ∧ Frame (cascadeParts ++ [.leak, .roster]) s t))

/-! ## Requests -/

/-- O27. The request commands (R49, R57, R48) where no decision is made: the answers given at once, and the request
made at a follower. Where the REQUEST place is still occupied, which R162 says does not arise, the new frame takes the
place with attempt count 0: the model's choice (log 51). NOMINATE carries its two numbers, the others none. That
REFUSED outside RUNNING carries no name is the model's reading (log 45). ANSWER_TIMER_EXPIRY (R50, R167): the request
ends with NOANSWER, naming kind and number, and its REQUEST is withdrawn: the place is freed, and an attempt under way
is detached from it. -/
def Obligations.RequestsAtFollower : Prop :=
  (∀ (s : State) (k : ReqKind) (q r : Nat), s.lineFits = true → s.pp.queue.length ≤ 8 → q ≤ 4294967295 →
    r ≤ 4294967295 →
    (s.running = false →
      ∃ t, exec (k.command q r) s = .next t ∧ NewestReport t (.answer (some (.request k)) none .refused .none)
        ∧ Frame [.reports] s t)
    ∧ (s.running = true → s.hasRole .pu = false → s.rh.outstanding.isSome = true →
      ∃ t, exec (k.command q r) s = .next t ∧ NewestReport t (.answer (some (.request k)) none .pending .none)
        ∧ Frame [.reports] s t)
    ∧ (s.running = true → s.hasRole .pu = false → s.rh.outstanding = none → s.puLive = false →
      ∃ t, exec (k.command q r) s = .next t ∧ NewestReport t (.answer (some (.request k)) none .nothere .none)
        ∧ Frame [.reports] s t)
    ∧ (∀ role, s.running = true → s.role = some role → role ≠ .pu → s.rh.outstanding = none → s.puLive = true →
      ∃ t, exec (k.command q r) s = .next t
        ∧ t.rh.nextNumber = s.rh.nextNumber + 1
        ∧ t.rh.outstanding = some (if k = .nominate then ⟨k, s.rh.nextNumber, q, r, ⟨true, 0⟩⟩
            else ⟨k, s.rh.nextNumber, 0, 0, ⟨true, 0⟩⟩)
        ∧ t.lc.request = some ⟨some (.request ⟨s.number, role, s.mr.record.transfer, s.pc.gen⟩ k s.rh.nextNumber
            (if k = .nominate then q else 0) (if k = .nominate then r else 0)), 0, false⟩
        ∧ t.lc.trip = s.lc.trip ∧ t.lc.answer = s.lc.answer ∧ t.lc.status = s.lc.status
        ∧ Frame [.requests, .frames] s t))
  ∧ (∀ (s : State) (o : Outstanding), s.rh.outstanding = some o → s.pp.queue.length < 8 →
    ∃ t, exec .answerTimerExpiry s = .next t ∧ t.rh.outstanding = none ∧ t.rh.nextNumber = s.rh.nextNumber
      ∧ t.lc.request = none
      ∧ (∀ a, s.lc.attempt = some a → a.kind = .request → t.lc.attempt = some { a with detached := true })
      ∧ (∀ a, s.lc.attempt = some a → a.kind ≠ .request → t.lc.attempt = some a)
      ∧ t.lc.trip = s.lc.trip ∧ t.lc.answer = s.lc.answer ∧ t.lc.status = s.lc.status
      ∧ NewestReport t (.answer (some (.request o.kind)) (some o.number) .noanswer .none)
      ∧ Frame [.requests, .frames, .reports] s t)

/-- O28. STEP_CONFIRMATION_TIMEOUT (R10): the step in hand is cleared and PHASE latches: in TRIPPED it joins the set
with no step in hand, and in any other phase PU enters TRIPPED. -/
def Obligations.StepTimesOut : Prop :=
  ∀ (s : State) (h : StepInHand), s.runningPu = true → s.pc.inHand = some h → s.hasLatched .phase = false →
    ∃ t, exec .stepConfirmationTimeout s = .next t ∧ t.pc.phase = .tripped ∧ ⟨.phase, none⟩ ∈ t.tu.latched
      ∧ (s.pc.phase = .tripped → t.pc.inHand = none)
      ∧ (s.pc.phase ≠ .tripped → t.vp.pumpRun = false
          ∧ (t.pc.inHand = none ∨ t.pc.inHand = some ⟨.tripped, s.pc.gen, ⟨true, 0⟩⟩))
      ∧ (s.tu.firstOut = none → t.tu.firstOut = some ⟨some .phase, .localOrigin, s.number, none⟩)
      ∧ Frame cascadeParts s t

/-- O29. R7, R8, R10: PC at PU evaluates its step in hand and its triggers at a STATUS of a peer (with the sample that
may fall due with it), at a peer that falls silent outside the active phases, at a litre, at a rate window, at PUMP_FB
and at the stop proof: OPENING to STARTING, STARTING to PUMPING, PUMPING to TOPPING, the two triggers of STOPPING with
METERED before RECEIVERFULL, STOPPING to CLOSING and CLOSING to ENDED, each put in hand, and the step in hand
confirmed. That a stopped timer shows 0 is the model's choice (log 66). -/
def Obligations.AutomaticSteps : Prop :=
  (∀ (s : State) (l : List Byte) (h : Header) (st : Status), s.runningPu = true → s.lc.delivery = some l →
      readFrame l = some ⟨.status, h, .status st⟩ → s.isClash h = false → s.pc.order = none →
      (st.phase = .tripped → h.gen ≠ s.pc.gen) →
      ∃ t, exec .rosterTakeFrame s = .next t
        ∧ (¬ SampleDue { s with sr := t.sr } → PcEvaluated { s with sr := t.sr } t)
        ∧ (SampleDue { s with sr := t.sr } →
            t.mr.record.state = .sampled ∧ t.mr.record.sampleKind = .normal
              ∧ PcEvaluated { s with
                  sr := t.sr, mr := { s.mr with record := { s.mr.record with state := .sampled } } } t))
  ∧ (∀ (s : State) (n : Nat) (e : Entry), s.runningPu = true → s.sr.find n = some e → e.protected' = true →
      e.presence ≠ .silent → s.pc.phase.active = false → s.pc.order = none →
      ∃ t, exec (.silenceLimit n) s = .next t ∧ PcEvaluated { s with sr := t.sr } t)
  ∧ (∀ s : State, s.runningPu = true → (s.mr.residual + 10) / s.sl.setup.meterK = 1 →
      ∃ t, exec .meterPulse s = .next t
        ∧ PcEvaluated
            (if s.mr.record.state = .opened ∧ s.mr.record.counting = true ∧ s.mr.record.delivered < 99999999 then
              { s with mr := { s.mr with record := { s.mr.record with delivered := s.mr.record.delivered + 1 } } }
             else s) t)
  ∧ (∀ (s : State) (flow : Bool), s.runningPu = true → s.mr.window.running = true → 0 < s.mr.windowLitres →
      (flow = true ↔ s.mr.startFlow = true
        ∨ s.pc.phase = .starting ∧ s.mr.record.maxRate * 10 / 100 ≤ s.mr.windowLitres * 360) →
      ∃ t, exec .rateWindow s = .next t ∧ PcEvaluated { s with mr := { s.mr with startFlow := flow } } t)
  ∧ (∀ s : State, s.runningPu = true → s.inputs.pumpFb = false → s.vp.pump = .starting →
      ∃ t, exec (.pumpFbChange true) s = .next t ∧ PcEvaluated { s with vp := { s.vp with pump := .running } } t)
  ∧ (∀ (s : State) (p : Nat), s.runningPu = true → s.inputs.pumpFb = true → s.vp.pump = .stopping →
      s.pressure = some p → p < s.hw.settleLevel →
      ∃ t, exec (.pumpFbChange false) s = .next t ∧ PcEvaluated { s with vp := { s.vp with pump := .stopped } } t)
  ∧ (∀ (s : State) (raw : BitVec 12) (v : Nat), s.runningPu = true → s.hw.slot = some .n1 →
      s.hw.chans.n1.fault = false → 40 < raw.toNat → raw.toNat < 4055 → v = raw.toNat * s.hw.chans.n1.span / 4095 →
      v ≤ s.hw.hardLimit → s.vp.pump = .stopping → s.inputs.pumpFb = false → v < s.hw.settleLevel →
      ∃ t, exec (.scanReading raw) s = .next t ∧ PcEvaluated { s with vp := { s.vp with pump := .stopped } } t)

/-- O30. The requests at PU that are turned away (R54, R55, R57, R72), in the order of the checks: PU is left as it
was but for the answer. NOTREADY names the first entry of the line-up list that fails, or PU itself; that it names
none where no entry fails and where the pump has not stopped is the model's reading (log 43). -/
def Obligations.RequestsTurnedAway : Prop :=
  ∀ (s : State) (k : ReqKind) (q r : Nat), s.lineFits = true → s.pp.queue.length ≤ 8 → q ≤ 4294967295 →
    r ≤ 4294967295 → s.runningPu = true →
    (s.pc.inHand.isSome = true →
      ∃ t, exec (k.command q r) s = .next t
        ∧ NewestReport t (.answer (some (.request k)) none (.decided .busy) .none) ∧ Frame [.reports] s t)
    ∧ (s.pc.inHand = none →
        (match k with
         | .nominate => s.pc.phase ≠ .idle
         | .start => s.pc.phase ≠ .lineup
         | .pause => s.pc.phase ≠ .pumping ∧ s.pc.phase ≠ .topping
         | .resume => s.pc.phase ≠ .paused
         | .stop => s.pc.phase = .idle ∨ s.pc.phase = .stopping ∨ s.pc.phase = .closing ∨ s.pc.phase = .ended
             ∨ s.pc.phase = .tripped
         | .reset => s.pc.phase ≠ .tripped
         | .endack => s.pc.phase ≠ .ended) →
        ∃ t, exec (k.command q r) s = .next t
          ∧ NewestReport t (.answer (some (.request k)) none (.decided .wrongphase) .none) ∧ Frame [.reports] s t)
    ∧ (s.pc.inHand = none → s.pc.phase = .idle →
        (q < 1 ∨ 9999999 < q ∨ r < 1000 ∨ 3000000 < r) →
        ∃ t, exec (.nominate q r) s = .next t
          ∧ NewestReport t (.answer (some (.request .nominate)) none (.decided .badarg) .none)
          ∧ Frame [.reports] s t)
    ∧ (s.pc.inHand = none → s.pc.phase = .paused → s.vp.pump ≠ .stopped →
        ∃ t, exec .resume s = .next t
          ∧ NewestReport t (.answer (some (.request .resume)) none (.decided .notready) .none)
          ∧ Frame [.reports] s t)
    ∧ (s.pc.inHand = none → s.pc.phase = .lineup → s.pc.ready = false →
        ∃ t name, exec .start s = .next t
          ∧ NewestReport t (.answer (some (.request .start)) none (.decided .notready) name)
          ∧ (s.lineupReadySet = true → name = .station s.number)
          ∧ Frame [.reports] s t)
    ∧ (s.pc.inHand = none → s.pc.phase = .lineup → s.lineupReadySet = false →
        ∃ t name, exec .start s = .next t
          ∧ NewestReport t (.answer (some (.request .start)) none (.decided .notready) name)
          ∧ (∀ before n after e, s.sl.setup.lineup = before ++ n :: after →
              (s.sr.entries.find? fun x => x.protected' && x.number == n) = some e →
              ¬ (e.presence = .present ∧ Showing s e fun st => st.phase = .lineup ∧ st.ready = true) →
              (∀ m ∈ before, ∀ x, (s.sr.entries.find? fun x => x.protected' && x.number == m) = some x →
                x.presence = .present ∧ Showing s x fun st => st.phase = .lineup ∧ st.ready = true) →
              name = .station n)
          ∧ ((∀ n ∈ s.sl.setup.lineup, ∀ e, (s.sr.entries.find? fun x => x.protected' && x.number == n) = some e →
              e.presence = .present ∧ Showing s e fun st => st.phase = .lineup ∧ st.ready = true) → name = .none)
          ∧ Frame [.reports] s t)
    ∧ (∀ c, s.pc.inHand = none → s.pc.phase = .tripped → s.firstActiveCause = some c →
        ∃ t, exec .reset s = .next t
          ∧ NewestReport t (.answer (some (.request .reset)) none (.decided .causeactive) (.cause c))
          ∧ Frame [.reports] s t)
    ∧ (s.pc.inHand = none → s.pc.phase = .tripped → s.firstActiveCause = none → s.vp.pump ≠ .stopped →
        ∃ t, exec .reset s = .next t
          ∧ NewestReport t (.answer (some (.request .reset)) none (.decided .notready) .none)
          ∧ Frame [.reports] s t)
    ∧ (s.pc.inHand = none → s.pc.phase = .tripped → s.firstActiveCause = none → s.vp.pump = .stopped →
        (∃ e ∈ s.sr.entries, e.protected' = true
          ∧ ¬ (e.presence = .present ∧ Showing s e fun st => st.cause = false ∧ st.closed = true)) →
        ∃ t name, exec .reset s = .next t
          ∧ NewestReport t (.answer (some (.request .reset)) none (.decided .notready) name)
          ∧ (∀ before n after e, s.sl.setup.lineup = before ++ n :: after →
              (s.sr.entries.find? fun x => x.protected' && x.number == n) = some e →
              ¬ (e.presence = .present ∧ Showing s e fun st => st.cause = false ∧ st.closed = true) →
              (∀ m ∈ before, ∀ x, (s.sr.entries.find? fun x => x.protected' && x.number == m) = some x →
                x.presence = .present ∧ Showing s x fun st => st.cause = false ∧ st.closed = true) →
              name = .station n)
          ∧ Frame [.reports] s t)

/-- O31. The requests taken at PU (R6, R57), while some PRESENT protected peer does not show the new phase yet.
NOMINATE (R15, R146): the transfer number advances past 0, LINEUP is entered and put in hand, the record opens, and
TAKEN is answered. START, PAUSE, RESUME, STOP, RESET and ENDACK (R18 to R26, R73, R148, R152, R155): the step of the
request, put in hand, with its entry actions at PU. The place of the ANSWER, after the events of the effect, is the
model's choice (log 28). -/
def Obligations.RequestsTaken : Prop :=
  (∀ (s : State) (q r : Nat) (e : Entry), s.lineFits = true → s.pp.queue.length ≤ 8 → s.runningPu = true →
    s.pc.inHand = none → s.pc.phase = .idle → 1 ≤ q → q ≤ 9999999 → 1000 ≤ r → r ≤ 3000000 →
    e ∈ s.sr.entries → e.protected' = true → e.presence = .present →
    (e.shows s.pc.gen fun st => st.phase == .lineup) = false →
    ∃ t, exec (.nominate q r) s = .next t ∧ t.pc.phase = .lineup
      ∧ t.pc.inHand = some ⟨.lineup, s.pc.gen, ⟨true, 0⟩⟩
      ∧ t.pc.transfer = (if s.pc.transfer = 255 then 1 else s.pc.transfer + 1)
      ∧ t.mr.record = { Record.empty with
          state := .opened, transfer := t.pc.transfer, nomination := q, maxRate := r }
      ∧ t.mr.cap = false ∧ t.mr.belowCount = 0 ∧ t.lc.status.isSome = true
      ∧ NewestReport t (.answer (some (.request .nominate)) none (.decided .taken) .none)
      ∧ Frame (watchParts ++ [.phase, .transfer, .meter, .record, .tanks]) s t)
  ∧ (∀ (s : State) (k : ReqKind) (p : Phase) (e : Entry), s.lineFits = true → s.pp.queue.length ≤ 8 →
    s.runningPu = true → s.pc.inHand = none →
    (k, s.pc.phase, p) ∈
      ([(.start, .lineup, .opening), (.pause, .pumping, .paused), (.pause, .topping, .paused),
        (.resume, .paused, .starting), (.stop, .lineup, .idle), (.stop, .opening, .closing),
        (.stop, .starting, .stopping), (.stop, .pumping, .stopping), (.stop, .topping, .stopping),
        (.stop, .paused, .stopping), (.reset, .tripped, .ended), (.endack, .ended, .idle)]
        : List (ReqKind × Phase × Phase)) →
    (k = .start → s.lineupReadySet = true ∧ s.pc.ready = true ∧ s.someSilent = false
      ∧ ∀ n : Ch, (s.hw.chans.get n).enabled = true → (s.hw.chans.get n).fault = false) →
    (k = .resume → s.vp.pump = .stopped) →
    (k = .reset → (∀ l ∈ s.tu.latched, s.causeActive l.cause = false) ∧ s.vp.pump = .stopped
      ∧ s.peersResettable = true) →
    e ∈ s.sr.entries → e.protected' = true → e.presence = .present →
    (e.shows (if k = .reset then s.pc.gen + 1 else s.pc.gen) fun st => st.phase == p) = false →
    ∃ t, exec (k.command 0 0) s = .next t ∧ t.pc.phase = p
      ∧ t.pc.gen = (if k = .reset then s.pc.gen + 1 else s.pc.gen)
      ∧ t.pc.inHand = some ⟨p, t.pc.gen, ⟨true, 0⟩⟩ ∧ t.lc.status.isSome = true
      ∧ NewestReport t (.answer (some (.request k)) none (.decided .taken) .none)
      ∧ (k = .start → s.mr.record.state = .opened → t.mr.record = { s.mr.record with counting := true })
      ∧ ((k = .pause ∨ p = .stopping) → t.vp.pumpRun = false ∧ t.vp.rateLow = false
          ∧ ((s.vp.pump = .starting ∨ s.vp.pump = .running) →
              t.vp.pump = .stopping ∧ t.vp.stopTimer = ⟨true, 0⟩))
      ∧ (p = .stopping → s.mr.record.state = .opened → s.mr.record.endKind = .none →
          t.mr.record.endKind = .operator)
      ∧ (k = .resume → t.vp.pump = .starting ∧ t.vp.pumpRun = true ∧ t.vp.rateLow = true
          ∧ t.vp.feedback = ⟨true, 0⟩ ∧ t.mr.startLimit = ⟨true, 0⟩ ∧ t.mr.startFlow = false
          ∧ t.mr.windowLitres = 0 ∧ t.mr.window = ⟨true, 0⟩)
      ∧ (k = .reset → t.tu.firstOut = none ∧ t.tu.latched = [] ∧ t.tu.cause = false ∧ t.lc.trip = none
          ∧ (s.mr.record.state = .opened → t.mr.record.state = .sampled ∧ t.mr.record.sampleKind = .forced
              ∧ t.mr.record.counting = false))
      ∧ (k ≠ .reset → t.tu.firstOut = s.tu.firstOut ∧ t.tu.latched = s.tu.latched)
      ∧ (p = .idle → t.mr.record = Record.empty)
      ∧ Frame (cascadeParts ++ [.generation]) s t)

/-- O32. REQUEST and ANSWER frames taken by ROSTER_TAKE_FRAME, and a frame with unusable contents: PU decides a
REQUEST and places its ANSWER (R54, R55, R56), or leaves it undecided while the ANSWER place is occupied, with the
LINK event that names the sender, the kind as its code was carried, and the number (R53); a code outside the table is
decided as a kind of no phase (R54, R182); a follower disregards a REQUEST (R34); an ANSWER ends the request it
matches or is stray (R51); unusable contents leave the last status (R182), but for a change of role, which removes it
(R32) there too: the model's choice (log 72). The entry is heard in each case (R32), and the order of what one frame
sets off is the model's (logs 11 and 39). -/
def Obligations.RequestFrames : Prop :=
  -- a REQUEST at PU
  (∀ (s v u : State) (l : List Byte) (h : Header) (code : Nat) (kind : Option ReqKind) (number : BitVec 8) (q r : Nat)
      (e : Entry), s.runningPu = true → s.lc.delivery = some l →
      readFrame l = some ⟨.request, h, .request code number q r⟩ → kind = ReqKind.ofCode code →
      s.isClash h = false → s.sr.find h.sender = some e → s.pc.order = none → s.hw.leakCond = false →
      v = { s with sr := s.sr.heard e h.role } → u = { v with pc := { v.pc with ready := v.readyNow } } →
      ¬ SampleDue u →
      -- undecided
      (s.lc.answer.isSome = true → NoStepDue u → s.lc.assembly.condition ≠ .full →
        ∃ (t : State) (p : PanelPort), exec .rosterTakeFrame s = .next t ∧ t.sr = u.sr ∧ t.lc.answer = s.lc.answer
          ∧ t.pc.phase = s.pc.phase ∧ t.tu.firstOut = s.tu.firstOut ∧ t.tu.latched = s.tu.latched
          ∧ t.pp = p.placeEvent (.undecided h.sender code number) ∧ p.mask = s.pp.mask)
      -- a step in hand
      ∧ (s.lc.answer = none → Unconfirmed u →
          ∃ t, exec .rosterTakeFrame s = .next t ∧ t.sr = u.sr ∧ PuUnmoved s t ∧ AnswerPlaced t h.sender number .busy)
      -- turned away
      ∧ (∀ o, s.lc.answer = none → s.pc.inHand = none → (∀ p k, ¬ Due u p k) → TurnedAway u kind q r o →
          ∃ t, exec .rosterTakeFrame s = .next t ∧ t.sr = u.sr ∧ PuUnmoved s t ∧ AnswerPlaced t h.sender number o)
      -- taken
      ∧ (∀ k p x, s.lc.answer = none → s.pc.inHand = none → (∀ p k, ¬ Due u p k) → kind = some k →
          requestStep k s.pc.phase = some p → (∀ o, ¬ RequestFails u k q r o) →
          (k = .start → ∀ n : Ch, (s.hw.chans.get n).enabled = true → (s.hw.chans.get n).fault = false) →
          x ∈ u.sr.entries → x.protected' = true → x.presence = .present →
          (x.shows (if k = .reset then s.pc.gen + 1 else s.pc.gen) fun st => st.phase == p) = false →
          ∃ t, exec .rosterTakeFrame s = .next t ∧ t.sr = u.sr ∧ t.pc.phase = p
            ∧ t.pc.gen = (if k = .reset then s.pc.gen + 1 else s.pc.gen)
            ∧ t.pc.inHand = some ⟨p, t.pc.gen, ⟨true, 0⟩⟩ ∧ t.lc.status.isSome = true
            ∧ (k = .nominate → t.pc.transfer = (if s.pc.transfer = 255 then 1 else s.pc.transfer + 1)
                ∧ t.mr.record = { Record.empty with
                    state := .opened, transfer := t.pc.transfer, nomination := q, maxRate := r })
            ∧ AnswerPlaced t h.sender number .taken))
  -- a REQUEST at a follower
  ∧ (∀ (s : State) (l : List Byte) (h : Header) (code : Nat) (number : BitVec 8) (q r : Nat) (e : Entry),
      s.running = true → s.hasRole .pu = false → s.lc.delivery = some l →
      readFrame l = some ⟨.request, h, .request code number q r⟩ → s.isClash h = false →
      s.sr.find h.sender = some e → s.pc.order = none →
      ∃ t, exec .rosterTakeFrame s = .next t ∧ t.sr = s.sr.heard e h.role ∧ t.lc.answer = s.lc.answer
        ∧ t.pc.phase = s.pc.phase
        ∧ Frame (watchParts ++ [.leak, .channels, .pressure, .tanks, .record, .roster, .receive]) s t)
  -- an ANSWER
  ∧ (∀ (s : State) (l : List Byte) (h : Header) (dest : Nat) (number : BitVec 8) (o : Decision), s.running = true →
      s.lc.delivery = some l → readFrame l = some ⟨.answer, h, .answer dest number o⟩ → s.isClash h = false →
      (∀ w, dest = s.number → s.rh.outstanding = some w → w.number = number → s.pp.queue.length ≤ 8 →
        s.pp.owed + 1 ≤ 8 → s.lc.assembly.condition ≠ .full →
        ∃ t, exec .rosterTakeFrame s = .next t ∧ t.rh = ⟨s.rh.nextNumber, none⟩
          ∧ NewestReport t (.answer (some (.request w.kind)) (some number) (.decided o) .none))
      ∧ (dest = s.number → (∀ w, s.rh.outstanding = some w → w.number ≠ number) → s.lc.assembly.condition ≠ .full →
        ∃ (t : State) (p : PanelPort), exec .rosterTakeFrame s = .next t ∧ t.rh = s.rh
          ∧ t.pp = p.placeEvent (.strayAnswer number o) ∧ p.mask = s.pp.mask)
      ∧ (dest ≠ s.number → ∃ t, exec .rosterTakeFrame s = .next t ∧ t.rh = s.rh)
      ∧ (∀ e, s.sr.find h.sender = some e →
          ∃ t, exec .rosterTakeFrame s = .next t ∧ t.sr = s.sr.heard e h.role))
  -- contents that are unusable
  ∧ (∀ (s : State) (l : List Byte) (k : FrameKind) (h : Header) (tripped : Bool) (c : Option Cause) (o : Nat)
      (e : Entry), s.running = true → s.lc.delivery = some l → readFrame l = some ⟨k, h, .unusable tripped c o⟩ →
      s.isClash h = false → s.sr.find h.sender = some e → s.pc.order = none → s.lc.assembly.condition ≠ .full →
      ∃ (t : State) (p : PanelPort), exec .rosterTakeFrame s = .next t ∧ t.sr = s.sr.heard e h.role
        ∧ t.pp = p.placeEvent (.field h.sender k) ∧ p.mask = s.pp.mask
        ∧ ((tripped = false ∨ h.gen ≠ s.pc.gen) → s.hasRole .pu = false →
            t.pc.phase = s.pc.phase ∧ t.tu.firstOut = s.tu.firstOut ∧ t.tu.latched = s.tu.latched)
        ∧ (tripped = true → h.gen = s.pc.gen →
            t.pc.phase = .tripped ∧ t.tu.firstOut = some (s.tu.firstOut.getD
              ⟨c, .remoteOrigin, if c = none ∨ o = 0 then h.sender else o, none⟩)))

/-! ## Trips and alarms -/

/-- O33. TRIP (R198, R65, R26) and ESD_IN_CHANGE to on (R61) at a RUNNING station that has not latched MANUAL: MANUAL
latches, TRIPPED is entered, a latch into an empty set asks for a TRIP frame, and the pump is told to stop at PU. With
MANUAL latched already the record stays. ESD_IN_CHANGE to off (R64): the active condition of MANUAL goes, and nothing
is latched or withdrawn. The place of the ANSWER, after the events of the effect, is the model's choice (log 28). -/
def Obligations.ManualTrips : Prop :=
  (∀ (s : State) (c : Instr), s.running = true → s.hasLatched .manual = false →
        ((c = .trip ∧ s.lineFits = true ∧ s.pp.queue.length ≤ 8) ∨ (c = .esdInChange true ∧ s.inputs.esd = false)) →
        ∃ t, exec c s = .next t ∧ t.pc.phase = .tripped ∧ (s.tu.latched ++ [⟨.manual, none⟩]) <+: t.tu.latched
          ∧ t.tu.firstOut = some (s.tu.firstOut.getD ⟨some .manual, .localOrigin, s.number, none⟩)
          ∧ (s.tu.latched = [] → t.lc.trip.isSome = true)
          ∧ (s.pc.phase ≠ .tripped → s.hasRole .pu = true → t.vp.pumpRun = false ∧ t.vp.rateLow = false)
          ∧ (s.pc.phase ≠ .tripped → s.closingRole = true → t.vp.holdOff = .holding ∨ t.vp.holdOff = .released)
          ∧ (s.pc.phase ≠ .tripped → s.mr.record.state = .opened →
              t.mr.record.tripMark = true ∧ (s.pc.phase.pumpOn = true → t.mr.record.endKind ≠ .none))
          ∧ (c = .trip → NewestReport t (.answer (some .trip) none (.decided .taken) .none) ∧ t.inputs = s.inputs)
          ∧ (c = .esdInChange true → t.inputs = { s.inputs with esd := true } ∧ t.tu.cause = true)
          ∧ Frame (cascadeParts ++ [.inputs]) s t)
  ∧ (∀ s : State, s.running = true → s.hasLatched .manual = true →
      (s.lineFits = true → s.pp.queue.length ≤ 8 →
        ∃ t, exec .trip s = .next t ∧ NewestReport t (.answer (some .trip) none (.decided .taken) .none)
          ∧ Frame [.reports] s t)
      ∧ (s.inputs.esd = false →
        ∃ t, exec (.esdInChange true) s = .next t ∧ t.inputs = { s.inputs with esd := true } ∧ t.tu.cause = true
          ∧ Frame (watchParts ++ [.inputs]) s t))
  ∧ (∀ s : State, s.inputs.esd = true →
    ∃ t, exec (.esdInChange false) s = .next t ∧ t.inputs = { s.inputs with esd := false }
      ∧ (s.tu.latched = [⟨.manual, none⟩] → t.tu.cause = false)
      ∧ Frame (watchParts ++ [.inputs]) s t)

/-- O34. R78: an acknowledge, by ACK_IN going from off to on or by SILENCE, acts on every entry of the alarm set under
the table of R75, which leaves no entry that HORN sounds (R79), in every station state but STARTUP, and touches
nothing else; ACK_IN held on or going off acknowledges nothing, and SILENCE is answered TAKEN, in STARTUP REFUSED
STATE (R198). The place of the ANSWER, after the events of the effect, is the model's choice (log 28). -/
def Obligations.Acknowledge : Prop :=
  ∀ (s : State) (c : Instr),
    ((c = .ackInChange true ∧ s.inputs.ack = false) ∨ (c = .silence ∧ s.lineFits = true ∧ s.pp.queue.length ≤ 8)) →
    s.pc.station ≠ .startup →
    (∃ t, exec c s = .next t
      ∧ t.an.set = (s.an.set.filter fun a => a.state != .clearNew).map (fun a => ⟨a.key, .activeAcked⟩)
      ∧ ((∀ a ∈ s.an.set, a.state = .activeAcked) → t.an.set = s.an.set)
      ∧ t.an.horn.cadence = .off
      ∧ (c = .silence → NewestReport t (.answer (some .silence) none (.decided .taken) .none)
          ∧ Frame [.alarms, .reports] s t)
      ∧ (c = .ackInChange true → t.inputs = { s.inputs with ack := true }
          ∧ Frame [.inputs, .alarms, .reports] s t))
    ∧ (∀ u : State, u.pc.station = .startup → u.lineFits = true → u.pp.queue.length ≤ 8 →
        ∃ t, exec .silence u = .next t ∧ NewestReport t (.answer (some .silence) none .refused (.reason .state))
          ∧ Frame [.reports] u t)
    ∧ (∀ u : State, u.inputs.ack = true → exec (.ackInChange true) u = .next u)
    ∧ (∀ u : State, u.inputs.ack = true →
        exec (.ackInChange false) u = .next { u with inputs := { u.inputs with ack := false } })
    ∧ (∀ u : State, u.inputs.ack = false → u.pc.station = .startup →
        exec (.ackInChange true) u = .next { u with inputs := { u.inputs with ack := true } })

/-- O35. CADENCE_TOGGLE (R79): an output that sounds FAST or SLOW changes over and begins a new half; one that is off
or STEADY stays as it is. -/
def Obligations.CadenceToggles : Prop :=
  ∀ (s : State) (o : Sounder),
    ∃ t, exec (.cadenceToggle o) s = .next t ∧ t.an.set = s.an.set
      ∧ (o = .horn → t.an.beacon = s.an.beacon
          ∧ ((s.an.horn.cadence = .fast ∨ s.an.horn.cadence = .slow) →
              t.an.horn = ⟨s.an.horn.cadence, !s.an.horn.on, ⟨true, 0⟩⟩)
          ∧ ((s.an.horn.cadence = .off ∨ s.an.horn.cadence = .steady) → t.an.horn = s.an.horn))
      ∧ (o = .beacon → t.an.horn = s.an.horn
          ∧ ((s.an.beacon.cadence = .fast ∨ s.an.beacon.cadence = .slow) →
              t.an.beacon = ⟨s.an.beacon.cadence, !s.an.beacon.on, ⟨true, 0⟩⟩)
          ∧ ((s.an.beacon.cadence = .off ∨ s.an.beacon.cadence = .steady) → t.an.beacon = s.an.beacon))
      ∧ Frame [.alarms] s t

/-- O36. QUALIFICATION_EXPIRY (R62, R63, R128): OVERFILL makes its tank OVERFILL and latches; SURGE and LEAK latch
where they are enabled, in the phases of their row of R61; disabled, either raises its alarm while its condition still
holds (R76), latches nothing and moves no phase (R63), at PU too. -/
def Obligations.QualificationExpires : Prop :=
  (∀ (s : State) (n : Ch), s.running = true → s.hasRole .tw = true → (s.tu.overfill.get n).timer.running = true →
      s.hasLatched .overfill = false →
      ∃ t, exec (.qualificationExpiry (.overfill n)) s = .next t ∧ (t.ow.tanks.get n).state = .overfill
        ∧ t.pc.phase = .tripped ∧ ⟨.overfill, some n.num⟩ ∈ t.tu.latched ∧ t.tu.named.get n = true
        ∧ ((t.ow.claim.waiting = true → s.ow.claim.waiting = true) ∧ (s.ow.claim.tank = some n →
            s.ow.claim.waiting = true → t.ow.claim.waiting = false))
        ∧ (∀ m, m ≠ n → (t.ow.tanks.get m).state = (s.ow.tanks.get m).state)
        ∧ Frame cascadeParts s t)
  ∧ (∀ (s : State), s.running = true → s.tu.surge.timer.running = true → s.tu.mask.surge = true →
      (s.pc.phase.active = true ∨ s.pc.phase = .tripped) → s.hasLatched .surge = false →
      ∃ t, exec (.qualificationExpiry .surge) s = .next t ∧ t.pc.phase = .tripped
        ∧ ⟨.surge, none⟩ ∈ t.tu.latched ∧ Frame cascadeParts s t)
  ∧ (∀ (s : State), s.running = true → s.tu.leak.timer.running = true → s.tu.mask.leak = true →
      (s.pc.phase = .pumping ∨ s.pc.phase = .topping) → s.hasLatched .leak = false →
      ∃ t, exec (.qualificationExpiry .leak) s = .next t ∧ t.pc.phase = .tripped
        ∧ ⟨.leak, none⟩ ∈ t.tu.latched ∧ Frame cascadeParts s t)
  ∧ (∀ (s : State), s.running = true → s.tu.surge.timer.running = true → s.tu.mask.surge = false →
      NoStepDue s → (s.pc.phase.active = true ∨ s.pc.phase = .tripped) → s.aboveThreshold = true →
      alarmEntry s.an.set .surge = none →
      ∃ t, exec (.qualificationExpiry .surge) s = .next t ∧ t.pc = { s.pc with
          ready := t.pc.ready, path := t.pc.path, closed := t.pc.closed, inHand := t.pc.inHand }
        ∧ ((s.hasRole .pu = false ∨ Unconfirmed s) → t.pc.inHand = s.pc.inHand)
        ∧ t.tu.latched = s.tu.latched ∧ t.tu.firstOut = s.tu.firstOut
        ∧ ⟨.surge, .activeNew⟩ ∈ t.an.set ∧ Frame (watchParts ++ [.phase]) s t)
  ∧ (∀ (s : State), s.running = true → s.hasRole .sv = true → s.tu.leak.timer.running = true →
      s.tu.mask.leak = false → (s.pc.phase = .pumping ∨ s.pc.phase = .topping) → s.hw.leakCond = true →
      alarmEntry s.an.set .leak = none →
      ∃ t, exec (.qualificationExpiry .leak) s = .next t ∧ t.pc = { s.pc with
          ready := t.pc.ready, path := t.pc.path, closed := t.pc.closed }
        ∧ t.tu.latched = s.tu.latched ∧ t.tu.firstOut = s.tu.firstOut ∧ t.lc.trip = s.lc.trip
        ∧ ⟨.leak, .activeNew⟩ ∈ t.an.set ∧ Frame watchParts s t)

/-! ## The panel -/

/-- O37. ASSIGN and UNASSIGN (R119, R120, R198): the state a tank takes when every check passes, and the reason of the
first check that fails. Where the tank's state changes, READY and CLOSED are then as R17, R19 and R40 give them. STATE
before ROLE at a station that is neither TW nor RUNNING is the model's reading (log 26). The place of the ANSWER,
after the events of the effect, is the model's choice (log 28). -/
def Obligations.TankCommands : Prop :=
  ∀ (s : State) (n : Ch), s.lineFits = true → s.pp.queue.length ≤ 8 →
    (s.running = true → s.hasRole .tw = true → (s.pc.phase = .idle ∨ s.pc.phase = .lineup) →
      n.num ≤ s.sl.setup.tankCount →
      ((s.ow.tanks.get n).state = .excluded ∨ (s.ow.tanks.get n).state = .assigned) →
      (∃ t, exec (.unassign n.num) s = .next t ∧ (t.ow.tanks.get n) = { s.ow.tanks.get n with state := .excluded }
        ∧ (∀ m, m ≠ n → t.ow.tanks.get m = s.ow.tanks.get m)
        ∧ NewestReport t (.answer (some .unassign) none (.decided .taken) .none)
        ∧ ((s.ow.tanks.get n).state = .assigned → FlagsRight t)
        ∧ ((s.ow.tanks.get n).state = .excluded → t.pc = s.pc) ∧ Frame (watchParts ++ [.tanks]) s t)
      ∧ (∀ v, (s.vp.channels.get n).state = .shut → (s.ow.tanks.get n).levelValid = true →
          (s.ow.tanks.get n).level = some v → v < (s.sl.setup.tanks.get n).topping →
          ∃ t, exec (.assign n.num) s = .next t
            ∧ (t.ow.tanks.get n) = { s.ow.tanks.get n with state := .assigned }
            ∧ (∀ m, m ≠ n → t.ow.tanks.get m = s.ow.tanks.get m)
            ∧ NewestReport t (.answer (some .assign) none (.decided .taken) .none)
            ∧ ((s.ow.tanks.get n).state = .excluded → FlagsRight t)
            ∧ ((s.ow.tanks.get n).state = .assigned → t.pc = s.pc) ∧ Frame (watchParts ++ [.tanks]) s t)
      ∧ ((s.vp.channels.get n).state ≠ .shut →
          ∃ t, exec (.assign n.num) s = .next t
            ∧ NewestReport t (.answer (some .assign) none .refused (.reason .valve)) ∧ Frame [.reports] s t)
      ∧ ((s.vp.channels.get n).state = .shut →
          ((s.ow.tanks.get n).levelValid = false
            ∨ ∃ v, (s.ow.tanks.get n).level = some v ∧ (s.sl.setup.tanks.get n).topping ≤ v) →
          ∃ t, exec (.assign n.num) s = .next t
            ∧ NewestReport t (.answer (some .assign) none .refused (.reason .level)) ∧ Frame [.reports] s t))
    ∧ (∀ c w, (c = .assign n.num ∧ w = CommandWord.assign ∨ c = .unassign n.num ∧ w = CommandWord.unassign) →
        (s.running = true → s.hasRole .tw = false →
          ∃ t, exec c s = .next t ∧ NewestReport t (.answer (some w) none .refused (.reason .role))
            ∧ Frame [.reports] s t)
        ∧ (s.running = false →
          ∃ t, exec c s = .next t ∧ NewestReport t (.answer (some w) none .refused (.reason .state))
            ∧ Frame [.reports] s t)
        ∧ (s.running = true → s.hasRole .tw = true → s.pc.phase ≠ .idle → s.pc.phase ≠ .lineup →
          ∃ t, exec c s = .next t ∧ NewestReport t (.answer (some w) none .refused (.reason .phase))
            ∧ Frame [.reports] s t)
        ∧ (s.running = true → s.hasRole .tw = true → (s.pc.phase = .idle ∨ s.pc.phase = .lineup) →
          (s.sl.setup.tankCount < n.num
            ∨ ((s.ow.tanks.get n).state ≠ .excluded ∧ (s.ow.tanks.get n).state ≠ .assigned)) →
          ∃ t, exec c s = .next t ∧ NewestReport t (.answer (some w) none .refused (.reason .tank))
            ∧ Frame [.reports] s t))

/-- O38. R201: the mask start-up gives, what MASK makes of it wherever its line is handled (R202: with the queue full,
an EVENT waits whose place its answer takes), what it does to events and to the queue, and that nothing but MASK and
start-up changes it. -/
def Obligations.ReportMask : Prop :=
  State.reset.pp.mask = ⟨true, true, true, true, true, false⟩
  ∧ (∀ s t, exec .startUp s = .next t → t.pp.mask = ⟨true, true, true, true, true, false⟩)
  ∧ (∀ (s : State) (w : MaskWords), s.lineFits = true →
      ∃ t, exec (.mask w) s = .next t
        ∧ (w = .all → ∀ c, t.pp.mask.has c = true)
        ∧ (∀ l, w = .names l → ∀ c, t.pp.mask.has c = true ↔ c ∈ l)
        ∧ NewestReport t (.answer (some .mask) none (.decided .taken) .none)
        ∧ ReplyPlaced { s.pp with mask := t.pp.mask } t.pp (.answer (some .mask) none (.decided .taken) .none)
        ∧ (8 ≤ s.pp.queue.length → HoldsWaitingEvent s.pp)
        ∧ Frame [.reportMask, .reports] s t)
  ∧ (∀ (p : PanelPort) (e : Event), p.mask.has e.cls = false → p.placeEvent e = p)
  ∧ (∀ (p : PanelPort) (m : ClassMask) (r : Report),
      ({ p with mask := m }.placeReply r).queue = (p.placeReply r).queue)
  ∧ (∀ (c : Instr) (s t : State), c ≠ .startUp → (∀ w, c ≠ .mask w) → (∀ x, c ≠ .panelCharacter x) →
      exec c s = .next t → t.pp.mask = s.pp.mask)
  ∧ (∀ s : State, s.lineFits = true →
      ∃ t l, exec .readPanel s = .next t ∧ NewestReport t (.data (.panel l s.pp.queue.length s.pp.lost))
        ∧ (∀ c, c ∈ l ↔ s.pp.mask.has c = true) ∧ Frame [.reports] s t)

/-- O39. READ PHASE, READ TRIP, READ ALARM, READ SETUP and READ RECORD (R203, R80, R196, R157): one DATA report with
the values the blocks hold, and nothing else. -/
def Obligations.ReadsOfEveryStation : Prop :=
  ∀ s : State, s.lineFits = true → s.pp.queue.length ≤ 8 →
    (∃ t, exec .readPhase s = .next t ∧ NewestReport t
        (.data (.phase s.pc.station s.pc.phase s.pc.transfer s.pc.gen s.pc.inHand s.rh)) ∧ Frame [.reports] s t)
    ∧ (∃ t timers, exec .readTrip s = .next t ∧ NewestReport t
        (.data (.trip s.tu.firstOut (s.tu.latched.map fun l => (l, s.causeActive l.cause)) s.tu.cause s.tu.mask timers))
        ∧ (∀ n e, (QualId.overfill n, e) ∈ timers ↔ (s.tu.overfill.get n).timer = ⟨true, e⟩)
        ∧ (∀ e, (QualId.surge, e) ∈ timers ↔ s.tu.surge.timer = ⟨true, e⟩)
        ∧ (∀ e, (QualId.leak, e) ∈ timers ↔ s.tu.leak.timer = ⟨true, e⟩) ∧ Frame [.reports] s t)
    ∧ (∃ t, exec .readAlarm s = .next t ∧ NewestReport t
        (.data (.alarm s.an.set s.tu.firstOut s.an.horn.cadence s.an.beacon.cadence)) ∧ Frame [.reports] s t)
    ∧ (∃ t, exec .readSetup s = .next t ∧ NewestReport t
        (.data (.setup s.sl.sn s.sl.rl s.sl.step s.sl.fault
          (if s.sl.step = .frozen then some s.sl.setup else none)
          (if s.sl.step = .rejected then s.sl.image else none))) ∧ Frame [.reports] s t)
    ∧ (∃ t v, exec .readRecord s = .next t ∧ NewestReport t (.data (.record ⟨s.mr.record.state, s.mr.record.transfer,
          s.mr.record.nomination, s.mr.record.maxRate, s.mr.record.delivered, s.mr.record.received,
          if s.hasRole .pu = true then some s.mr.record.afterFlow else none, s.mr.record.externalEnd,
          s.mr.record.internalEnd, s.mr.record.endKind, s.mr.record.tripMark, s.mr.record.sampleKind,
          s.mr.record.outcome⟩ v))
        ∧ (s.hasRole .pu = false → v = none)
        ∧ (s.hasRole .pu = true → v = some ⟨s.sl.setup.meterK, s.mr.residual, s.mr.stray, s.mr.windowLitres,
            s.mr.window, s.mr.lastRate, s.mr.startFlow, s.mr.startLimit, s.mr.zeroCount, s.mr.cap, s.mr.belowCount,
            s.mr.record.maxRate * 90 / 100⟩) ∧ Frame [.reports] s t)

/-- O40. READ PUMP, READ VALVE, READ SCAN and READ TANK (R203, R99, R93, R116, R137): the values, NONE where the role
has none (which roles have none is the model's reading, log 22), and REFUSED SYNTAX for a number outside 1..4. -/
def Obligations.ReadsOfTheField : Prop :=
  ∀ (s : State) (r : Role), s.lineFits = true → s.pp.queue.length ≤ 8 → s.role = some r →
    (∃ t, exec .readPump s = .next t ∧ NewestReport t (.data (if r = .pu then
          .pump s.vp.pump s.vp.pumpRun s.vp.rateLow s.inputs.pumpFb s.vp.feedback s.vp.stopTimer
        else .nothing)) ∧ Frame [.reports] s t)
    ∧ (∀ n : Ch, ∃ t, exec (.readValve (some n.num)) s = .next t ∧ NewestReport t
        (.data (if r = .bv ∨ r = .sv ∨ r = .tw then
            .valve [(n, s.vp.channels.get n)] s.vp.holdOff
              (if s.vp.holdOff = .holding then some (1000 * s.sl.setup.holdOff - s.vp.holdOffTimer.elapsed) else none)
          else .nothing)) ∧ Frame [.reports] s t)
    ∧ (∃ t, exec (.readValve none) s = .next t ∧ NewestReport t
        (.data (if r = .bv ∨ r = .sv ∨ r = .tw then
            .valve [(.n1, s.vp.channels.n1), (.n2, s.vp.channels.n2), (.n3, s.vp.channels.n3),
                (.n4, s.vp.channels.n4)] s.vp.holdOff
              (if s.vp.holdOff = .holding then some (1000 * s.sl.setup.holdOff - s.vp.holdOffTimer.elapsed) else none)
          else .nothing)) ∧ Frame [.reports] s t)
    ∧ (∃ t w, exec .readScan s = .next t ∧ NewestReport t
        (.data (if r = .mn then .nothing else
          .scan [(.n1, s.hw.chans.n1, s.hw.chans.n1.valid.isSome), (.n2, s.hw.chans.n2, s.hw.chans.n2.valid.isSome),
            (.n3, s.hw.chans.n3, s.hw.chans.n3.valid.isSome), (.n4, s.hw.chans.n4, s.hw.chans.n4.valid.isSome)] w))
        ∧ (w.isSome = true ↔ r = .pu ∨ r = .bv ∨ r = .sv)
        ∧ (∀ v, w = some v → v.surgeThreshold = s.hw.surgeThreshold ∧ v.hardLimit = s.hw.hardLimit
            ∧ v.settleLevel = s.hw.settleLevel ∧ v.hardCount = s.hw.hardCount ∧ v.excursion = s.hw.excursion
            ∧ v.allowance = s.hw.allowance ∧ v.relax = s.hw.relax ∧ v.aboveThreshold = s.aboveThreshold
            ∧ v.surgeCond = s.hw.surgeCond
            ∧ v.settleFact = (if r = .pu then some s.settleFact else none)
            ∧ (v.leak.isSome = true ↔ r = .sv))
        ∧ Frame [.reports] s t)
    ∧ (∀ n : Ch, ∃ t, exec (.readTank (some n.num)) s = .next t ∧ NewestReport t
        (.data (if r = .tw then
            .tank ⟨n, (s.ow.tanks.get n).state, (s.ow.tanks.get n).takingPart, (s.ow.tanks.get n).level,
              (s.ow.tanks.get n).levelValid, (s.ow.tanks.get n).startLevel, s.sl.setup.tanks.get n,
              (s.ow.tanks.get n).highAlarm, (s.ow.tanks.get n).overfill, (s.vp.channels.get n).state,
              if s.ow.receipt = .settling then some (s.ow.tanks.get n).reference else none⟩
          else .nothing)) ∧ Frame [.reports] s t)
    ∧ (∃ t, exec (.readTank none) s = .next t ∧ NewestReport t
        (.data (if r = .tw then
            .tankTable ((Ch.all.filter fun n => decide (n.num ≤ s.sl.setup.tankCount)).map fun n =>
                (n, (s.ow.tanks.get n).state, (s.ow.tanks.get n).level)) s.ow.receipt s.ow.received s.ow.claim
              s.ow.settleWindow s.ow.settleLimit
          else .nothing)) ∧ Frame [.reports] s t)
    ∧ (∀ n : Nat, (n = 0 ∨ 4 < n) → ∀ c, (c = .readValve (some n) ∨ c = .readTank (some n)) →
        ∃ t, exec c s = .next t ∧ NewestReport t (.answer (some .read) none .refused (.reason .syntaxError))
          ∧ Frame [.reports] s t)

/-- O41. READ ROSTER (R46, R203): the list in recency order, one entry with its place in it, NOT IN ROSTER, and
REFUSED SYNTAX for a number outside 1..15. That the list's ages are not rounded is the model's choice (log 49); which
way half of 10 ms goes is a free value (log 21). -/
def Obligations.ReadsOfTheRoster : Prop :=
  ∀ s : State, s.lineFits = true → s.pp.queue.length ≤ 8 →
    (∃ t, exec (.readRoster none) s = .next t ∧ NewestReport t
        (.data (.rosterList (s.sr.entries.map fun e => ⟨e.number, e.role, e.presence, e.age⟩)))
        ∧ Frame [.reports] s t)
    ∧ (∀ n e before after, 1 ≤ n → n ≤ 15 → s.sr.entries = before ++ e :: after → e.number = n →
        (∀ x ∈ before, x.number ≠ n) →
        ∃ t age, exec (.readRoster (some n)) s = .next t
          ∧ NewestReport t (.data (.rosterEntry ⟨e.number, e.role, e.protected', e.presence, age,
              before.length + 1, e.last⟩))
          ∧ age % 10 = 0 ∧ age ≤ e.age + 5 ∧ e.age ≤ age + 5 ∧ Frame [.reports] s t)
    ∧ (∀ n, 1 ≤ n → n ≤ 15 → (∀ e ∈ s.sr.entries, e.number ≠ n) →
        ∃ t, exec (.readRoster (some n)) s = .next t ∧ NewestReport t (.data .notInRoster) ∧ Frame [.reports] s t)
    ∧ (∀ n, (n = 0 ∨ 15 < n) →
        ∃ t, exec (.readRoster (some n)) s = .next t
          ∧ NewestReport t (.answer (some .read) none .refused (.reason .syntaxError)) ∧ Frame [.reports] s t)

/-- O42. R202: a panel line for which there is no room is discarded without effect and without a report, and the lost
flag is set; one for which there is room gives exactly one ANSWER or DATA report, at the end of the queue, unless it
is a request made over the link. The place of the ANSWER, after the events of the effect, is the model's choice (log
28). -/
def Obligations.EveryLineIsAnswered : Prop :=
  ∀ (c : Instr) (s : State), isPanelLine c = true → s.pp.queue.length ≤ 8 →
    (s.lineFits = false → exec c s = .next { s with pp := { s.pp with lost := true } })
    ∧ (s.lineFits = true → ∃ t, exec c s = .next t ∧ t.pp.queue.length ≤ 8
        ∧ ((∃ r, NewestReport t r ∧ (∀ e, r ≠ .event e)
              ∧ (t.pp.queue.filter fun q => !q.isEvent).length = (s.pp.queue.filter fun q => !q.isEvent).length + 1)
            ∨ (s.rh.outstanding = none ∧ t.rh.outstanding.isSome = true ∧ t.pp = s.pp)))

/-- O43. PANEL_CHARACTER (R197): printable characters, the backspace, the empty line, the overlong line, and every
character that is disregarded. 0DH with a line in the buffer (R198): a line that fits the form of a command does what
the row of that command does (that the row stands for its line is the model's reading, log 8), any other is answered
REFUSED SYNTAX (among them MASK with ALL beside class names, the model's reading, log 38), and one for which there is
no room is discarded (R202). That an overlong mark with a blank buffer is answered LENGTH, and that an overlong answer
names the command that the characters kept begin with, is the model's reading (log 42). -/
def Obligations.CharactersTyped : Prop :=
  ∀ (s : State) (b : Byte),
    (0x20 ≤ b.toNat → b.toNat ≤ 0x7E → s.pp.buffer.length < 40 →
      ∃ t, exec (.panelCharacter (.good b)) s = .next t ∧ t.pp = { s.pp with buffer := s.pp.buffer ++ [b] }
        ∧ Frame [.panelLine] s t)
    ∧ (0x20 ≤ b.toNat → b.toNat ≤ 0x7E → 40 ≤ s.pp.buffer.length →
      ∃ t, exec (.panelCharacter (.good b)) s = .next t ∧ t.pp = { s.pp with overlong := true }
        ∧ Frame [.panelLine] s t)
    ∧ (∃ t, exec (.panelCharacter (.good 0x08)) s = .next t ∧ t.pp = { s.pp with buffer := s.pp.buffer.dropLast }
        ∧ Frame [.panelLine] s t)
    ∧ ((∀ x ∈ s.pp.buffer, x = 0x20) → s.pp.overlong = false →
      ∃ t, exec (.panelCharacter (.good 0x0D)) s = .next t ∧ t.pp = { s.pp with buffer := [] }
        ∧ Frame [.panelLine] s t)
    ∧ (s.pp.overlong = true → s.lineFits = true → s.pp.queue.length ≤ 8 →
      ∃ t, exec (.panelCharacter (.good 0x0D)) s = .next t ∧ t.pp.buffer = [] ∧ t.pp.overlong = false
        ∧ (∃ w, NewestReport t (.answer w none .refused (.reason .length))
            ∧ (Typed [] s.pp.buffer → w = none)
            ∧ (∀ (c : CommandWord) ws, Typed (c.text :: ws) s.pp.buffer → w = some c)
            ∧ (∀ x ws, Typed (x :: ws) s.pp.buffer → (∀ c : CommandWord, x ≠ c.text) → w = none))
        ∧ Frame [.panelLine, .reports] s t)
    ∧ (∀ i ws, Typed ws s.pp.buffer → Fits i ws → s.pp.overlong = false →
      exec (.panelCharacter (.good 0x0D)) s = exec i { s with pp := { s.pp with buffer := [] } })
    ∧ (∀ x ws, Typed (x :: ws) s.pp.buffer → (∀ i, ¬ Fits i (x :: ws)) → s.pp.overlong = false →
      s.lineFits = true → s.pp.queue.length ≤ 8 →
      ∃ t w, exec (.panelCharacter (.good 0x0D)) s = .next t ∧ t.pp.buffer = []
        ∧ NewestReport t (.answer w none .refused (.reason .syntaxError))
        ∧ (∀ c : CommandWord, x = c.text → w = some c)
        ∧ ((∀ c : CommandWord, x ≠ c.text) → w = none)
        ∧ Frame [.panelLine, .reports] s t)
    ∧ ((s.pp.overlong = true ∨ ∃ x ws, Typed (x :: ws) s.pp.buffer) → s.lineFits = false →
      exec (.panelCharacter (.good 0x0D)) s
        = .next { s with pp := { s.pp with buffer := [], overlong := false, lost := true } })
    ∧ (b.toNat < 0x20 ∨ 0x7E < b.toNat → b ≠ 0x08 → b ≠ 0x0D → exec (.panelCharacter (.good b)) s = .next s)
    ∧ exec (.panelCharacter .bad) s = .next s

/-- O44. REPORT_SENT (R202): the oldest report leaves, and the one that begins carries the LOST mark where the lost
flag is set, which clears it. An empty queue has no report to send: that it changes nothing is the model's reading
(log 5). What is sent is the oldest report's text (R199): one line for an ANSWER and an EVENT, the first line, one
line for each record or entry, and END for a DATA report, NONE alone where the block holds nothing (R203), each line
ended by 0DH 0AH, with LOST before the first line where it carries the mark. The space between two words, decimal
numbers and the division into lines are the model's choice (log 71); the facts of an event and of a DATA line, which
no rule spells, are free values (log 9). -/
def Obligations.ReportLeaves : Prop :=
  (∀ s : State,
    (∀ q q' rest, s.pp.queue = q :: q' :: rest →
      ∃ t, exec .reportSent s = .next t ∧ t.pp.queue = ⟨q'.report, q'.lostMark || s.pp.lost⟩ :: rest
        ∧ t.sending = some (Queued.text ⟨q'.report, q'.lostMark || s.pp.lost⟩)
        ∧ t.pp.lost = false ∧ Frame [.reports] s t)
    ∧ (∀ q, s.pp.queue = [q] →
      ∃ t, exec .reportSent s = .next t ∧ t.pp.queue = [] ∧ t.sending = none ∧ t.pp.lost = s.pp.lost
        ∧ Frame [.reports] s t)
    ∧ (s.pp.queue = [] → exec .reportSent s = .next s))
  ∧ (∀ r : Report,
      Queued.text ⟨r, true⟩ = word ['L', 'O', 'S', 'T'] ++ [0x20] ++ Queued.text ⟨r, false⟩)
  ∧ (∀ (w : Option CommandWord) (n : Option (BitVec 8)) (o : PanelOutcome) (name : AnswerName),
      Queued.text ⟨.answer w n o name, false⟩
        = word ['A', 'N', 'S', 'W', 'E', 'R'] ++ w.elim [] (fun c => 0x20 :: c.text)
          ++ n.elim [] (fun k => 0x20 :: decimal k.toNat) ++ 0x20 :: o.text ++ name.words.flatMap (fun x => 0x20 :: x)
          ++ [0x0D, 0x0A])
  ∧ (∀ e : Event,
      Queued.text ⟨.event e, false⟩
        = word ['E', 'V', 'E', 'N', 'T'] ++ 0x20 :: classText e.cls ++ 0x20 :: Config.eventText e ++ [0x0D, 0x0A])
  ∧ (∀ d : DataBody, d ≠ .nothing →
      Queued.text ⟨.data d, false⟩
        = word ['D', 'A', 'T', 'A'] ++ 0x20 :: d.item ++ [0x0D, 0x0A]
          ++ d.entries.flatMap (fun x => x ++ [0x0D, 0x0A]) ++ word ['E', 'N', 'D'] ++ [0x0D, 0x0A])
  ∧ Queued.text ⟨.data .nothing, false⟩ = word ['N', 'O', 'N', 'E'] ++ [0x0D, 0x0A]
  ∧ DataBody.notInRoster.entries = [word ['N', 'O', 'T', ' ', 'I', 'N', ' ', 'R', 'O', 'S', 'T', 'E', 'R']]
  ∧ (∀ l, (DataBody.rosterList l).entries = l.map fun x => Config.dataText (.listed x))
  ∧ (∀ v, (DataBody.rosterEntry v).entries = [Config.dataText (.entry v)])

/-! ## Separation, tanks and valves -/

/-- O45. SEP_IN_CHANGE (R115, R91): at a RUNNING BV or SV, SEP_IN on closes VC1 at once and latches SEPARATION in
every phase but IDLE and ENDED; SEP_IN off ends the active condition alone; elsewhere only the level is kept.
HH_CHANGE (R127): the overfill condition of a tank in use, and its timer. After either input has changed where it is
read, READY and CLOSED are as R17, R19 and R40 give them. -/
def Obligations.SeparationAndHighHigh : Prop :=
  (∀ s : State, s.running = true → s.valveRole = true → s.inputs.sep = false →
      ∃ t, exec (.sepInChange true) s = .next t ∧ t.inputs = { s.inputs with sep := true }
        ∧ (t.vp.channels.n1.state = .closing ∨ t.vp.channels.n1.state = .shut) ∧ t.vp.channels.n1.pending = false
        ∧ FlagsRight t
        ∧ (s.pc.phase ≠ .idle → s.pc.phase ≠ .ended → s.hasLatched .separation = false →
            t.pc.phase = .tripped ∧ ⟨.separation, none⟩ ∈ t.tu.latched ∧ Frame (cascadeParts ++ [.inputs]) s t)
        ∧ (s.pc.phase = .idle ∨ s.pc.phase = .ended → Frame (watchParts ++ [.inputs, .channels, .pressure]) s t))
  ∧ (∀ s : State, s.running = true → s.valveRole = true → s.inputs.sep = true →
      ∃ t, exec (.sepInChange false) s = .next t ∧ t.inputs = { s.inputs with sep := false }
        ∧ (s.tu.latched = [⟨.separation, none⟩] → t.tu.cause = false) ∧ FlagsRight t
        ∧ Frame (watchParts ++ [.inputs]) s t)
  ∧ (∀ (s : State) (on : Bool), (s.running = false ∨ s.valveRole = false) →
      exec (.sepInChange on) s = .next { s with inputs := { s.inputs with sep := on } })
  ∧ (∀ (s : State) (n : Ch) (on : Bool), s.listening = true → s.tankUsed n = true → s.inputs.hh.get n ≠ on →
      ∃ t, exec (.hhChange n on) s = .next t ∧ t.inputs = { s.inputs with hh := s.inputs.hh.set n on }
        ∧ (∃ b, t.ow.tanks.get n = { s.ow.tanks.get n with overfill := b }
            ∧ (b = true ↔ on = true ∨ ∃ v, (s.ow.tanks.get n).levelValid = true ∧ (s.ow.tanks.get n).level = some v
                ∧ (s.sl.setup.tanks.get n).highHigh ≤ v)
            ∧ (b = false → t.tu.overfill.get n = ⟨false, ⟨false, 0⟩⟩)
            ∧ (b = true → s.running = true → (s.tu.overfill.get n).armed = false →
                t.tu.overfill.get n = ⟨true, ⟨true, 0⟩⟩))
        ∧ (∀ m, m ≠ n → t.ow.tanks.get m = s.ow.tanks.get m)
        ∧ FlagsRight t ∧ Frame (watchParts ++ [.inputs, .tanks]) s t)
  ∧ (∀ (s : State) (n : Ch) (on : Bool), (s.listening = false ∨ s.tankUsed n = false) →
      exec (.hhChange n on) s = .next { s with inputs := { s.inputs with hh := s.inputs.hh.set n on } })

/-- O46. VALVE_SWITCH_CHANGE (R82, R86, R88, R92) of a channel in use at a RUNNING station: arrival ends the command;
both switches on, the wrong end while driving, and any change at rest in an active phase are FAULT, with VALVE handed;
at rest in any other phase the channel follows its switches; a channel that leaves FAULT for OPEN in TRIPPED is told
to close, close pending while HOLDING and at once when RELEASED; a channel in FAULT in an active phase stays. READY
and CLOSED are then as R17, R19 and R40 give them. That a stopped timer shows 0 is the model's choice (log 66). -/
def Obligations.ValveSwitches : Prop :=
  ∀ (s : State) (n : Ch) (sw : Switch) (on : Bool) (os cs : Bool),
    os = (if sw = .openSw then on else s.inputs.openSw.get n) →
    cs = (if sw = .shutSw then on else s.inputs.shutSw.get n) →
    (if sw = .openSw then s.inputs.openSw.get n else s.inputs.shutSw.get n) ≠ on →
    (s.running = true → s.channelUsed n = true →
      -- arrival
      (∀ cmd, (cmd = .opened ∧ os = true ∧ cs = false ∨ cmd = .close ∧ cs = true ∧ os = false) →
        (s.vp.channels.get n).command = cmd → (s.vp.channels.get n).state ≠ .fault →
        ∃ t, exec (.valveSwitchChange n sw on) s = .next t
          ∧ (t.vp.channels.get n).state = (if cmd = .opened then .opened else .shut)
          ∧ (t.vp.channels.get n).command = .none ∧ (t.vp.channels.get n).pending = false
          ∧ (t.vp.channels.get n).drive = .off
          ∧ ((s.vp.channels.get n).drive ≠ .off →
              (t.vp.channels.get n).dwell = ⟨true, 0⟩ ∧ (t.vp.channels.get n).travel = ⟨false, 0⟩)
          ∧ Frame (watchParts ++ [.inputs, .channels]) s t)
      -- FAULT
      ∧ (((os = true ∧ cs = true)
            ∨ (s.pc.phase.active = true ∧ (s.vp.channels.get n).command = .none ∧ (s.vp.channels.get n).drive = .off)
            ∨ (on = true ∧ sw = .shutSw ∧ (s.vp.channels.get n).command = .opened
                ∧ (s.vp.channels.get n).drive = .opened)
            ∨ (on = true ∧ sw = .openSw ∧ (s.vp.channels.get n).command = .close
                ∧ (s.vp.channels.get n).drive = .close)) →
          (s.vp.channels.get n).state ≠ .fault →
          ∃ t, exec (.valveSwitchChange n sw on) s = .next t
            ∧ (s.pc.phase.active = true → s.hasLatched .valve = false →
                t.pc.phase = .tripped ∧ ⟨.valve, some n.num⟩ ∈ t.tu.latched ∧ Frame (cascadeParts ++ [.inputs]) s t)
            ∧ (s.pc.phase.active = false →
                (t.vp.channels.get n).state = .fault ∧ (t.vp.channels.get n).command = .none
                  ∧ (t.vp.channels.get n).pending = false ∧ (t.vp.channels.get n).drive = .off
                  ∧ Frame (watchParts ++ [.inputs, .channels]) s t))
      -- following
      ∧ (s.pc.phase.active = false → (s.vp.channels.get n).command = .none → (s.vp.channels.get n).drive = .off →
          (s.vp.channels.get n).pending = false → ¬ (os = true ∧ cs = true) →
          (s.pc.phase = .tripped → (s.vp.channels.get n).state ≠ .fault) →
          ∃ t, exec (.valveSwitchChange n sw on) s = .next t
            ∧ t.vp.channels.get n
                = { s.vp.channels.get n with state := restState (s.vp.channels.get n).state os cs }
            ∧ Frame (watchParts ++ [.inputs, .channels]) s t)
      -- out of FAULT while HOLDING
      ∧ (s.pc.phase = .tripped → s.vp.holdOff = .holding → (s.vp.channels.get n).state = .fault →
          (s.vp.channels.get n).pending = false → os = true → cs = false →
          ∃ t, exec (.valveSwitchChange n sw on) s = .next t
            ∧ t.vp.channels.get n = { s.vp.channels.get n with state := .opened, command := .close, pending := true }
            ∧ Frame (watchParts ++ [.inputs, .channels]) s t)
      -- out of FAULT once RELEASED
      ∧ (s.pc.phase = .tripped → s.vp.holdOff = .released → (s.vp.channels.get n).state = .fault →
          (s.vp.channels.get n).pending = false → os = true → cs = false →
          ∃ t, exec (.valveSwitchChange n sw on) s = .next t
            ∧ (t.vp.channels.get n).state = .closing ∧ (t.vp.channels.get n).command = .close
            ∧ (t.vp.channels.get n).pending = false
            ∧ ((s.vp.channels.get n).dwell.running = false → (s.vp.channels.get n).drive = .off →
                (t.vp.channels.get n).drive = .close ∧ (t.vp.channels.get n).travel = ⟨true, 0⟩)
            ∧ Frame (watchParts ++ [.inputs, .channels, .pressure]) s t)
      -- FAULT in an active phase, or with both switches on
      ∧ ((s.pc.phase.active = true ∨ os = true ∧ cs = true) → (s.vp.channels.get n).state = .fault →
          ∃ t, exec (.valveSwitchChange n sw on) s = .next t ∧ t.vp = s.vp ∧ t.pc.phase = s.pc.phase
            ∧ Frame (watchParts ++ [.inputs]) s t))
    -- READY and CLOSED
    ∧ (s.running = true → s.channelUsed n = true →
        ∃ t, exec (.valveSwitchChange n sw on) s = .next t ∧ FlagsRight t)
    -- any other channel
    ∧ ((s.running = false ∨ s.channelUsed n = false) →
        ∃ t, exec (.valveSwitchChange n sw on) s = .next t
          ∧ ((s.vp.channels.get n).drive = .off → (s.vp.channels.get n).command = .none →
              (s.vp.channels.get n).pending = false →
              t.vp.channels.get n
                = { s.vp.channels.get n with state := restState (s.vp.channels.get n).state os cs })
          ∧ ((s.vp.channels.get n).drive ≠ .off → t.vp = s.vp)
          ∧ (∀ m, m ≠ n → t.vp.channels.get m = s.vp.channels.get m)
          ∧ t.inputs.openSw.get n = os ∧ t.inputs.shutSw.get n = cs
          ∧ Frame [.inputs, .channels] s t)

/-- O47. DWELL_EXPIRY (R83, R109), TRAVEL_LIMIT_EXPIRY (R87) and HOLD_OFF_EXPIRY (R90): the waiting drive goes on and
opens the excursion allowance; the channel that has not arrived goes into FAULT, with VALVE handed; the pending
channels are released. A hold-off that is not HOLDING cannot run out: that it changes nothing is the model's reading
(log 5). That a stopped timer shows 0 is the model's choice (log 66). -/
def Obligations.ValveTimers : Prop :=
  (∀ (s : State) (n : Ch), (s.vp.channels.get n).dwell.running = true →
      ∃ t, exec (.dwellExpiry n) s = .next t
        ∧ (∀ cmd d, (cmd = .opened ∧ d = .opened ∨ cmd = .close ∧ d = .close) →
            (s.vp.channels.get n).command = cmd → (s.vp.channels.get n).pending = false →
            (s.vp.channels.get n).drive = .off → ¬ (s.openOn n = true ∧ s.shutOn n = true) →
            ¬ (cmd = .opened ∧ s.openOn n = true) → ¬ (cmd = .close ∧ s.shutOn n = true) →
            t.vp.channels.get n
                = { s.vp.channels.get n with dwell := ⟨false, 0⟩, drive := d, travel := ⟨true, 0⟩ }
              ∧ (∀ p, s.running = true → s.valveRole = true → n = .n1 → s.pressure = some p →
                  s.hw.excursion = .none →
                  t.hw.allowance = ⟨true, 0⟩
                    ∧ t.hw.excursion = (if s.hw.surgeThreshold < p then .excursion else .allowed)))
        ∧ ((s.vp.channels.get n).command = .none →
            t.vp.channels.get n = { s.vp.channels.get n with dwell := ⟨false, 0⟩ })
        ∧ (∀ m, m ≠ n → t.vp.channels.get m = s.vp.channels.get m)
        ∧ Frame (watchParts ++ [.channels, .pressure]) s t)
  ∧ (∀ (s : State) (n : Ch), (s.vp.channels.get n).travel.running = true → (s.vp.channels.get n).drive ≠ .off →
      ∃ t, exec (.travelLimitExpiry n) s = .next t
        ∧ (s.running = true → s.pc.phase.active = true → s.hasLatched .valve = false →
            t.pc.phase = .tripped ∧ ⟨.valve, some n.num⟩ ∈ t.tu.latched ∧ Frame cascadeParts s t)
        ∧ (s.running = false ∨ s.pc.phase.active = false →
            t.vp.channels.get n = ⟨.fault, .none, false, .off, ⟨true, 0⟩, ⟨false, 0⟩⟩
              ∧ (∀ m, m ≠ n → t.vp.channels.get m = s.vp.channels.get m)
              ∧ Frame (watchParts ++ [.channels]) s t))
  ∧ (∀ s : State, s.vp.holdOff = .holding →
      ∃ t, exec .holdOffExpiry s = .next t ∧ t.vp.holdOff = .released ∧ t.vp.holdOffTimer = ⟨false, 0⟩
        ∧ (∀ n : Ch, s.channelUsed n = true → (s.vp.channels.get n).pending = true →
            (t.vp.channels.get n).pending = false
              ∧ ((t.vp.channels.get n).state = .closing ∨ (t.vp.channels.get n).state = .shut)
              ∧ ((s.vp.channels.get n).dwell.running = false → (s.vp.channels.get n).drive = .off →
                  s.shutOn n = false →
                  t.vp.channels.get n = { s.vp.channels.get n with
                    pending := false, command := .close, state := .closing, drive := .close, travel := ⟨true, 0⟩ }))
        ∧ (∀ n : Ch, (s.channelUsed n = false ∨ (s.vp.channels.get n).pending = false) →
            t.vp.channels.get n = s.vp.channels.get n)
        ∧ Frame (watchParts ++ [.channels, .pressure]) s t)
  ∧ (∀ s : State, s.vp.holdOff ≠ .holding → exec .holdOffExpiry s = .next s)

/-! ## The pump -/

/-- O48. PUMP_FB_CHANGE (R95 to R97, R149): the start proved; the feedback that comes uncommanded, and the one that is
lost, hand PUMP; the stop proved by the settle fact, with the external end; at any other role, where the feedback is
not read (R94), only the level is kept, and so it is at a PU in STARTUP and OFFLINE, of which no rule speaks (the
model's choice, log 69). FEEDBACK_TIMER_EXPIRY (R95) and STOP_TIMER_EXPIRY (R96, R97): the timer stops, and PUMP
latches in the phases of its reason: STARTING, PUMPING and TOPPING for the one, the active phases and TRIPPED for the
other. READY and CLOSED are then as R17, R19 and R40 give them. What follows a step that the change makes due is
stated in AutomaticSteps. That a stopped timer shows 0 is the model's choice (log 66). -/
def Obligations.PumpWatched : Prop :=
  ((∀ s : State, s.hasRole .pu = true → s.listening = true → s.inputs.pumpFb = false →
      (s.vp.pump = .starting → NoStepDue { s with vp := { s.vp with pump := .running } } →
        ∃ t, exec (.pumpFbChange true) s = .next t ∧ t.inputs = { s.inputs with pumpFb := true }
          ∧ t.vp = { s.vp with pump := .running, feedback := ⟨false, 0⟩ } ∧ t.pc.phase = s.pc.phase
          ∧ Frame (watchParts ++ [.inputs, .pump, .phase]) s t)
      ∧ (s.vp.pump = .stopped → s.running = true → s.pc.phase.active = true → s.hasLatched .pump = false →
        ∃ t, exec (.pumpFbChange true) s = .next t ∧ t.pc.phase = .tripped ∧ ⟨.pump, none⟩ ∈ t.tu.latched
          ∧ t.vp.pump = .stopping ∧ t.vp.stopTimer = ⟨true, 0⟩ ∧ Frame (cascadeParts ++ [.inputs]) s t)
      ∧ (s.vp.pump = .stopped → (s.running = false ∨ s.pc.phase.active = false) →
        ∃ t, exec (.pumpFbChange true) s = .next t ∧ t.vp = { s.vp with pump := .stopping, stopTimer := ⟨true, 0⟩ }
          ∧ t.pc.phase = s.pc.phase ∧ Frame (watchParts ++ [.inputs, .pump, .phase]) s t))
  ∧ (∀ s : State, s.hasRole .pu = true → s.listening = true → s.inputs.pumpFb = true →
      (s.vp.pump = .running → s.vp.pumpRun = true → s.running = true → s.pc.phase.active = true →
        s.hasLatched .pump = false →
        ∃ t, exec (.pumpFbChange false) s = .next t ∧ t.pc.phase = .tripped ∧ ⟨.pump, none⟩ ∈ t.tu.latched
          ∧ t.vp.pumpRun = false ∧ t.vp.pump = .stopping ∧ Frame (cascadeParts ++ [.inputs]) s t)
      ∧ (∀ p, s.vp.pump = .stopping → s.pressure = some p → p < s.hw.settleLevel →
        NoStepDue { s with vp := { s.vp with pump := .stopped } } →
        ∃ t, exec (.pumpFbChange false) s = .next t ∧ t.inputs = { s.inputs with pumpFb := false }
          ∧ t.vp = { s.vp with pump := .stopped, stopTimer := ⟨false, 0⟩ } ∧ t.pc.phase = s.pc.phase
          ∧ (s.running = true → (s.pc.phase = .stopping ∨ s.pc.phase = .tripped) → s.mr.record.state = .opened →
              t.mr.record.externalEnd = true)
          ∧ Frame (watchParts ++ [.inputs, .pump, .phase, .record, .tanks]) s t)
      ∧ (s.vp.pump = .stopping → (s.pressure = none ∨ ∃ p, s.pressure = some p ∧ s.hw.settleLevel ≤ p) →
        NoStepDue s →
        ∃ t, exec (.pumpFbChange false) s = .next t ∧ t.vp = s.vp ∧ t.pc.phase = s.pc.phase
          ∧ Frame (watchParts ++ [.inputs, .phase]) s t))
  ∧ (∀ (s : State) (on : Bool), (s.hasRole .pu = false ∨ s.listening = false) →
      exec (.pumpFbChange on) s = .next { s with inputs := { s.inputs with pumpFb := on } }))
  ∧ (∀ s : State,
    (s.vp.feedback.running = true →
      (s.running = true → s.hasRole .pu = true →
        (s.pc.phase = .starting ∨ s.pc.phase = .pumping ∨ s.pc.phase = .topping) → s.hasLatched .pump = false →
        ∃ t, exec .feedbackTimerExpiry s = .next t ∧ t.pc.phase = .tripped ∧ ⟨.pump, none⟩ ∈ t.tu.latched
          ∧ t.vp.feedback = ⟨false, 0⟩ ∧ t.vp.pumpRun = false ∧ Frame cascadeParts s t)
      ∧ ((s.running = false ∨ s.pc.phase.pumpOn = false) → NoStepDue s →
        ∃ t, exec .feedbackTimerExpiry s = .next t ∧ t.vp = { s.vp with feedback := ⟨false, 0⟩ }
          ∧ t.pc.phase = s.pc.phase ∧ Frame (watchParts ++ [.pump, .phase]) s t))
    ∧ (s.vp.stopTimer.running = true →
      (s.running = true → s.hasRole .pu = true → s.vp.pump = .stopping →
        (s.pc.phase.active = true ∨ s.pc.phase = .tripped) → s.hasLatched .pump = false →
        ∃ t, exec .stopTimerExpiry s = .next t ∧ t.pc.phase = .tripped ∧ ⟨.pump, none⟩ ∈ t.tu.latched
          ∧ t.vp.pump = .stopping ∧ t.vp.stopTimer = ⟨false, 0⟩ ∧ Frame cascadeParts s t)
      ∧ ((s.running = false ∨ s.pc.phase = .idle ∨ s.pc.phase = .lineup ∨ s.pc.phase = .ended) →
        ∃ t, exec .stopTimerExpiry s = .next t ∧ t.vp = { s.vp with stopTimer := ⟨false, 0⟩ }
          ∧ t.pc.phase = s.pc.phase ∧ Frame (watchParts ++ [.pump, .phase]) s t)))
  ∧ (∀ (s : State) (c : Instr),
      (c = .pumpFbChange (!s.inputs.pumpFb) ∧ s.hasRole .pu = true ∧ s.listening = true
        ∨ c = .feedbackTimerExpiry ∧ s.vp.feedback.running = true
        ∨ c = .stopTimerExpiry ∧ s.vp.stopTimer.running = true) →
      ∃ t, exec c s = .next t ∧ FlagsRight t)

/-! ## The meter -/

/-- O49. METER_PULSE (R139, R140) at PU from JOINING on: ten onto the residual, its whole multiples of K taken as
litres, and each litre to delivered, after-flow or the stray count by the record. That a litre enters no window where
none runs, in JOINING, is the model's choice (log 74). What the window litres hold past
99,999,999 is a free value (log 20); the litres are placed all the same. -/
def Obligations.MeterPulses : Prop :=
  (∀ (s u : State) (n : Nat), s.hasRole .pu = true → s.listening = true → 0 < s.sl.setup.meterK →
      n = (s.mr.residual + 10) / s.sl.setup.meterK →
      u = (if s.mr.record.state = .opened ∧ s.mr.record.counting = true then
          { s with mr := { s.mr with record := { s.mr.record with
              delivered := min 99999999 (s.mr.record.delivered + n) } } }
        else s) →
      ∃ t, exec .meterPulse s = .next t ∧ t.mr.residual = (s.mr.residual + 10) % s.sl.setup.meterK
        ∧ (NoStepDue u → s.mr.record.delivered ≤ 99999999 → t.pc.phase = s.pc.phase
          ∧ ((s.mr.record.state = .empty ∨ s.mr.record.state = .opened ∧ s.mr.record.counting = false) →
              s.mr.stray ≤ 99999999 →
              t.mr.stray = min 99999999 (s.mr.stray + n) ∧ t.mr.record = s.mr.record)
          ∧ (s.mr.record.state = .opened → s.mr.record.counting = true → s.mr.stray ≤ 99999999 →
              t.mr.record = u.mr.record
                ∧ t.mr.stray = min 99999999 (s.mr.stray + (s.mr.record.delivered + n - 99999999)))
          ∧ (s.mr.record.state = .sampled → s.mr.record.afterFlow ≤ 99999999 →
              t.mr.record = { s.mr.record with afterFlow := min 99999999 (s.mr.record.afterFlow + n) }
                ∧ t.mr.stray = s.mr.stray)
          ∧ (s.mr.window.running = true → s.mr.windowLitres + n ≤ 99999999 →
              t.mr.windowLitres = s.mr.windowLitres + n ∧ t.draws = s.draws)
          ∧ (s.mr.window.running = false → t.mr.windowLitres = s.mr.windowLitres ∧ t.draws = s.draws)
          ∧ t.mr.window = s.mr.window ∧ t.mr.lastRate = s.mr.lastRate ∧ t.mr.startFlow = s.mr.startFlow
          ∧ t.mr.startLimit = s.mr.startLimit ∧ t.mr.zeroCount = s.mr.zeroCount ∧ t.mr.cap = s.mr.cap
          ∧ t.mr.belowCount = s.mr.belowCount
          ∧ Frame [.residual, .stray, .meter, .record, .phase, .draws] s t)
        ∧ Frame (cascadeParts ++ [.residual, .stray, .draws]) s t)
  ∧ (∀ s : State, (s.hasRole .pu = false ∨ s.listening = false) → exec .meterPulse s = .next s)

/-- O50. RATE_WINDOW (R141 to R144) and START_LIMIT_EXPIRY (R142): the rate and the next window, the start-flow fact,
the empty windows and NOFLOW, the rate cap and its clearing. A start limit that runs out in STARTING with NOFLOW
disabled raises its alarm and latches nothing (R63, R76). A window or start limit that does not run cannot run out:
that it changes nothing is the model's reading (log 5). That a stopped timer shows 0 is the model's choice (log
66). -/
def Obligations.RateWindows : Prop :=
  (∀ (s : State) (flow : Bool), s.runningPu = true → s.mr.window.running = true →
      (flow = true ↔ s.mr.startFlow = true
        ∨ s.pc.phase = .starting ∧ s.mr.record.maxRate * 10 / 100 ≤ s.mr.windowLitres * 360) →
      NoStepDue { s with mr := { s.mr with startFlow := flow } } →
      ∃ t, exec .rateWindow s = .next t ∧ t.mr.window = ⟨true, 0⟩ ∧ t.mr.windowLitres = 0
        ∧ t.mr.lastRate = some (s.mr.windowLitres * 360)
        ∧ (s.pc.phase = .starting → s.mr.record.maxRate * 10 / 100 ≤ s.mr.windowLitres * 360 →
            t.mr.startFlow = true)
        ∧ ((s.pc.phase ≠ .starting ∨ s.mr.windowLitres * 360 < s.mr.record.maxRate * 10 / 100) →
            t.mr.startFlow = s.mr.startFlow)
        ∧ ((s.pc.phase = .pumping ∨ s.pc.phase = .topping) → s.mr.windowLitres = 0 → s.mr.zeroCount = 0 →
            t.mr.zeroCount = 1 ∧ t.tu.latched = s.tu.latched ∧ t.pc.phase = s.pc.phase)
        ∧ ((s.pc.phase = .pumping ∨ s.pc.phase = .topping) → s.mr.windowLitres = 0 → 1 ≤ s.mr.zeroCount →
            t.mr.zeroCount = 0
              ∧ (s.tu.mask.noflow = true → s.hasLatched .noflow = false →
                  t.pc.phase = .tripped ∧ ⟨.noflow, none⟩ ∈ t.tu.latched)
              ∧ (s.tu.mask.noflow = false → t.tu.latched = s.tu.latched ∧ t.pc.phase = s.pc.phase
                  ∧ ⟨.noflow, .clearNew⟩ ∈ t.an.set))
        ∧ ((s.pc.phase = .pumping ∨ s.pc.phase = .topping) → 0 < s.mr.windowLitres → t.mr.zeroCount = 0)
        ∧ (s.mr.record.state = .empty → t.mr.cap = s.mr.cap ∧ t.mr.belowCount = s.mr.belowCount)
        ∧ (s.mr.record.state ≠ .empty → s.pc.phase = .pumping → s.mr.record.maxRate < s.mr.windowLitres * 360 →
            t.mr.cap = true ∧ t.mr.belowCount = 0 ∧ t.vp.rateLow = s.vp.pumpRun)
        ∧ (s.mr.record.state ≠ .empty → s.mr.cap = true →
            s.mr.windowLitres * 360 < s.mr.record.maxRate * 90 / 100 →
            (s.mr.belowCount = 0 → t.mr.cap = true ∧ t.mr.belowCount = 1)
              ∧ (1 ≤ s.mr.belowCount → t.mr.cap = false ∧ t.mr.belowCount = 0))
        ∧ (s.mr.record.state ≠ .empty → s.mr.cap = true →
            s.mr.record.maxRate * 90 / 100 ≤ s.mr.windowLitres * 360 → t.mr.cap = true ∧ t.mr.belowCount = 0)
        ∧ (0 < s.mr.windowLitres → t.pc.phase = s.pc.phase
            ∧ Frame (watchParts ++ [.phase, .pump, .meter]) s t)
        ∧ Frame cascadeParts s t)
  ∧ (∀ s : State, s.mr.startLimit.running = true →
      (s.running = true → s.pc.phase = .starting → s.tu.mask.noflow = true → s.hasLatched .noflow = false →
        ∃ t, exec .startLimitExpiry s = .next t ∧ t.pc.phase = .tripped ∧ ⟨.noflow, none⟩ ∈ t.tu.latched
          ∧ t.mr.startLimit = ⟨false, 0⟩ ∧ Frame cascadeParts s t)
      ∧ (s.running = true → s.pc.phase = .starting → s.tu.mask.noflow = false → NoStepDue s →
        ∃ t, exec .startLimitExpiry s = .next t ∧ t.pc.phase = s.pc.phase ∧ t.tu.latched = s.tu.latched
          ∧ t.tu.firstOut = s.tu.firstOut ∧ ⟨.noflow, .clearNew⟩ ∈ t.an.set
          ∧ t.mr = { s.mr with startLimit := ⟨false, 0⟩ } ∧ Frame (watchParts ++ [.meter, .phase]) s t)
      ∧ (s.pc.phase ≠ .starting → NoStepDue s →
        ∃ t, exec .startLimitExpiry s = .next t ∧ t.mr = { s.mr with startLimit := ⟨false, 0⟩ }
          ∧ t.pc.phase = s.pc.phase ∧ Frame (watchParts ++ [.meter, .phase]) s t))
  ∧ (∀ s : State, s.mr.window.running = false → exec .rateWindow s = .next s)
  ∧ (∀ s : State, s.mr.startLimit.running = false → exec .startLimitExpiry s = .next s)

/-! ## The scan and the pressure watch -/

/-- O51. SCAN_READING: the raw value kept, a good reading told from a bad one, and the engineering value (R102); the
counts, the fault, and the value kept or taken (R103); at fault entry SENSOR latched, or its alarm outside the active
phases (R61, R76, R104); the level of a tank (R105, R118); the other channels stay, and the next channel is read
(R101). SCAN_SET_START begins with the first enabled channel (R101). -/
def Obligations.ReadingsCompleted : Prop :=
  (∀ (s : State) (n : Ch) (raw : BitVec 12) (c : ScanChannel) (bad : Bool) (v : Nat), s.listening = true →
      s.hw.slot = some n → c = s.hw.chans.get n → bad = decide (raw.toNat ≤ 40 ∨ 4055 ≤ raw.toNat) →
      v = (if s.hasRole .tw = true then min 30000 (raw.toNat * c.span / 4095) else raw.toNat * c.span / 4095) →
      ∃ t, exec (.scanReading raw) s = .next t
        ∧ (t.hw.chans.get n).lastRaw = some raw.toNat
        ∧ (c.fault = false → bad = false →
            t.hw.chans.get n = { c with lastRaw := some raw.toNat, badCount := 0, value := some v }
              ∧ (s.tankUsed n = true → s.pressureRole = false →
                  (t.ow.tanks.get n).level = some v ∧ (t.ow.tanks.get n).levelValid = true))
        ∧ (c.fault = false → bad = true → c.badCount < 2 →
            t.hw.chans.get n = { c with lastRaw := some raw.toNat, badCount := c.badCount + 1 })
        ∧ (c.fault = false → bad = true → 2 ≤ c.badCount →
            t.hw.chans.get n = { c with lastRaw := some raw.toNat, fault := true, badCount := 0, goodCount := 0 }
              ∧ (s.tankUsed n = true → (t.ow.tanks.get n).levelValid = false)
              ∧ (s.running = true → s.pc.phase.active = true → s.tu.mask.sensor = true →
                  s.hasLatched .sensor = false →
                  t.pc.phase = .tripped ∧ ⟨.sensor, some n.num⟩ ∈ t.tu.latched)
              ∧ (s.running = true → c.enabled = true → s.pc.phase.active = false →
                  alarmEntry s.an.set (.sensor n) = none →
                  t.pc.phase = s.pc.phase ∧ t.tu.latched = s.tu.latched ∧ ⟨.sensor n, .activeNew⟩ ∈ t.an.set))
        ∧ (c.fault = true → bad = false → c.goodCount < 2 →
            t.hw.chans.get n = { c with lastRaw := some raw.toNat, goodCount := c.goodCount + 1 })
        ∧ (c.fault = true → bad = false → 2 ≤ c.goodCount →
            t.hw.chans.get n = { c with
              lastRaw := some raw.toNat, fault := false, badCount := 0, goodCount := 0, value := some v })
        ∧ (c.fault = true → bad = true →
            t.hw.chans.get n = { c with lastRaw := some raw.toNat, goodCount := 0 })
        ∧ (∀ m, m ≠ n → t.hw.chans.get m = s.hw.chans.get m)
        ∧ (∀ m, (s.hw.chans.get m).enabled = true → n.num < m.num →
            (∀ k, n.num < k.num → k.num < m.num → (s.hw.chans.get k).enabled = false) → t.hw.slot = some m)
        ∧ ((∀ m, n.num < m.num → (s.hw.chans.get m).enabled = false) →
            (t.running = false ∨ t.pc.phase.active = false) → t.hw.slot = none)
        ∧ Frame (cascadeParts ++ [.leak, .readings]) s t)
  ∧ (∀ s : State, s.listening = true → s.hw.slot = none →
      (∀ n, (s.hw.chans.get n).enabled = true → (∀ m, m.num < n.num → (s.hw.chans.get m).enabled = false) →
        ∃ t, exec .scanSetStart s = .next t ∧ t.hw.slot = some n ∧ t.hw.setTimer = ⟨true, 0⟩ ∧ Frame [.scan] s t)
      ∧ ((∀ n, (s.hw.chans.get n).enabled = false) → exec .scanSetStart s = .next s))

/-- O52. A good reading of AN1 in RUNNING (R107, R110, R111, R96), ALLOWANCE_EXPIRY and RELAX_EXPIRY (R110): the hard
limit count and HARDLIMIT, the excursion state and the surge condition, the stop proof, and the end of the allowance.
A good reading of AN1 that updates its value, in JOINING too, leaves the leak condition as R113 asks.
AN1's entry into sensor fault (R104, R107, R110, R111): the count 0, the excursion state NONE with both timers
stopped, the surge condition and the leak condition gone with their qualification timers, and neither SURGE nor
HARDLIMIT handed. An allowance or relax timer that does not run cannot run out: that it changes nothing is the model's
reading (log 5). That a stopped timer shows 0 is the model's choice (log 66). -/
def Obligations.PressureWatched : Prop :=
  (∀ (s u : State) (raw : BitVec 12) (v : Nat), s.running = true → s.pressureRole = true → s.hw.slot = some .n1 →
      s.hw.chans.n1.fault = false → 40 < raw.toNat → raw.toNat < 4055 →
      v = raw.toNat * s.hw.chans.n1.span / 4095 →
      u = (if s.vp.pump = .stopping ∧ s.inputs.pumpFb = false ∧ v < s.hw.settleLevel then
          { s with vp := { s.vp with pump := .stopped } } else s) →
      ∃ t, exec (.scanReading raw) s = .next t
        ∧ t.hw.hardCount = (if s.hw.hardLimit < v then min 2 (s.hw.hardCount + 1) else 0)
        ∧ (s.hw.hardLimit < v → 1 ≤ s.hw.hardCount → (s.pc.phase.active = true ∨ s.pc.phase = .tripped) →
            s.hasLatched .hardlimit = false → t.pc.phase = .tripped ∧ ⟨.hardlimit, none⟩ ∈ t.tu.latched)
        ∧ ((s.valveRole = true ∨ NoStepDue u) → v ≤ s.hw.hardLimit →
            t.hw.excursion = (match s.hw.excursion with
              | .allowed => if s.hw.surgeThreshold < v then .excursion else .allowed
              | .excursion => if s.hw.surgeThreshold < v then .excursion else .relax
              | e => e)
            ∧ (s.hw.excursion = .excursion → v ≤ s.hw.surgeThreshold →
                t.hw.allowance = ⟨false, 0⟩ ∧ t.hw.relax = ⟨true, 0⟩)
            ∧ (s.hw.excursion ≠ .excursion ∨ s.hw.surgeThreshold < v →
                t.hw.allowance = s.hw.allowance ∧ t.hw.relax = s.hw.relax)
            ∧ (t.hw.surgeCond = true ↔
                s.hw.surgeThreshold < v ∧ (s.hw.excursion = .none ∨ s.hw.excursion = .relax))
            ∧ t.pc.phase = s.pc.phase ∧ t.tu.latched = s.tu.latched)
        ∧ (s.hasRole .pu = true → (s.pc.phase = .stopping ∨ NoStepDue u) →
            s.vp.pump = .stopping → s.inputs.pumpFb = false →
            v < s.hw.settleLevel → t.vp.pump = .stopped ∧ t.vp.stopTimer = ⟨false, 0⟩)
        ∧ Frame (cascadeParts ++ [.leak, .readings]) s t)
  ∧ (∀ (s : State) (raw : BitVec 12), s.listening = true → s.pressureRole = true → s.hw.slot = some .n1 →
      s.hw.chans.n1.fault = false → (raw.toNat ≤ 40 ∨ 4055 ≤ raw.toNat) → 2 ≤ s.hw.chans.n1.badCount →
      ∃ t, exec (.scanReading raw) s = .next t ∧ t.hw.chans.n1.fault = true
        ∧ t.hw.hardCount = 0 ∧ t.hw.excursion = .none ∧ t.hw.allowance = ⟨false, 0⟩ ∧ t.hw.relax = ⟨false, 0⟩
        ∧ t.hw.surgeCond = false ∧ t.hw.leakCond = false
        ∧ t.tu.surge.timer = ⟨false, 0⟩ ∧ t.tu.leak.timer = ⟨false, 0⟩
        ∧ t.hasLatched .surge = s.hasLatched .surge ∧ t.hasLatched .hardlimit = s.hasLatched .hardlimit
        ∧ t.hasLatched .leak = s.hasLatched .leak
        ∧ (∀ a, alarmEntry t.an.set .surge = some a → a.state = .clearNew)
        ∧ (∀ a, alarmEntry t.an.set .leak = some a → a.state = .clearNew)
        ∧ Frame (cascadeParts ++ [.leak, .readings]) s t)
  ∧ (∀ (s : State) (raw : BitVec 12), s.listening = true → s.pressureRole = true → s.hw.slot = some .n1 →
      s.hw.chans.n1.fault = false → 40 < raw.toNat → raw.toNat < 4055 →
      ∃ t, exec (.scanReading raw) s = .next t ∧ (t.hw.leakCond = true ↔ LeakFacts t))
  ∧ (∀ s : State, s.hw.allowance.running = true →
      (s.running = true → s.hw.excursion = .excursion → s.tu.mask.surge = true →
        (s.pc.phase.active = true ∨ s.pc.phase = .tripped) → s.hasLatched .surge = false →
        ∃ t, exec .allowanceExpiry s = .next t ∧ t.pc.phase = .tripped ∧ ⟨.surge, none⟩ ∈ t.tu.latched
          ∧ t.hw.excursion = .none ∧ t.hw.allowance = ⟨false, 0⟩ ∧ t.hw.relax = ⟨false, 0⟩
          ∧ Frame cascadeParts s t)
      ∧ (s.hw.excursion ≠ .excursion → NoStepDue s →
        ∃ t, exec .allowanceExpiry s = .next t ∧ t.hw.excursion = .none ∧ t.hw.allowance = ⟨false, 0⟩
          ∧ t.hw.relax = ⟨false, 0⟩ ∧ t.hw.hardCount = s.hw.hardCount ∧ t.hw.surgeCond = s.hw.surgeCond
          ∧ t.pc.phase = s.pc.phase ∧ Frame (watchParts ++ [.pressure, .phase]) s t))
  ∧ (∀ s : State, s.hw.relax.running = true →
      ∃ t, exec .relaxExpiry s = .next t ∧ t.hw.excursion = .none ∧ t.hw.relax = ⟨false, 0⟩
        ∧ t.hw.allowance = s.hw.allowance ∧ t.hw.hardCount = s.hw.hardCount ∧ t.hw.surgeCond = s.hw.surgeCond
        ∧ Frame (watchParts ++ [.pressure]) s t)
  ∧ (∀ s : State, s.hw.allowance.running = false → exec .allowanceExpiry s = .next s)
  ∧ (∀ s : State, s.hw.relax.running = false → exec .relaxExpiry s = .next s)

/-! ## Claims and settling -/

/-- O53. CLAIM_WAIT_EXPIRY (R131): the claim is won where no lower peer claims and some peer shows an open route: the
tank is FULL and its channel closes; it is lost otherwise: the tank is HELD, and a claim lost to a lower peer alone
begins anew. That no claim tank is held once the claim is over is the model's choice (log 64). That a stopped timer
shows 0 is the model's choice (log 66). -/
def Obligations.ClaimDecided : Prop :=
  ∀ (s : State) (n : Ch), s.ow.claim.waiting = true → s.ow.claim.tank = some n →
    (s.peerClaimBelow = false → s.peerRoute = true →
      ∃ t, exec .claimWaitExpiry s = .next t
        ∧ t.ow.tanks.get n = { s.ow.tanks.get n with state := .full }
        ∧ (∀ m, m ≠ n → t.ow.tanks.get m = s.ow.tanks.get m)
        ∧ t.ow.claim = ⟨false, none, ⟨false, 0⟩⟩
        ∧ ((t.vp.channels.get n).state = .closing ∨ (t.vp.channels.get n).state = .shut)
        ∧ (t.vp.channels.get n).pending = false
        ∧ (∀ m, m ≠ n → t.vp.channels.get m = s.vp.channels.get m)
        ∧ Frame (watchParts ++ [.tanks, .channels, .pressure, .record]) s t)
    ∧ ((s.peerClaimBelow = true ∨ s.peerRoute = false) →
      ∃ t, exec .claimWaitExpiry s = .next t
        ∧ t.ow.tanks.get n = { s.ow.tanks.get n with state := .held }
        ∧ (∀ m, m ≠ n → t.ow.tanks.get m = s.ow.tanks.get m)
        ∧ (s.peerRoute = false → t.ow.claim = ⟨false, none, ⟨false, 0⟩⟩)
        ∧ (s.peerRoute = true → s.runningTw = true → s.pc.phase.active = true → s.tankUsed n = true →
            (∀ m, m ≠ n → (s.ow.tanks.get m).state ≠ .held) → t.ow.claim = ⟨true, some n, ⟨true, 0⟩⟩)
        ∧ Frame (watchParts ++ [.tanks, .record]) s t)

/-- O54. A good reading of a tank's channel at a RUNNING TW (R118): its level, the high alarm with its 50 mm band
(R126), the overfill condition (R127), the level steps and the start of a claim (R122 to R124, R130), RECEIVING to
ALLFULL (R134), the received quantity (R136) and the settle window (R135). -/
def Obligations.TankReadings : Prop :=
  ∀ (s : State) (n : Ch) (raw : BitVec 12) (v : Nat) (a : Tank) (c : TankSetup) (st : TankState),
    s.running = true → s.hasRole .tw = true → s.hw.slot = some n → s.tankUsed n = true →
    (s.hw.chans.get n).fault = false → 40 < raw.toNat → raw.toNat < 4055 →
    v = min 30000 (raw.toNat * (s.hw.chans.get n).span / 4095) → a = s.ow.tanks.get n → c = s.sl.setup.tanks.get n →
    st = (if (a.state = .opened ∨ a.state = .filling) ∧ c.topping ≤ v then .topping
      else if a.state = .opened ∧ a.startLevel + 10 ≤ v then .filling else a.state) →
    ∃ t, exec (.scanReading raw) s = .next t ∧ t.pc.phase = s.pc.phase
      ∧ (t.ow.tanks.get n).level = some v ∧ (t.ow.tanks.get n).levelValid = true
      ∧ (t.ow.tanks.get n).takingPart = a.takingPart ∧ (t.ow.tanks.get n).startLevel = a.startLevel
      ∧ (∀ m, m ≠ n → t.ow.tanks.get m = s.ow.tanks.get m)
      -- the high alarm and the overfill condition
      ∧ (c.high ≤ v → (t.ow.tanks.get n).highAlarm = true
          ∧ (alarmEntry s.an.set (.highlevel n) = none → ⟨.highlevel n, .activeNew⟩ ∈ t.an.set))
      ∧ (v < c.high → v + 50 < c.high → (t.ow.tanks.get n).highAlarm = false)
      ∧ (v < c.high → c.high ≤ v + 50 → (t.ow.tanks.get n).highAlarm = a.highAlarm)
      ∧ ((t.ow.tanks.get n).overfill = true ↔ s.inputs.hh.get n = true ∨ c.highHigh ≤ v)
      ∧ ((s.inputs.hh.get n = true ∨ c.highHigh ≤ v) → (s.tu.overfill.get n).armed = false →
          t.tu.overfill.get n = ⟨true, ⟨true, 0⟩⟩)
      ∧ (s.inputs.hh.get n = false → v < c.highHigh → t.tu.overfill.get n = ⟨false, ⟨false, 0⟩⟩)
      -- the level steps
      ∧ ((s.pc.phase.active = false ∨ ¬ (a.state = .opened ∨ a.state = .filling ∨ a.state = .topping)) →
          (t.ow.tanks.get n).state = a.state ∧ t.ow.claim = s.ow.claim ∧ t.vp.channels = s.vp.channels)
      ∧ (s.pc.phase.active = true → (a.state = .opened ∨ a.state = .filling ∨ a.state = .topping) →
          (v < c.target →
            (t.ow.tanks.get n).state = st ∧ t.ow.claim = s.ow.claim ∧ t.vp.channels = s.vp.channels)
          ∧ (c.target ≤ v →
            ((∃ m, m ≠ n ∧ s.tankUsed m = true ∧ ((s.ow.tanks.get m).state = .opened
                ∨ (s.ow.tanks.get m).state = .filling ∨ (s.ow.tanks.get m).state = .topping)) →
              (t.ow.tanks.get n).state = .full ∧ t.ow.claim = s.ow.claim ∧ (t.vp.channels.get n).Closes
                ∧ ∀ m, m ≠ n → t.vp.channels.get m = s.vp.channels.get m)
            ∧ ((∀ m, m ≠ n → s.tankUsed m = true → (s.ow.tanks.get m).state ≠ .opened
                ∧ (s.ow.tanks.get m).state ≠ .filling ∧ (s.ow.tanks.get m).state ≠ .topping) →
              t.vp.channels = s.vp.channels
                ∧ (s.ow.claim.waiting = true → (t.ow.tanks.get n).state = st ∧ t.ow.claim = s.ow.claim)
                ∧ (s.ow.claim.waiting = false → s.peerRoute = true →
                    (t.ow.tanks.get n).state = st ∧ t.ow.claim = ⟨true, some n, ⟨true, 0⟩⟩)
                ∧ (s.ow.claim.waiting = false → s.peerRoute = false →
                    (t.ow.tanks.get n).state = .held ∧ t.ow.claim = s.ow.claim))))
      ∧ ((t.ow.tanks.get n).state ≠ a.state → t.lc.status.isSome = true)
      -- the receipt state
      ∧ (s.ow.receipt ≠ .receiving → t.ow.receipt = s.ow.receipt)
      ∧ (s.ow.receipt = .receiving →
          ((∃ m, (t.ow.tanks.get m).takingPart = true) ∧ ∀ m, (t.ow.tanks.get m).takingPart = true →
            (t.ow.tanks.get m).state = .full ∨ (t.ow.tanks.get m).state = .held) → t.ow.receipt = .allfull)
      ∧ (s.ow.receipt = .receiving →
          ¬ ((∃ m, (t.ow.tanks.get m).takingPart = true) ∧ ∀ m, (t.ow.tanks.get m).takingPart = true →
            (t.ow.tanks.get m).state = .full ∨ (t.ow.tanks.get m).state = .held) → t.ow.receipt = .receiving)
      -- the received quantity
      ∧ (a.takingPart = true → s.ow.receipt ≠ .none →
          t.ow.received = min 99999999 ((Ch.all.map fun m =>
            if (t.ow.tanks.get m).takingPart = true then
              ((t.ow.tanks.get m).level.getD 0 - (t.ow.tanks.get m).startLevel) * (s.sl.setup.tanks.get m).litresPerMm
            else 0).sum))
      ∧ ((a.takingPart = false ∨ s.ow.receipt = .none) → t.ow.received = s.ow.received)
      -- the settle window
      ∧ (s.ow.receipt = .settling → a.takingPart = true →
          (a.levelValid = false ∨ a.reference + 5 < v ∨ v + 5 < a.reference) →
          (t.ow.tanks.get n).reference = v
            ∧ t.ow.settleWindow = ⟨!(Ch.all.any fun m =>
                (t.ow.tanks.get m).takingPart && !(t.ow.tanks.get m).levelValid), 0⟩)
      ∧ (¬ (s.ow.receipt = .settling ∧ a.takingPart = true
            ∧ (a.levelValid = false ∨ a.reference + 5 < v ∨ v + 5 < a.reference)) →
          (t.ow.tanks.get n).reference = a.reference ∧ t.ow.settleWindow = s.ow.settleWindow)
      ∧ t.ow.settleLimit = s.ow.settleLimit
      ∧ Frame (watchParts ++ [.readings, .scan, .tanks, .channels, .record]) s t

/-- O55. SETTLE_WINDOW_EXPIRY and SETTLE_LIMIT_EXPIRY (R135, R151, R153): the receipt is COMPLETE and both timers
stop; where that completes all a record waits for, it is sampled with its outcome. Outside SETTLING no settle timer
can run out: that it changes nothing is the model's reading (log 5). That a stopped timer shows 0 is the model's
choice (log 66). -/
def Obligations.SettlingEnds : Prop :=
  ∀ (s : State) (c : Instr),
    (c = .settleWindowExpiry ∧ s.ow.settleWindow.running = true
      ∨ c = .settleLimitExpiry ∧ s.ow.settleLimit.running = true) →
    (s.ow.receipt = .settling →
      ∃ t, exec c s = .next t
        ∧ t.ow = { s.ow with receipt := .complete, settleWindow := ⟨false, 0⟩, settleLimit := ⟨false, 0⟩ }
        ∧ (s.hasRole .tw = true → s.mr.record.state = .opened → s.mr.record.externalEnd = true →
            s.mr.record.internalEnd = true →
            (∀ e ∈ s.sr.entries, e.protected' = true → e.role = some .tw →
              ∃ st, e.last = some st ∧ st.gen = s.pc.gen ∧ st.body.receipt = .complete) →
            ∃ o, t.mr.record = { s.mr.record with
                state := .sampled, counting := false, sampleKind := .normal, outcome := o }
              ∧ (o.short = true ↔
                  s.mr.record.delivered + s.sl.setup.quantityTol < s.mr.record.nomination)
              ∧ (o.exceeds = true ↔
                  s.mr.record.nomination + s.sl.setup.quantityTol < s.mr.record.delivered)
              ∧ (o.mismatch = true ↔
                  s.mr.record.received + s.sl.setup.mismatchTol < s.mr.record.delivered
                    ∨ s.mr.record.delivered + s.sl.setup.mismatchTol < s.mr.record.received)
              ∧ o.tripped = s.mr.record.tripMark)
        ∧ (s.mr.record.externalEnd = false → t.mr.record.state = s.mr.record.state)
        ∧ Frame (watchParts ++ [.tanks, .record]) s t)
    ∧ (s.ow.receipt ≠ .settling → exec c s = .next s)

/-! ## Invariants -/

/-- O56. The bounds of the manual hold after every step: the report queue, the attempt counts, one entry for each
alarm, the channel records (R202, R162, R75, R81), the table (R27), the buffers (R169, R197). -/
def Obligations.ShapeKept : Prop :=
  ∀ s t : State, Sound s ∧ RosterOk s ∧ BuffersOk s → step s = .next t → Sound t ∧ RosterOk t ∧ BuffersOk t

/-- O57. The sequence step, the station state, the role and the phase agree after every step (R186, R187, R192), and
outside RUNNING no frame is placed and none is on the line (R162). -/
def Obligations.SequenceKept : Prop :=
  ∀ s t : State, SequenceOk s → step s = .next t →
    SequenceOk t ∧ (QuietOutsideRunning s → QuietOutsideRunning t)

/-- O58. After every step a latched cause means a RUNNING station in TRIPPED (R60, R68), PUMP_RUN on means a RUNNING
PU in STARTING, PUMPING or TOPPING (R94), and a step in hand means a RUNNING PU (R9). -/
def Obligations.TripAndPumpKept : Prop :=
  ∀ s t : State, SequenceOk s → LatchedMeansTripped s → RunMeansPumping s → InHandAtPu s → step s = .next t →
    LatchedMeansTripped t ∧ RunMeansPumping t ∧ InHandAtPu t

/-- O59. After every step HORN and BEACON sound what the alarm set gives (R79), and the residual is less than K
(R139). -/
def Obligations.SoundersAndResidualKept : Prop :=
  ∀ s t : State, step s = .next t →
    (SoundersFollow s → SoundersFollow t) ∧ (SequenceOk s → ResidualBelowK s → ResidualBelowK t)

/-- O60. The invariants hold in the machine right after reset. -/
def Obligations.InvariantsAtReset : Prop :=
  Sound State.reset ∧ RosterOk State.reset ∧ BuffersOk State.reset ∧ SequenceOk State.reset
    ∧ QuietOutsideRunning State.reset ∧ LatchedMeansTripped State.reset ∧ RunMeansPumping State.reset
    ∧ InHandAtPu State.reset ∧ SoundersFollow State.reset ∧ ResidualBelowK State.reset
end

