-- ==== Sys2Proof/Laws/State.lean ====
section
/-! SUPPORT. What each plain update of the state leaves in each field: one lemma for each update and field, true by rfl. -/

namespace Sys2Proof.Machine

/-! ## State.emit -/

@[simp] theorem State.emit_inputs (s : State) (e : Event) : (s.emit e).inputs = s.inputs := rfl

@[simp] theorem State.emit_sl (s : State) (e : Event) : (s.emit e).sl = s.sl := rfl

@[simp] theorem State.emit_pc (s : State) (e : Event) : (s.emit e).pc = s.pc := rfl

@[simp] theorem State.emit_sr (s : State) (e : Event) : (s.emit e).sr = s.sr := rfl

@[simp] theorem State.emit_rh (s : State) (e : Event) : (s.emit e).rh = s.rh := rfl

@[simp] theorem State.emit_tu (s : State) (e : Event) : (s.emit e).tu = s.tu := rfl

@[simp] theorem State.emit_an (s : State) (e : Event) : (s.emit e).an = s.an := rfl

@[simp] theorem State.emit_vp (s : State) (e : Event) : (s.emit e).vp = s.vp := rfl

@[simp] theorem State.emit_hw (s : State) (e : Event) : (s.emit e).hw = s.hw := rfl

@[simp] theorem State.emit_ow (s : State) (e : Event) : (s.emit e).ow = s.ow := rfl

@[simp] theorem State.emit_mr (s : State) (e : Event) : (s.emit e).mr = s.mr := rfl

@[simp] theorem State.emit_lc (s : State) (e : Event) : (s.emit e).lc = s.lc := rfl

@[simp] theorem State.emit_pending (s : State) (e : Event) : (s.emit e).pending = s.pending := rfl

@[simp] theorem State.emit_draws (s : State) (e : Event) : (s.emit e).draws = s.draws := rfl

/-! ## State.emitAll -/

@[simp] theorem State.emitAll_inputs (s : State) (l : List Event) : (s.emitAll l).inputs = s.inputs := rfl

@[simp] theorem State.emitAll_sl (s : State) (l : List Event) : (s.emitAll l).sl = s.sl := rfl

@[simp] theorem State.emitAll_pc (s : State) (l : List Event) : (s.emitAll l).pc = s.pc := rfl

@[simp] theorem State.emitAll_sr (s : State) (l : List Event) : (s.emitAll l).sr = s.sr := rfl

@[simp] theorem State.emitAll_rh (s : State) (l : List Event) : (s.emitAll l).rh = s.rh := rfl

@[simp] theorem State.emitAll_tu (s : State) (l : List Event) : (s.emitAll l).tu = s.tu := rfl

@[simp] theorem State.emitAll_an (s : State) (l : List Event) : (s.emitAll l).an = s.an := rfl

@[simp] theorem State.emitAll_vp (s : State) (l : List Event) : (s.emitAll l).vp = s.vp := rfl

@[simp] theorem State.emitAll_hw (s : State) (l : List Event) : (s.emitAll l).hw = s.hw := rfl

@[simp] theorem State.emitAll_ow (s : State) (l : List Event) : (s.emitAll l).ow = s.ow := rfl

@[simp] theorem State.emitAll_mr (s : State) (l : List Event) : (s.emitAll l).mr = s.mr := rfl

@[simp] theorem State.emitAll_lc (s : State) (l : List Event) : (s.emitAll l).lc = s.lc := rfl

@[simp] theorem State.emitAll_pending (s : State) (l : List Event) : (s.emitAll l).pending = s.pending := rfl

@[simp] theorem State.emitAll_draws (s : State) (l : List Event) : (s.emitAll l).draws = s.draws := rfl

/-! ## State.report -/

@[simp] theorem State.report_inputs (s : State) (r : Report) : (s.report r).inputs = s.inputs := rfl

@[simp] theorem State.report_sl (s : State) (r : Report) : (s.report r).sl = s.sl := rfl

@[simp] theorem State.report_pc (s : State) (r : Report) : (s.report r).pc = s.pc := rfl

@[simp] theorem State.report_sr (s : State) (r : Report) : (s.report r).sr = s.sr := rfl

@[simp] theorem State.report_rh (s : State) (r : Report) : (s.report r).rh = s.rh := rfl

@[simp] theorem State.report_tu (s : State) (r : Report) : (s.report r).tu = s.tu := rfl

@[simp] theorem State.report_an (s : State) (r : Report) : (s.report r).an = s.an := rfl

@[simp] theorem State.report_vp (s : State) (r : Report) : (s.report r).vp = s.vp := rfl

@[simp] theorem State.report_hw (s : State) (r : Report) : (s.report r).hw = s.hw := rfl

@[simp] theorem State.report_ow (s : State) (r : Report) : (s.report r).ow = s.ow := rfl

@[simp] theorem State.report_mr (s : State) (r : Report) : (s.report r).mr = s.mr := rfl

@[simp] theorem State.report_lc (s : State) (r : Report) : (s.report r).lc = s.lc := rfl

@[simp] theorem State.report_pending (s : State) (r : Report) : (s.report r).pending = s.pending := rfl

@[simp] theorem State.report_draws (s : State) (r : Report) : (s.report r).draws = s.draws := rfl

/-! ## State.discardLine -/

@[simp] theorem State.discardLine_inputs (s : State) : s.discardLine.inputs = s.inputs := rfl

@[simp] theorem State.discardLine_sl (s : State) : s.discardLine.sl = s.sl := rfl

@[simp] theorem State.discardLine_pc (s : State) : s.discardLine.pc = s.pc := rfl

@[simp] theorem State.discardLine_sr (s : State) : s.discardLine.sr = s.sr := rfl

@[simp] theorem State.discardLine_rh (s : State) : s.discardLine.rh = s.rh := rfl

@[simp] theorem State.discardLine_tu (s : State) : s.discardLine.tu = s.tu := rfl

@[simp] theorem State.discardLine_an (s : State) : s.discardLine.an = s.an := rfl

@[simp] theorem State.discardLine_vp (s : State) : s.discardLine.vp = s.vp := rfl

@[simp] theorem State.discardLine_hw (s : State) : s.discardLine.hw = s.hw := rfl

@[simp] theorem State.discardLine_ow (s : State) : s.discardLine.ow = s.ow := rfl

@[simp] theorem State.discardLine_mr (s : State) : s.discardLine.mr = s.mr := rfl

@[simp] theorem State.discardLine_lc (s : State) : s.discardLine.lc = s.lc := rfl

@[simp] theorem State.discardLine_pending (s : State) : s.discardLine.pending = s.pending := rfl

@[simp] theorem State.discardLine_draws (s : State) : s.discardLine.draws = s.draws := rfl

/-! ## State.mapRecord -/

@[simp] theorem State.mapRecord_inputs (s : State) (f : Record → Record) : (s.mapRecord f).inputs = s.inputs := rfl

@[simp] theorem State.mapRecord_sl (s : State) (f : Record → Record) : (s.mapRecord f).sl = s.sl := rfl

@[simp] theorem State.mapRecord_pc (s : State) (f : Record → Record) : (s.mapRecord f).pc = s.pc := rfl

@[simp] theorem State.mapRecord_sr (s : State) (f : Record → Record) : (s.mapRecord f).sr = s.sr := rfl

@[simp] theorem State.mapRecord_rh (s : State) (f : Record → Record) : (s.mapRecord f).rh = s.rh := rfl

@[simp] theorem State.mapRecord_tu (s : State) (f : Record → Record) : (s.mapRecord f).tu = s.tu := rfl

@[simp] theorem State.mapRecord_an (s : State) (f : Record → Record) : (s.mapRecord f).an = s.an := rfl

@[simp] theorem State.mapRecord_vp (s : State) (f : Record → Record) : (s.mapRecord f).vp = s.vp := rfl

@[simp] theorem State.mapRecord_hw (s : State) (f : Record → Record) : (s.mapRecord f).hw = s.hw := rfl

@[simp] theorem State.mapRecord_ow (s : State) (f : Record → Record) : (s.mapRecord f).ow = s.ow := rfl

@[simp] theorem State.mapRecord_lc (s : State) (f : Record → Record) : (s.mapRecord f).lc = s.lc := rfl

@[simp] theorem State.mapRecord_pp (s : State) (f : Record → Record) : (s.mapRecord f).pp = s.pp := rfl

@[simp] theorem State.mapRecord_pending (s : State) (f : Record → Record) : (s.mapRecord f).pending = s.pending := rfl

@[simp] theorem State.mapRecord_draws (s : State) (f : Record → Record) : (s.mapRecord f).draws = s.draws := rfl

/-! ## State.putTank -/

@[simp] theorem State.putTank_inputs (s : State) (n : Ch) (t : Tank) : (s.putTank n t).inputs = s.inputs := rfl

@[simp] theorem State.putTank_sl (s : State) (n : Ch) (t : Tank) : (s.putTank n t).sl = s.sl := rfl

@[simp] theorem State.putTank_pc (s : State) (n : Ch) (t : Tank) : (s.putTank n t).pc = s.pc := rfl

@[simp] theorem State.putTank_sr (s : State) (n : Ch) (t : Tank) : (s.putTank n t).sr = s.sr := rfl

@[simp] theorem State.putTank_rh (s : State) (n : Ch) (t : Tank) : (s.putTank n t).rh = s.rh := rfl

@[simp] theorem State.putTank_tu (s : State) (n : Ch) (t : Tank) : (s.putTank n t).tu = s.tu := rfl

@[simp] theorem State.putTank_an (s : State) (n : Ch) (t : Tank) : (s.putTank n t).an = s.an := rfl

@[simp] theorem State.putTank_vp (s : State) (n : Ch) (t : Tank) : (s.putTank n t).vp = s.vp := rfl

@[simp] theorem State.putTank_hw (s : State) (n : Ch) (t : Tank) : (s.putTank n t).hw = s.hw := rfl

@[simp] theorem State.putTank_mr (s : State) (n : Ch) (t : Tank) : (s.putTank n t).mr = s.mr := rfl

@[simp] theorem State.putTank_lc (s : State) (n : Ch) (t : Tank) : (s.putTank n t).lc = s.lc := rfl

@[simp] theorem State.putTank_pp (s : State) (n : Ch) (t : Tank) : (s.putTank n t).pp = s.pp := rfl

@[simp] theorem State.putTank_pending (s : State) (n : Ch) (t : Tank) : (s.putTank n t).pending = s.pending := rfl

@[simp] theorem State.putTank_draws (s : State) (n : Ch) (t : Tank) : (s.putTank n t).draws = s.draws := rfl

/-! ## State.setPhase -/

@[simp] theorem State.setPhase_inputs (s : State) (p : Phase) : (s.setPhase p).inputs = s.inputs := rfl

@[simp] theorem State.setPhase_sl (s : State) (p : Phase) : (s.setPhase p).sl = s.sl := rfl

@[simp] theorem State.setPhase_sr (s : State) (p : Phase) : (s.setPhase p).sr = s.sr := rfl

@[simp] theorem State.setPhase_rh (s : State) (p : Phase) : (s.setPhase p).rh = s.rh := rfl

@[simp] theorem State.setPhase_tu (s : State) (p : Phase) : (s.setPhase p).tu = s.tu := rfl

@[simp] theorem State.setPhase_an (s : State) (p : Phase) : (s.setPhase p).an = s.an := rfl

@[simp] theorem State.setPhase_vp (s : State) (p : Phase) : (s.setPhase p).vp = s.vp := rfl

@[simp] theorem State.setPhase_hw (s : State) (p : Phase) : (s.setPhase p).hw = s.hw := rfl

@[simp] theorem State.setPhase_ow (s : State) (p : Phase) : (s.setPhase p).ow = s.ow := rfl

@[simp] theorem State.setPhase_mr (s : State) (p : Phase) : (s.setPhase p).mr = s.mr := rfl

@[simp] theorem State.setPhase_lc (s : State) (p : Phase) : (s.setPhase p).lc = s.lc := rfl

@[simp] theorem State.setPhase_pp (s : State) (p : Phase) : (s.setPhase p).pp = s.pp := rfl

@[simp] theorem State.setPhase_pending (s : State) (p : Phase) : (s.setPhase p).pending = s.pending := rfl

@[simp] theorem State.setPhase_draws (s : State) (p : Phase) : (s.setPhase p).draws = s.draws := rfl

/-! ## State.watchLeak -/

@[simp] theorem State.watchLeak_inputs (s : State) : s.watchLeak.inputs = s.inputs := rfl

@[simp] theorem State.watchLeak_sl (s : State) : s.watchLeak.sl = s.sl := rfl

@[simp] theorem State.watchLeak_pc (s : State) : s.watchLeak.pc = s.pc := rfl

@[simp] theorem State.watchLeak_sr (s : State) : s.watchLeak.sr = s.sr := rfl

@[simp] theorem State.watchLeak_rh (s : State) : s.watchLeak.rh = s.rh := rfl

@[simp] theorem State.watchLeak_tu (s : State) : s.watchLeak.tu = s.tu := rfl

@[simp] theorem State.watchLeak_an (s : State) : s.watchLeak.an = s.an := rfl

@[simp] theorem State.watchLeak_vp (s : State) : s.watchLeak.vp = s.vp := rfl

@[simp] theorem State.watchLeak_ow (s : State) : s.watchLeak.ow = s.ow := rfl

@[simp] theorem State.watchLeak_mr (s : State) : s.watchLeak.mr = s.mr := rfl

@[simp] theorem State.watchLeak_lc (s : State) : s.watchLeak.lc = s.lc := rfl

@[simp] theorem State.watchLeak_pp (s : State) : s.watchLeak.pp = s.pp := rfl

@[simp] theorem State.watchLeak_pending (s : State) : s.watchLeak.pending = s.pending := rfl

@[simp] theorem State.watchLeak_draws (s : State) : s.watchLeak.draws = s.draws := rfl

/-! ## State.watchTimers -/

@[simp] theorem State.watchTimers_inputs (s : State) : s.watchTimers.inputs = s.inputs := rfl

@[simp] theorem State.watchTimers_sl (s : State) : s.watchTimers.sl = s.sl := rfl

@[simp] theorem State.watchTimers_pc (s : State) : s.watchTimers.pc = s.pc := rfl

@[simp] theorem State.watchTimers_sr (s : State) : s.watchTimers.sr = s.sr := rfl

@[simp] theorem State.watchTimers_rh (s : State) : s.watchTimers.rh = s.rh := rfl

@[simp] theorem State.watchTimers_an (s : State) : s.watchTimers.an = s.an := rfl

@[simp] theorem State.watchTimers_vp (s : State) : s.watchTimers.vp = s.vp := rfl

@[simp] theorem State.watchTimers_hw (s : State) : s.watchTimers.hw = s.hw := rfl

@[simp] theorem State.watchTimers_ow (s : State) : s.watchTimers.ow = s.ow := rfl

@[simp] theorem State.watchTimers_mr (s : State) : s.watchTimers.mr = s.mr := rfl

@[simp] theorem State.watchTimers_lc (s : State) : s.watchTimers.lc = s.lc := rfl

@[simp] theorem State.watchTimers_pp (s : State) : s.watchTimers.pp = s.pp := rfl

@[simp] theorem State.watchTimers_pending (s : State) : s.watchTimers.pending = s.pending := rfl

@[simp] theorem State.watchTimers_draws (s : State) : s.watchTimers.draws = s.draws := rfl

/-! ## State.setRateLow -/

@[simp] theorem State.setRateLow_inputs (s : State) (b : Bool) : (s.setRateLow b).inputs = s.inputs := rfl

@[simp] theorem State.setRateLow_sl (s : State) (b : Bool) : (s.setRateLow b).sl = s.sl := rfl

@[simp] theorem State.setRateLow_pc (s : State) (b : Bool) : (s.setRateLow b).pc = s.pc := rfl

@[simp] theorem State.setRateLow_sr (s : State) (b : Bool) : (s.setRateLow b).sr = s.sr := rfl

@[simp] theorem State.setRateLow_rh (s : State) (b : Bool) : (s.setRateLow b).rh = s.rh := rfl

@[simp] theorem State.setRateLow_tu (s : State) (b : Bool) : (s.setRateLow b).tu = s.tu := rfl

@[simp] theorem State.setRateLow_an (s : State) (b : Bool) : (s.setRateLow b).an = s.an := rfl

@[simp] theorem State.setRateLow_hw (s : State) (b : Bool) : (s.setRateLow b).hw = s.hw := rfl

@[simp] theorem State.setRateLow_ow (s : State) (b : Bool) : (s.setRateLow b).ow = s.ow := rfl

@[simp] theorem State.setRateLow_mr (s : State) (b : Bool) : (s.setRateLow b).mr = s.mr := rfl

@[simp] theorem State.setRateLow_lc (s : State) (b : Bool) : (s.setRateLow b).lc = s.lc := rfl

@[simp] theorem State.setRateLow_pp (s : State) (b : Bool) : (s.setRateLow b).pp = s.pp := rfl

@[simp] theorem State.setRateLow_pending (s : State) (b : Bool) : (s.setRateLow b).pending = s.pending := rfl

@[simp] theorem State.setRateLow_draws (s : State) (b : Bool) : (s.setRateLow b).draws = s.draws := rfl

/-! ## State.takeOverfill -/

@[simp] theorem State.takeOverfill_inputs (s : State) (n : Ch) : (s.takeOverfill n).inputs = s.inputs := rfl

@[simp] theorem State.takeOverfill_sl (s : State) (n : Ch) : (s.takeOverfill n).sl = s.sl := rfl

@[simp] theorem State.takeOverfill_pc (s : State) (n : Ch) : (s.takeOverfill n).pc = s.pc := rfl

@[simp] theorem State.takeOverfill_sr (s : State) (n : Ch) : (s.takeOverfill n).sr = s.sr := rfl

@[simp] theorem State.takeOverfill_rh (s : State) (n : Ch) : (s.takeOverfill n).rh = s.rh := rfl

@[simp] theorem State.takeOverfill_tu (s : State) (n : Ch) : (s.takeOverfill n).tu = s.tu := rfl

@[simp] theorem State.takeOverfill_an (s : State) (n : Ch) : (s.takeOverfill n).an = s.an := rfl

@[simp] theorem State.takeOverfill_vp (s : State) (n : Ch) : (s.takeOverfill n).vp = s.vp := rfl

@[simp] theorem State.takeOverfill_hw (s : State) (n : Ch) : (s.takeOverfill n).hw = s.hw := rfl

@[simp] theorem State.takeOverfill_mr (s : State) (n : Ch) : (s.takeOverfill n).mr = s.mr := rfl

@[simp] theorem State.takeOverfill_lc (s : State) (n : Ch) : (s.takeOverfill n).lc = s.lc := rfl

@[simp] theorem State.takeOverfill_pp (s : State) (n : Ch) : (s.takeOverfill n).pp = s.pp := rfl

@[simp] theorem State.takeOverfill_pending (s : State) (n : Ch) : (s.takeOverfill n).pending = s.pending := rfl

@[simp] theorem State.takeOverfill_draws (s : State) (n : Ch) : (s.takeOverfill n).draws = s.draws := rfl

/-! ## State.takeImage -/

@[simp] theorem State.takeImage_inputs (s : State) (i : Image) : (s.takeImage i).inputs = s.inputs := rfl

@[simp] theorem State.takeImage_pc (s : State) (i : Image) : (s.takeImage i).pc = s.pc := rfl

@[simp] theorem State.takeImage_sr (s : State) (i : Image) : (s.takeImage i).sr = s.sr := rfl

@[simp] theorem State.takeImage_rh (s : State) (i : Image) : (s.takeImage i).rh = s.rh := rfl

@[simp] theorem State.takeImage_tu (s : State) (i : Image) : (s.takeImage i).tu = s.tu := rfl

@[simp] theorem State.takeImage_an (s : State) (i : Image) : (s.takeImage i).an = s.an := rfl

@[simp] theorem State.takeImage_vp (s : State) (i : Image) : (s.takeImage i).vp = s.vp := rfl

@[simp] theorem State.takeImage_hw (s : State) (i : Image) : (s.takeImage i).hw = s.hw := rfl

@[simp] theorem State.takeImage_ow (s : State) (i : Image) : (s.takeImage i).ow = s.ow := rfl

@[simp] theorem State.takeImage_mr (s : State) (i : Image) : (s.takeImage i).mr = s.mr := rfl

@[simp] theorem State.takeImage_lc (s : State) (i : Image) : (s.takeImage i).lc = s.lc := rfl

@[simp] theorem State.takeImage_pp (s : State) (i : Image) : (s.takeImage i).pp = s.pp := rfl

@[simp] theorem State.takeImage_pending (s : State) (i : Image) : (s.takeImage i).pending = s.pending := rfl

@[simp] theorem State.takeImage_draws (s : State) (i : Image) : (s.takeImage i).draws = s.draws := rfl

@[simp] theorem State.takeImage_image (s : State) (i : Image) : (s.takeImage i).sl.image = some i := rfl

@[simp] theorem State.takeImage_serial (s : State) (i : Image) :
    (s.takeImage i).sl.serial = serialRead i.toList := rfl

@[simp] theorem State.takeImage_role (s : State) (i : Image) : (s.takeImage i).role = s.role := rfl

@[simp] theorem State.takeImage_number (s : State) (i : Image) : (s.takeImage i).number = s.number := rfl

/-! ## State.makeRequest -/

@[simp] theorem State.makeRequest_inputs (s : State) (k : ReqKind) (q r : Nat) : (s.makeRequest k q r).inputs = s.inputs := rfl

@[simp] theorem State.makeRequest_sl (s : State) (k : ReqKind) (q r : Nat) : (s.makeRequest k q r).sl = s.sl := rfl

@[simp] theorem State.makeRequest_pc (s : State) (k : ReqKind) (q r : Nat) : (s.makeRequest k q r).pc = s.pc := rfl

@[simp] theorem State.makeRequest_sr (s : State) (k : ReqKind) (q r : Nat) : (s.makeRequest k q r).sr = s.sr := rfl

@[simp] theorem State.makeRequest_tu (s : State) (k : ReqKind) (q r : Nat) : (s.makeRequest k q r).tu = s.tu := rfl

@[simp] theorem State.makeRequest_an (s : State) (k : ReqKind) (q r : Nat) : (s.makeRequest k q r).an = s.an := rfl

@[simp] theorem State.makeRequest_vp (s : State) (k : ReqKind) (q r : Nat) : (s.makeRequest k q r).vp = s.vp := rfl

@[simp] theorem State.makeRequest_hw (s : State) (k : ReqKind) (q r : Nat) : (s.makeRequest k q r).hw = s.hw := rfl

@[simp] theorem State.makeRequest_ow (s : State) (k : ReqKind) (q r : Nat) : (s.makeRequest k q r).ow = s.ow := rfl

@[simp] theorem State.makeRequest_mr (s : State) (k : ReqKind) (q r : Nat) : (s.makeRequest k q r).mr = s.mr := rfl

@[simp] theorem State.makeRequest_pp (s : State) (k : ReqKind) (q r : Nat) : (s.makeRequest k q r).pp = s.pp := rfl

@[simp] theorem State.makeRequest_pending (s : State) (k : ReqKind) (q r : Nat) : (s.makeRequest k q r).pending = s.pending := rfl

@[simp] theorem State.makeRequest_draws (s : State) (k : ReqKind) (q r : Nat) : (s.makeRequest k q r).draws = s.draws := rfl

/-! ## What the updates write -/

@[simp] theorem State.emit_pp (s : State) (e : Event) : (s.emit e).pp = s.pp.placeEvent e := rfl

@[simp] theorem State.report_pp (s : State) (r : Report) : (s.report r).pp = s.pp.placeReply r := rfl

@[simp] theorem State.mapRecord_record (s : State) (f : Record → Record) :
    (s.mapRecord f).mr.record = f s.mr.record := rfl

@[simp] theorem State.setPhase_phase (s : State) (p : Phase) : (s.setPhase p).pc.phase = p := rfl

@[simp] theorem State.setPhase_order (s : State) (p : Phase) : (s.setPhase p).pc.order = orderOf p s.role := rfl

@[simp] theorem State.watchLeak_leakCond (s : State) : s.watchLeak.hw.leakCond = s.leakNow := rfl

@[simp] theorem State.discardLine_lost (s : State) : s.discardLine.pp.lost = true := rfl

/-! ## Asking for a frame -/

@[simp] theorem State.ask_inputs (s : State) (k : FrameKind) : (s.ask k).inputs = s.inputs := by
  unfold State.ask; split <;> rfl

@[simp] theorem State.askStatus_inputs (s : State) : s.askStatus.inputs = s.inputs := s.ask_inputs .status

@[simp] theorem State.askStatusIf_inputs (s : State) (b : Bool) : (s.askStatusIf b).inputs = s.inputs := by
  unfold State.askStatusIf; split <;> simp

@[simp] theorem State.ask_sl (s : State) (k : FrameKind) : (s.ask k).sl = s.sl := by
  unfold State.ask; split <;> rfl

@[simp] theorem State.askStatus_sl (s : State) : s.askStatus.sl = s.sl := s.ask_sl .status

@[simp] theorem State.askStatusIf_sl (s : State) (b : Bool) : (s.askStatusIf b).sl = s.sl := by
  unfold State.askStatusIf; split <;> simp

@[simp] theorem State.ask_pc (s : State) (k : FrameKind) : (s.ask k).pc = s.pc := by
  unfold State.ask; split <;> rfl

@[simp] theorem State.askStatus_pc (s : State) : s.askStatus.pc = s.pc := s.ask_pc .status

@[simp] theorem State.askStatusIf_pc (s : State) (b : Bool) : (s.askStatusIf b).pc = s.pc := by
  unfold State.askStatusIf; split <;> simp

@[simp] theorem State.ask_sr (s : State) (k : FrameKind) : (s.ask k).sr = s.sr := by
  unfold State.ask; split <;> rfl

@[simp] theorem State.askStatus_sr (s : State) : s.askStatus.sr = s.sr := s.ask_sr .status

@[simp] theorem State.askStatusIf_sr (s : State) (b : Bool) : (s.askStatusIf b).sr = s.sr := by
  unfold State.askStatusIf; split <;> simp

@[simp] theorem State.ask_rh (s : State) (k : FrameKind) : (s.ask k).rh = s.rh := by
  unfold State.ask; split <;> rfl

@[simp] theorem State.askStatus_rh (s : State) : s.askStatus.rh = s.rh := s.ask_rh .status

@[simp] theorem State.askStatusIf_rh (s : State) (b : Bool) : (s.askStatusIf b).rh = s.rh := by
  unfold State.askStatusIf; split <;> simp

@[simp] theorem State.ask_tu (s : State) (k : FrameKind) : (s.ask k).tu = s.tu := by
  unfold State.ask; split <;> rfl

@[simp] theorem State.askStatus_tu (s : State) : s.askStatus.tu = s.tu := s.ask_tu .status

@[simp] theorem State.askStatusIf_tu (s : State) (b : Bool) : (s.askStatusIf b).tu = s.tu := by
  unfold State.askStatusIf; split <;> simp

@[simp] theorem State.ask_an (s : State) (k : FrameKind) : (s.ask k).an = s.an := by
  unfold State.ask; split <;> rfl

@[simp] theorem State.askStatus_an (s : State) : s.askStatus.an = s.an := s.ask_an .status

@[simp] theorem State.askStatusIf_an (s : State) (b : Bool) : (s.askStatusIf b).an = s.an := by
  unfold State.askStatusIf; split <;> simp

@[simp] theorem State.ask_vp (s : State) (k : FrameKind) : (s.ask k).vp = s.vp := by
  unfold State.ask; split <;> rfl

@[simp] theorem State.askStatus_vp (s : State) : s.askStatus.vp = s.vp := s.ask_vp .status

@[simp] theorem State.askStatusIf_vp (s : State) (b : Bool) : (s.askStatusIf b).vp = s.vp := by
  unfold State.askStatusIf; split <;> simp

@[simp] theorem State.ask_hw (s : State) (k : FrameKind) : (s.ask k).hw = s.hw := by
  unfold State.ask; split <;> rfl

@[simp] theorem State.askStatus_hw (s : State) : s.askStatus.hw = s.hw := s.ask_hw .status

@[simp] theorem State.askStatusIf_hw (s : State) (b : Bool) : (s.askStatusIf b).hw = s.hw := by
  unfold State.askStatusIf; split <;> simp

@[simp] theorem State.ask_ow (s : State) (k : FrameKind) : (s.ask k).ow = s.ow := by
  unfold State.ask; split <;> rfl

@[simp] theorem State.askStatus_ow (s : State) : s.askStatus.ow = s.ow := s.ask_ow .status

@[simp] theorem State.askStatusIf_ow (s : State) (b : Bool) : (s.askStatusIf b).ow = s.ow := by
  unfold State.askStatusIf; split <;> simp

@[simp] theorem State.ask_mr (s : State) (k : FrameKind) : (s.ask k).mr = s.mr := by
  unfold State.ask; split <;> rfl

@[simp] theorem State.askStatus_mr (s : State) : s.askStatus.mr = s.mr := s.ask_mr .status

@[simp] theorem State.askStatusIf_mr (s : State) (b : Bool) : (s.askStatusIf b).mr = s.mr := by
  unfold State.askStatusIf; split <;> simp

@[simp] theorem State.ask_pp (s : State) (k : FrameKind) : (s.ask k).pp = s.pp := by
  unfold State.ask; split <;> rfl

@[simp] theorem State.askStatus_pp (s : State) : s.askStatus.pp = s.pp := s.ask_pp .status

@[simp] theorem State.askStatusIf_pp (s : State) (b : Bool) : (s.askStatusIf b).pp = s.pp := by
  unfold State.askStatusIf; split <;> simp

@[simp] theorem State.ask_pending (s : State) (k : FrameKind) : (s.ask k).pending = s.pending := by
  unfold State.ask; split <;> rfl

@[simp] theorem State.askStatus_pending (s : State) : s.askStatus.pending = s.pending := s.ask_pending .status

@[simp] theorem State.askStatusIf_pending (s : State) (b : Bool) : (s.askStatusIf b).pending = s.pending := by
  unfold State.askStatusIf; split <;> simp

@[simp] theorem State.ask_draws (s : State) (k : FrameKind) : (s.ask k).draws = s.draws := by
  unfold State.ask; split <;> rfl

@[simp] theorem State.askStatus_draws (s : State) : s.askStatus.draws = s.draws := s.ask_draws .status

@[simp] theorem State.askStatusIf_draws (s : State) (b : Bool) : (s.askStatusIf b).draws = s.draws := by
  unfold State.askStatusIf; split <;> simp

end Sys2Proof.Machine
end

