-- ==== Sys2Proof/Laws/Frame.lean ====
section
/-! SUPPORT. `Keeps`: what an operation leaves alone and what it keeps true; how such facts compose. -/

namespace Sys2Proof.Machine

/-! ## Frames -/

theorem Frame.refl (T : List Part) (s : State) : Frame T s s := by
  intro p _
  cases p <;> simp [Part.same]

theorem Part.same_trans {p : Part} {s t u : State} (h : p.same s t) (k : p.same t u) : p.same s u := by
  cases p <;> simp_all [Part.same]

theorem Frame.trans {T : List Part} {s t u : State} (h : Frame T s t) (k : Frame T t u) : Frame T s u :=
  fun p hp => Part.same_trans (h p hp) (k p hp)

theorem Frame.mono {T U : List Part} {s t : State} (h : Frame T s t) (hTU : ∀ p ∈ T, p ∈ U) : Frame U s t :=
  fun p hp => h p fun hT => hp (hTU p hT)

/-! ## What every operation of the cascade does -/

/-- What an operation inside a step does: it changes no part but those named, keeps the sound shape, adds nothing but
EVENTs to the report queue, and places no frame outside RUNNING. -/
structure Keeps (T : List Part) (s t : State) : Prop where
  frame : Frame T s t
  sound : Sound s → Sound t
  events : EventsOnly s t
  quiet : QuietOutsideRunning s → QuietOutsideRunning t

theorem EventsOnly.refl (s : State) : EventsOnly s s := ⟨[], by simp, rfl⟩

theorem EventsOnly.trans {s t u : State} (h : EventsOnly s t) (k : EventsOnly t u) : EventsOnly s u := by
  obtain ⟨l, hl, al⟩ := h
  obtain ⟨m, hm, am⟩ := k
  exact ⟨l ++ m, by simp [hm, hl], by simp_all⟩

theorem Keeps.refl (T : List Part) (s : State) : Keeps T s s :=
  ⟨.refl T s, id, .refl s, id⟩

theorem Keeps.trans {T : List Part} {s t u : State} (h : Keeps T s t) (k : Keeps T t u) : Keeps T s u :=
  ⟨h.frame.trans k.frame, fun a => k.sound (h.sound a), h.events.trans k.events, fun a => k.quiet (h.quiet a)⟩

theorem Keeps.mono {T U : List Part} {s t : State} (h : Keeps T s t) (hTU : ∀ p ∈ T, p ∈ U) : Keeps U s t :=
  ⟨h.frame.mono hTU, h.sound, h.events, h.quiet⟩

/-- A change that touches neither the reports, the frames, the alarms, the channels nor the station state. -/
theorem Keeps.pure {T : List Part} {s t : State} (hf : Frame T s t) (hpp : t.pp = s.pp) (hlc : t.lc = s.lc)
    (han : t.an = s.an) (hvp : t.vp.channels = s.vp.channels) (hst : t.pc.station = s.pc.station) : Keeps T s t where
  frame := hf
  sound h := ⟨hpp ▸ h.queue, hlc ▸ h.counts, han ▸ h.alarms, hvp ▸ h.channels⟩
  events := ⟨[], by simp [hpp], rfl⟩
  quiet h := by
    unfold QuietOutsideRunning State.running at *
    rw [hst, hlc]
    exact h

/-- One of two operations. -/
theorem Keeps.ite {T : List Part} {s t u : State} {c : Prop} [Decidable c] (h : Keeps T s t) (k : Keeps T s u) :
    Keeps T s (if c then t else u) := by
  split
  · exact h
  · exact k

/-- An operation that is done or not. -/
theorem Keeps.iteSelf {T : List Part} {s t : State} {c : Prop} [Decidable c] (h : Keeps T s t) :
    Keeps T s (if c then t else s) := h.ite (.refl T s)

/-- An operation repeated over a list. -/
theorem Keeps.foldl {α : Type} {T : List Part} {f : State → α → State} (h : ∀ s a, Keeps T s (f s a)) (l : List α)
    (s : State) : Keeps T s (l.foldl f s) := by
  induction l generalizing s with
  | nil => exact .refl T s
  | cons a l ih => exact (h s a).trans (ih (f s a))

/-! ## Reading a frame -/

theorem Frame.part {T : List Part} {s t : State} (h : Frame T s t) (p : Part) (hp : decide (p ∉ T) = true) :
    p.same s t := h p (of_decide_eq_true hp)

theorem Keeps.part {T : List Part} {s t : State} (h : Keeps T s t) (p : Part) (hp : decide (p ∉ T) = true) :
    p.same s t := h.frame.part p hp

end Sys2Proof.Machine
end

