-- ==== Sys2Proof/Laws/Ops.lean ====
section
/-! SUPPORT. What the shared operations of Machine/Ops.lean do: events, asking for frames, and `watch`. -/

namespace Sys2Proof.Machine

/-! ## The report queue (R202) -/

/-- What handing over an EVENT does to the Panel Port. -/
theorem PanelPort.placeEvent_spec (p : PanelPort) (e : Event) :
    (∃ l : List Queued, (p.placeEvent e).queue = p.queue ++ l ∧ l.all Queued.isEvent = true)
      ∧ (p.queue.length ≤ 8 → (p.placeEvent e).queue.length ≤ 8)
      ∧ (p.placeEvent e).buffer = p.buffer ∧ (p.placeEvent e).overlong = p.overlong
      ∧ (p.placeEvent e).mask = p.mask := by
  unfold PanelPort.placeEvent
  split
  · exact ⟨⟨[], by simp, rfl⟩, id, rfl, rfl, rfl⟩
  · split
    · rename_i h
      unfold PanelPort.append
      split
      · rename_i he
        refine ⟨⟨[⟨.event e, p.lost⟩], ?_, rfl⟩, by simp, rfl, rfl, rfl⟩
        simp_all
      · refine ⟨⟨[⟨.event e, false⟩], rfl, rfl⟩, ?_, rfl, rfl, rfl⟩
        intro _
        simp only [List.length_append, List.length_cons, List.length_nil]
        unfold queueLimit at h
        omega
    · exact ⟨⟨[], by simp, rfl⟩, id, rfl, rfl, rfl⟩

theorem State.emit_keeps (s : State) (e : Event) : Keeps [.reports] s (s.emit e) := by
  obtain ⟨hl, hb, h1, h2, h3⟩ := s.pp.placeEvent_spec e
  refine ⟨?_, fun h => ⟨hb h.queue, h.counts, h.alarms, h.channels⟩, hl, id⟩
  intro p hp
  cases p <;> first | exact absurd (by decide) hp | simp [Part.same, State.emit, *]

theorem State.emitIf_keeps (s : State) (b : Bool) (e : Event) : Keeps [.reports] s (s.emitIf b e) :=
  (s.emit_keeps e).iteSelf

theorem State.emitAll_eq (s : State) (l : List Event) : s.emitAll l = l.foldl State.emit s := by
  induction l generalizing s with
  | nil => rfl
  | cons e l ih => exact ih (s.emit e)

theorem State.emitAll_keeps (s : State) (l : List Event) : Keeps [.reports] s (s.emitAll l) := by
  rw [State.emitAll_eq]
  exact Keeps.foldl (fun s e => s.emit_keeps e) l s

/-! ## The transmit queue (R162, R167) -/

@[simp] theorem LinkController.setPlace_attempt (l : LinkController) (k : FrameKind) (p : Option Place) :
    (l.setPlace k p).attempt = l.attempt := by cases k <;> rfl

@[simp] theorem LinkController.setPlace_line (l : LinkController) (k : FrameKind) (p : Option Place) :
    (l.setPlace k p).line = l.line := by cases k <;> rfl

@[simp] theorem LinkController.setPlace_idle (l : LinkController) (k : FrameKind) (p : Option Place) :
    (l.setPlace k p).idle = l.idle := by cases k <;> rfl

@[simp] theorem LinkController.setPlace_assembly (l : LinkController) (k : FrameKind) (p : Option Place) :
    (l.setPlace k p).assembly = l.assembly := by cases k <;> rfl

@[simp] theorem LinkController.setPlace_check (l : LinkController) (k : FrameKind) (p : Option Place) :
    (l.setPlace k p).check = l.check := by cases k <;> rfl

@[simp] theorem LinkController.setPlace_delivery (l : LinkController) (k : FrameKind) (p : Option Place) :
    (l.setPlace k p).delivery = l.delivery := by cases k <;> rfl

@[simp] theorem LinkController.setPlace_heartbeat (l : LinkController) (k : FrameKind) (p : Option Place) :
    (l.setPlace k p).heartbeat = l.heartbeat := by cases k <;> rfl

@[simp] theorem LinkController.setPlace_same (l : LinkController) (k : FrameKind) (p : Option Place) :
    (l.setPlace k p).place k = p := by cases k <;> rfl

/-- The bound of a kind's attempt count (R162). -/
theorem LinkController.countsOk_iff (l : LinkController) :
    l.countsOk ↔ ∀ k p, l.place k = some p → p.attempts ≤ (if k = .trip then 8 else 7) := by
  constructor
  · intro h k p hp
    cases k
    · exact h.2.2.2 p hp
    · exact h.2.2.1 p hp
    · exact h.2.1 p hp
    · exact h.1 p hp
  · intro h
    exact ⟨fun p => h .trip p, fun p => h .answer p, fun p => h .request p, fun p => h .status p⟩

theorem LinkController.setPlace_counts (l : LinkController) (k : FrameKind) (p : Option Place)
    (hp : ∀ q, p = some q → q.attempts ≤ (if k = .trip then 8 else 7)) (h : l.countsOk) :
    (l.setPlace k p).countsOk := by
  rw [LinkController.countsOk_iff] at *
  intro j q hq
  by_cases hj : j = k
  · subst hj
    rw [LinkController.setPlace_same] at hq
    exact hp q hq
  · apply h j q
    rw [← hq]
    cases j <;> cases k <;> first | rfl | exact absurd rfl hj

/-- Asking for a frame leaves a place of the kind occupied and touches nothing else of the Link Controller. -/
theorem LinkController.ask_place (l : LinkController) (k : FrameKind) :
    ∃ q, (l.ask k) = l.setPlace k (some q) ∧ (∀ p, l.place k = some p → q.attempts = p.attempts)
      ∧ (l.place k = none → q.attempts = 0) := by
  unfold LinkController.ask
  split
  · exact ⟨_, rfl, by simp_all, by simp⟩
  · exact ⟨_, rfl, by simp_all, by simp_all⟩

theorem LinkController.ask_counts (l : LinkController) (k : FrameKind) (h : l.countsOk) : (l.ask k).countsOk := by
  obtain ⟨q, hq, h1, h2⟩ := l.ask_place k
  rw [hq]
  apply LinkController.setPlace_counts _ _ _ _ h
  intro r hr
  obtain rfl : q = r := by simpa using hr
  rcases hp : l.place k with _ | p
  · rw [h2 hp]
    split <;> decide
  · rw [h1 p hp]
    exact (LinkController.countsOk_iff l).1 h k p hp

theorem LinkController.withdraw_counts (l : LinkController) (k : FrameKind) (h : l.countsOk) :
    (l.withdraw k).countsOk := by
  have := LinkController.setPlace_counts l k none (by simp) h
  unfold LinkController.withdraw LinkController.countsOk at *
  exact this

theorem State.ask_keeps (s : State) (k : FrameKind) : Keeps [.frames] s (s.ask k) := by
  unfold State.ask
  split
  · rename_i hr
    obtain ⟨q, hq, -, -⟩ := s.lc.ask_place k
    refine ⟨?_, fun h => ⟨h.queue, LinkController.ask_counts s.lc k h.counts, h.alarms, h.channels⟩, .refl s, ?_⟩
    · intro p hp
      cases p <;> first | exact absurd (by decide) hp | simp [Part.same, hq]
    · intro _ hn
      have : s.running = false := hn
      simp_all
  · exact .refl _ s

theorem State.askStatus_keeps (s : State) : Keeps [.frames] s s.askStatus := s.ask_keeps .status

theorem State.askStatusIf_keeps (s : State) (b : Bool) : Keeps [.frames] s (s.askStatusIf b) :=
  s.askStatus_keeps.iteSelf

/-! ## Alarms (R75) -/

theorem alarmEntry_isNone {set : List AlarmEntry} {k : AlarmKey} (h : alarmEntry set k = none) :
    k ∉ set.map AlarmEntry.key := by
  unfold alarmEntry at h
  rw [List.find?_eq_none] at h
  intro hk
  obtain ⟨e, he, rfl⟩ := List.mem_map.1 hk
  exact h e he (by simp)

theorem alarmSet_keys (set : List AlarmEntry) (k : AlarmKey) (st : AlarmState) :
    (alarmSet set k st).map AlarmEntry.key = set.map AlarmEntry.key := by
  unfold alarmSet
  rw [List.map_map]
  apply List.map_congr_left
  intro e _
  simp only [Function.comp]
  split <;> rfl

theorem alarmDrop_distinct {set : List AlarmEntry} (k : AlarmKey) (h : alarmsDistinct set) :
    alarmsDistinct (alarmDrop set k) := by
  unfold alarmsDistinct alarmDrop at *
  exact List.Nodup.sublist (List.Sublist.map _ List.filter_sublist) h

theorem alarm_add_distinct {set : List AlarmEntry} {k : AlarmKey} (st : AlarmState) (hn : alarmEntry set k = none)
    (h : alarmsDistinct set) : alarmsDistinct (set ++ [⟨k, st⟩]) := by
  unfold alarmsDistinct at *
  rw [List.map_append]
  have := alarmEntry_isNone hn
  simp only [List.map_cons, List.map_nil]
  rw [List.nodup_append]
  refine ⟨h, by simp, ?_⟩
  intro a ha b hb
  rw [List.mem_singleton] at hb
  rintro rfl
  exact this (hb ▸ ha)

/-- R75: one condition taken keeps at most one entry for each kind and detail. -/
theorem alarmTake_distinct {set : List AlarmEntry} (k : AlarmKey) (b : Bool) (h : alarmsDistinct set) :
    alarmsDistinct (alarmTake set k b).1 := by
  unfold alarmTake
  split
  · rename_i _ hn
    exact alarm_add_distinct _ (by simpa using hn) h
  · simpa [alarmsDistinct, alarmSet_keys] using h
  · simpa [alarmsDistinct, alarmSet_keys] using h
  · exact alarmDrop_distinct k h
  · exact h

theorem alarmMomentary_distinct {set : List AlarmEntry} (k : AlarmKey) (h : alarmsDistinct set) :
    alarmsDistinct (alarmMomentary set k).1 := by
  unfold alarmMomentary
  split
  · rename_i hn
    exact alarm_add_distinct _ (by simpa using hn) h
  · simpa [alarmsDistinct, alarmSet_keys] using h
  · simpa [alarmsDistinct, alarmSet_keys] using h
  · exact h

theorem alarmSweep_distinct (cond : AlarmKey → Bool) (l : List AlarmKey) {set : List AlarmEntry}
    (h : alarmsDistinct set) : alarmsDistinct (alarmSweep cond l set).1 := by
  induction l generalizing set with
  | nil => exact h
  | cons k l ih => exact ih (alarmTake_distinct k (cond k) h)

theorem alarmAcknowledge_keys (set : List AlarmEntry) :
    ((alarmAcknowledge set).1.map AlarmEntry.key).Sublist (set.map AlarmEntry.key) := by
  induction set with
  | nil => exact List.Sublist.refl _
  | cons e l ih =>
    unfold alarmAcknowledge
    split
    · exact ih.cons_cons e.key
    · exact ih.cons_cons e.key
    · exact ih.cons e.key

/-- The alarm set and the outputs replaced, and events given. -/
theorem State.drive_keeps (s : State) (set : List AlarmEntry) (l : List Event)
    (h : alarmsDistinct s.an.set → alarmsDistinct set) :
    Keeps [.alarms, .reports] s ({ s with an := s.an.drive set }.emitAll l) := by
  have h1 : Keeps [.alarms, .reports] s { s with an := s.an.drive set } := by
    refine ⟨?_, fun k => ⟨k.queue, k.counts, h k.alarms, k.channels⟩, .refl s, id⟩
    intro p hp
    cases p <;> first | exact absurd (by decide) hp | simp [Part.same]
  exact h1.trans ((State.emitAll_keeps _ l).mono (by decide))

/-! ## Watching levels -/

theorem State.watchLeak_keeps (s : State) : Keeps [.leak] s s.watchLeak := by
  refine Keeps.pure ?_ rfl rfl rfl rfl rfl
  intro p hp
  cases p <;> first | exact absurd (by decide) hp | simp [Part.same, State.watchLeak]

/-- R113: what the leak condition reads: the role and the leak band, AN1, and the table. -/
theorem Frame.leakNow {T : List Part} {s t : State} (h : Frame T s t)
    (hT : Part.setup ∉ T ∧ Part.readings ∉ T ∧ Part.roster ∉ T) : t.leakNow = s.leakNow := by
  have h1 : t.sl = s.sl := h .setup hT.1
  have h2 : t.hw.chans = s.hw.chans := h .readings hT.2.1
  have h3 : t.sr = s.sr := h .roster hT.2.2
  simp only [State.leakNow, State.hasRole, State.role, State.pressure, State.bvPressure, h1, h2, h3]

theorem State.watchTimers_keeps (s : State) : Keeps [.timers] s s.watchTimers := by
  refine Keeps.pure ?_ rfl rfl rfl rfl rfl
  intro p hp
  cases p <;> first | exact absurd (by decide) hp | simp [Part.same, State.watchTimers]

theorem State.watchFlags_keeps (s : State) : Keeps [.flags, .frames] s s.watchFlags := by
  refine Keeps.trans (t := { s with pc := { s.pc with ready := s.readyNow, path := s.pathNow, closed := s.closedNow } })
    ?_ ((State.askStatusIf_keeps _ _).mono (by decide))
  refine Keeps.pure ?_ rfl rfl rfl rfl rfl
  intro p hp
  cases p <;> first | exact absurd (by decide) hp | simp [Part.same]

theorem State.watchCause_keeps (s : State) : Keeps [.flags, .frames] s s.watchCause := by
  refine Keeps.trans (t := { s with tu := { s.tu with cause := s.causeFlag } })
    ?_ ((State.askStatusIf_keeps _ _).mono (by decide))
  refine Keeps.pure ?_ rfl rfl rfl rfl rfl
  intro p hp
  cases p <;> first | exact absurd (by decide) hp | simp [Part.same]

/-- Everything an evaluation of some alarms can do. -/
theorem State.sweepAlarms_keeps (s : State) (l : List AlarmKey) : Keeps [.alarms, .reports] s (s.sweepAlarms l) :=
  s.drive_keeps _ _ (alarmSweep_distinct _ _)

theorem State.watchAlarms_keeps (s : State) : Keeps [.alarms, .reports] s s.watchAlarms := s.sweepAlarms_keeps _

/-- Everything `watch` can do. -/
theorem State.watch_keeps (s : State) : Keeps watchParts s s.watch := by
  unfold State.watch
  exact (((s.watchTimers_keeps.mono (by decide)).trans (s.watchTimers.watchFlags_keeps.mono (by decide))).trans
    ((State.watchCause_keeps _).mono (by decide))).trans ((State.watchAlarms_keeps _).mono (by decide))

end Sys2Proof.Machine
end

