-- ==== Sys2Proof/Laws/Movement.lean ====
section
/-! SUPPORT. What the operations of Machine/Movement.lean do: every channel operation keeps the table of R81, and what
each operation of the station leaves alone. -/

namespace Sys2Proof.Machine

/-! ## One channel -/

/-- The table of R81 as a test that can be computed. -/
def Channel.okB (c : Channel) : Bool :=
  ((c.state == .opening) == (c.command == .opened))
    && (c.state != .closing || (c.command == .close && !c.pending))
    && (c.command != .close || c.pending || c.state == .closing)
    && (!c.pending || (c.command == .close && (c.state == .opened || c.state == .stopped || c.state == .fault)))
    && (c.drive != .opened || c.state == .opening) && (c.drive != .close || c.state == .closing)

theorem Channel.ok_iff (c : Channel) : c.Ok ↔ c.okB = true := by
  rcases c with ⟨st, cmd, p, d, dw, tr⟩
  constructor
  · rintro ⟨h1, h2, h3, h4, h5, h6⟩
    revert h1 h2 h3 h4 h5 h6
    cases st <;> cases cmd <;> cases p <;> cases d <;> simp [Channel.okB]
  · intro h
    constructor <;> revert h <;> cases st <;> cases cmd <;> cases p <;> cases d <;> simp [Channel.okB]

/-- The table does not read the timers. -/
def Channel.bare (c : Channel) : ValveState × ValveCommand × Bool × Drive := (c.state, c.command, c.pending, c.drive)

theorem Channel.ok_of_bare {c d : Channel} (h : c.bare = d.bare) (hd : d.Ok) : c.Ok := by
  rw [Channel.ok_iff] at *
  rcases c with ⟨_, _, _, _, _, _⟩
  rcases d with ⟨_, _, _, _, _, _⟩
  simp only [Channel.bare, Prod.mk.injEq] at h
  obtain ⟨rfl, rfl, rfl, rfl⟩ := h
  exact hd

theorem Channel.start_ok : Channel.start.Ok := (Channel.ok_iff _).2 rfl

theorem Channel.arrive_ok {c : Channel} (h : c.Ok) : c.arrive.Ok := by
  rw [Channel.ok_iff] at *
  rcases c with ⟨st, cmd, p, d, dw, tr⟩
  revert h
  cases st <;> cases cmd <;> cases p <;> cases d <;>
    exact fun _ => rfl

theorem Channel.driveOn_ok {c : Channel} (hp : c.pending = false) (hc : c.command ≠ .none) (h : c.Ok) :
    c.driveOn.Ok := by
  rw [Channel.ok_iff] at *
  rcases c with ⟨st, cmd, p, d, dw, tr⟩
  subst hp
  revert h hc
  cases st <;> cases cmd <;> cases d <;>
    first
    | (intro _ _; rfl)
    | (intro h _; exact absurd rfl h)
    | (intro _ h; exact absurd (show false = true from h) Bool.false_ne_true)

/-- A channel with a command goes on to a state of the table. -/
theorem Channel.progress_ok {c : Channel} (os cs : Bool) (h : c.Ok) : (c.progress os cs).Ok := by
  unfold Channel.progress
  split
  · exact Channel.arrive_ok h
  · split
    · rename_i hm
      simp only [Channel.mayDrive, Bool.and_eq_true, bne_iff_ne, ne_eq, Bool.not_eq_true'] at hm
      exact Channel.driveOn_ok hm.1.1.1.2 hm.1.1.1.1 h
    · exact h

/-- A channel told to close, with its drive off or on towards the close end. -/
theorem Channel.toClose_ok {c : Channel} (hs : c.state ≠ .opening) (h : c.Ok) :
    Channel.Ok { c with pending := false, command := .close, state := .closing } := by
  rw [Channel.ok_iff] at *
  rcases c with ⟨st, cmd, p, d, dw, tr⟩
  revert h hs
  cases st <;> cases cmd <;> cases p <;> cases d <;>
    first
    | (intro _ _; rfl)
    | (intro h _; exact absurd rfl h)
    | (intro _ h; exact absurd (show false = true from h) Bool.false_ne_true)

theorem Channel.turn_ok (c : Channel) (cmd : ValveCommand) (st : ValveState)
    (h : (cmd = .opened ∧ st = .opening) ∨ (cmd = .close ∧ st = .closing)) :
    Channel.Ok { c.driveOff with pending := false, command := cmd, state := st } := by
  rw [Channel.ok_iff]
  rcases c with ⟨_, _, _, d, dw, tr⟩
  rcases h with ⟨rfl, rfl⟩ | ⟨rfl, rfl⟩ <;> cases d <;> rfl

theorem Channel.clearPending_ok {c : Channel} (hs : c.state = .shut ∨ c.state = .closing) (h : c.Ok) :
    Channel.Ok { c with pending := false } := by
  have hp : c.pending = false := by
    by_contra hp
    have := (h.pending (by simpa using hp)).2
    rcases hs with hs | hs <;> simp [hs] at this
  rcases c with ⟨st, cmd, p, d, dw, tr⟩
  subst hp
  exact h

theorem Channel.close_ok {c : Channel} (os cs : Bool) (h : c.Ok) : (c.close os cs).Ok := by
  unfold Channel.close
  split
  · exact Channel.clearPending_ok (.inl ‹_›) h
  · exact Channel.clearPending_ok (.inr ‹_›) h
  all_goals apply Channel.progress_ok
  · exact Channel.toClose_ok (by simp [*]) h
  · exact Channel.toClose_ok (by simp [*]) h
  · exact Channel.toClose_ok (by simp [*]) h
  · exact Channel.turn_ok c _ _ (.inr ⟨rfl, rfl⟩)

theorem Channel.toOpen_ok {c : Channel} (hp : c.pending = false) (hs : c.state = .shut ∨ c.state = .stopped)
    (h : c.Ok) : Channel.Ok { c with command := .opened, state := .opening } := by
  rw [Channel.ok_iff] at *
  rcases c with ⟨st, cmd, p, d, dw, tr⟩
  subst hp
  revert h
  rcases hs with rfl | rfl <;> cases cmd <;> cases d <;>
    first
    | (intro _; rfl)
    | (intro h; exact absurd (show false = true from h) Bool.false_ne_true)

theorem Channel.driveOff_pending (c : Channel) : c.driveOff.pending = c.pending := by
  unfold Channel.driveOff
  split <;> rfl

theorem Channel.open'_ok {c : Channel} (os cs : Bool) (h : c.Ok) : (c.open' os cs).Ok := by
  unfold Channel.open'
  split
  · exact h
  · rename_i hp
    have hp : c.pending = false := by simpa using hp
    split
    · exact Channel.progress_ok _ _ (Channel.toOpen_ok hp (.inl ‹_›) h)
    · exact Channel.progress_ok _ _ (Channel.toOpen_ok hp (.inr ‹_›) h)
    · apply Channel.progress_ok
      have := Channel.turn_ok c _ _ (.inl ⟨rfl, rfl⟩)
      rw [← hp, ← Channel.driveOff_pending] at this
      exact this
    all_goals exact h

theorem Channel.release_ok {c : Channel} (os cs : Bool) (h : c.Ok) : (c.release os cs).Ok := by
  unfold Channel.release
  split
  · rename_i hp
    apply Channel.progress_ok
    apply Channel.toClose_ok _ h
    rcases (h.pending hp).2 with hs | hs | hs <;> simp [hs]
  · exact h

theorem Channel.closePending_ok {c : Channel} (h : c.Ok) : c.closePending.Ok := by
  rw [Channel.ok_iff] at *
  rcases c with ⟨st, cmd, p, d, dw, tr⟩
  revert h
  cases st <;> cases cmd <;> cases p <;> cases d <;>
    first
    | (intro _; rfl)
    | (intro h; exact absurd (show false = true from h) Bool.false_ne_true)

theorem Channel.toFault_ok (c : Channel) : c.toFault.Ok := by
  rw [Channel.ok_iff]
  rcases c with ⟨st, cmd, p, d, dw, tr⟩
  cases d <;> rfl

/-- R82: a channel at rest that follows its switches stays in the table. -/
theorem Channel.follow_ok {c : Channel} (os cs : Bool) (hr : c.atRest = true) (h : c.Ok) : (c.follow os cs).Ok := by
  rw [Channel.ok_iff] at *
  rcases c with ⟨st, cmd, p, d, dw, tr⟩
  revert h hr
  cases os <;> cases cs <;> cases st <;> cases cmd <;> cases p <;> cases d <;>
    first
    | (intro _ _; rfl)
    | (intro h _; exact absurd (show false = true from h) Bool.false_ne_true)
    | (intro _ h; exact absurd (show false = true from h) Bool.false_ne_true)

theorem Channel.followUsed_ok {c : Channel} (os cs : Bool) (hr : c.atRest = true) (h : c.Ok) :
    (c.followUsed os cs).Ok := by
  unfold Channel.followUsed
  split
  · split
    · exact h
    · exact Channel.toFault_ok c
  · exact Channel.follow_ok os cs hr h

theorem Channel.afterFault_ok {c : Channel} (old : Channel) (k : HoldOff) (os cs : Bool) (h : c.Ok) :
    (c.afterFault old k os cs).Ok := by
  unfold Channel.afterFault
  split
  · split
    · exact Channel.closePending_ok h
    · exact Channel.close_ok os cs h
    · exact h
  · exact h

theorem Channel.endDwell_ok {c : Channel} (h : c.Ok) : c.endDwell.Ok := Channel.ok_of_bare (by rfl) h

/-- A channel in FAULT is at rest. -/
theorem Channel.atRest_of_fault {c : Channel} (h : c.Ok) (hf : c.state = .fault) : c.atRest = true := by
  rw [Channel.ok_iff] at h
  rcases c with ⟨st, cmd, p, d, dw, tr⟩
  subst hf
  revert h
  cases cmd <;> cases p <;> cases d <;> simp [Channel.okB, Channel.atRest]

theorem Channel.switched_ok {c : Channel} (sw : Switch) (on active : Bool) (k : HoldOff) (os cs : Bool) (h : c.Ok) :
    (c.switched sw on active k os cs).1.Ok := by
  unfold Channel.switched
  split
  · split
    · exact h
    · exact Channel.toFault_ok c
  · split
    · rename_i hf
      split
      · exact h
      · exact Channel.afterFault_ok _ _ _ _ (Channel.follow_ok os cs (Channel.atRest_of_fault h hf) h)
    · split
      · exact Channel.arrive_ok h
      · split
        · exact Channel.toFault_ok c
        · split
          · rename_i hr
            split
            · exact Channel.toFault_ok c
            · exact Channel.follow_ok os cs hr h
          · exact Channel.progress_ok os cs h

/-! ## The four channels -/

@[simp] theorem Quad.get_set_self {α : Type} (q : Quad α) (n : Ch) (x : α) : (q.set n x).get n = x := by
  cases n <;> rfl

theorem Quad.get_set_of_ne {α : Type} (q : Quad α) {m n : Ch} (h : m ≠ n) (x : α) : (q.set n x).get m = q.get m := by
  cases m <;> cases n <;> first | rfl | exact absurd rfl h

@[simp] theorem Quad.get_map {α β : Type} (f : α → β) (q : Quad α) (n : Ch) : (q.map f).get n = f (q.get n) := by
  cases n <;> rfl

@[simp] theorem Quad.get_fill {α : Type} (x : α) (n : Ch) : (Quad.fill x).get n = x := by cases n <;> rfl

/-! ## The station -/

theorem State.movement_keeps (s : State) : Keeps [.pressure] s s.movement := by
  refine Keeps.iteSelf (Keeps.pure ?_ rfl rfl rfl rfl rfl)
  intro p hp
  have h1 : s.hw.openAllowance.chans = s.hw.chans ∧ s.hw.openAllowance.slot = s.hw.slot
      ∧ s.hw.openAllowance.setTimer = s.hw.setTimer ∧ s.hw.openAllowance.surgeThreshold = s.hw.surgeThreshold
      ∧ s.hw.openAllowance.hardLimit = s.hw.hardLimit ∧ s.hw.openAllowance.settleLevel = s.hw.settleLevel
      ∧ s.hw.openAllowance.leakCond = s.hw.leakCond := by
    unfold HoseWatch.openAllowance
    split
    · simp
    · split <;> simp
  cases p <;> first | exact absurd (by decide) hp | simp [Part.same, h1]

theorem State.movementIf_keeps (s : State) (b : Bool) : Keeps [.pressure] s (s.movementIf b) :=
  s.movement_keeps.iteSelf

/-- A channel that takes a record of the table of R81. -/
theorem State.putChannel_keeps (s : State) (n : Ch) (c : Channel) (h : Sound s → c.Ok) :
    Keeps [.channels, .frames, .pressure] s (s.putChannel n c) := by
  have h1 : Keeps [.channels, .frames, .pressure] s
      { s with vp := { s.vp with channels := s.vp.channels.set n c } } := by
    refine ⟨?_, fun k => ⟨k.queue, k.counts, k.alarms, ?_⟩, .refl s, id⟩
    · intro p hp
      cases p <;> first | exact absurd (by decide) hp | simp [Part.same]
    · intro m
      by_cases hm : m = n
      · subst hm
        simpa using h k
      · simpa [Quad.get_set_of_ne _ hm] using k.channels m
  exact (h1.trans ((State.askStatusIf_keeps _ _).mono (by decide))).trans
    ((State.movementIf_keeps _ _).mono (by decide))

theorem State.closeChannel_keeps (s : State) (n : Ch) : Keeps [.channels, .frames, .pressure] s (s.closeChannel n) :=
  s.putChannel_keeps n _ fun h => Channel.close_ok _ _ (h.channels n)

theorem State.openChannel_keeps (s : State) (n : Ch) : Keeps [.channels, .frames, .pressure] s (s.openChannel n) :=
  s.putChannel_keeps n _ fun h => Channel.open'_ok _ _ (h.channels n)

theorem State.pendChannel_keeps (s : State) (n : Ch) : Keeps [.channels, .frames, .pressure] s (s.pendChannel n) :=
  s.putChannel_keeps n _ fun h => Channel.closePending_ok (h.channels n)

theorem State.releaseChannel_keeps (s : State) (n : Ch) :
    Keeps [.channels, .frames, .pressure] s (s.releaseChannel n) :=
  s.putChannel_keeps n _ fun h => Channel.release_ok _ _ (h.channels n)

theorem State.followChannel_keeps (s : State) (n : Ch) :
    Keeps [.channels, .frames, .pressure] s (s.followChannel n) := by
  unfold State.followChannel
  split
  · rename_i hr
    refine s.putChannel_keeps n _ fun h => ?_
    dsimp only
    split
    · exact Channel.afterFault_ok _ _ _ _ (Channel.followUsed_ok _ _ hr (h.channels n))
    · exact Channel.followUsed_ok _ _ hr (h.channels n)
  · exact .refl _ s

theorem State.eachChannel_keeps {T : List Part} {f : State → Ch → State} (h : ∀ s n, Keeps T s (f s n)) (s : State)
    (l : List Ch) : Keeps T s (s.eachChannel f l) := Keeps.foldl h l s

theorem State.followAll_keeps (s : State) : Keeps [.channels, .frames, .pressure] s s.followAll :=
  Keeps.iteSelf (State.eachChannel_keeps State.followChannel_keeps s _)

/-- The parts a close hold-off and its release may touch. -/
def holdOffParts : List Part := [.channels, .frames, .pressure, .reports]

theorem State.putHoldOff_keeps (s : State) (h : HoldOff) (t : Timer) :
    Keeps [.channels] s { s with vp := { s.vp with holdOff := h, holdOffTimer := t } } := by
  refine Keeps.pure ?_ rfl rfl rfl rfl rfl
  intro p hp
  cases p <;> first | exact absurd (by decide) hp | simp [Part.same]

theorem State.releaseAll_keeps (s : State) (r : ReleaseReason) : Keeps holdOffParts s (s.releaseAll r) := by
  unfold State.releaseAll
  refine Keeps.trans (Keeps.trans ((s.putHoldOff_keeps .released .stopped).mono (by decide)) ?_)
    ((State.emit_keeps _ _).mono (by decide))
  exact (State.eachChannel_keeps State.releaseChannel_keeps _ _).mono (by decide)

theorem State.releaseIfStopped_keeps (s : State) : Keeps holdOffParts s s.releaseIfStopped :=
  (s.releaseAll_keeps _).iteSelf

theorem State.leaveHoldOff_keeps (s : State) : Keeps holdOffParts s s.leaveHoldOff := by
  unfold State.leaveHoldOff
  exact (Keeps.iteSelf (s.releaseAll_keeps _)).trans ((State.putHoldOff_keeps _ _ _).mono (by decide))

theorem State.pendAll_keeps (s : State) : Keeps holdOffParts s s.pendAll := by
  unfold State.pendAll
  refine Keeps.trans (Keeps.trans ?_ ((State.putHoldOff_keeps _ _ _).mono (by decide))) (State.releaseIfStopped_keeps _)
  exact (State.eachChannel_keeps State.pendChannel_keeps s _).mono (by decide)

/-! ## The pump -/

/-- The pump record replaced, the channels and the hold-off apart. -/
theorem State.putPump_keeps (s : State) (v : ValvePump)
    (h : v.channels = s.vp.channels ∧ v.holdOff = s.vp.holdOff ∧ v.holdOffTimer = s.vp.holdOffTimer) :
    Keeps [.pump, .frames] s (s.putPump v) := by
  refine Keeps.trans (t := { s with vp := v }) (Keeps.pure ?_ rfl rfl rfl h.1 rfl)
    ((State.askStatusIf_keeps _ _).mono (by decide))
  intro p hp
  cases p <;> first | exact absurd (by decide) hp | simp [Part.same, h]

theorem State.startPump_keeps (s : State) : Keeps [.pump, .frames, .pressure] s s.startPump := by
  refine ((s.putPump_keeps _ ?_).mono (by decide)).trans ((State.movementIf_keeps _ _).mono (by decide))
  unfold ValvePump.startPump
  split <;> simp

theorem State.stopPump_keeps (s : State) : Keeps [.pump, .frames, .pressure] s s.stopPump := by
  refine ((s.putPump_keeps _ ?_).mono (by decide)).trans ((State.movementIf_keeps _ _).mono (by decide))
  unfold ValvePump.stopPump
  split <;> simp

theorem State.setRateLow_keeps (s : State) (b : Bool) : Keeps [.pump] s (s.setRateLow b) := by
  refine Keeps.pure ?_ rfl rfl rfl rfl rfl
  intro p hp
  cases p <;> first | exact absurd (by decide) hp | simp [Part.same, State.setRateLow]

end Sys2Proof.Machine
end

