-- ==== Sys2Proof/Laws/Record.lean ====
section
/-! SUPPORT. What the operations of Machine/Record.lean leave alone. -/

namespace Sys2Proof.Machine

/-! ## The record and the meter -/

theorem State.mapRecord_keeps (s : State) (f : Record → Record) : Keeps [.record] s (s.mapRecord f) := by
  refine Keeps.pure ?_ rfl rfl rfl rfl rfl
  intro p hp
  cases p <;> first | exact absurd (by decide) hp | simp [Part.same, State.mapRecord]

/-- The meter and the record replaced, residual and stray count apart. -/
theorem State.putMeter_keeps (s : State) (m : MeterRecord) (h : m.residual = s.mr.residual ∧ m.stray = s.mr.stray) :
    Keeps [.meter, .record] s { s with mr := m } := by
  refine Keeps.pure ?_ rfl rfl rfl rfl rfl
  intro p hp
  cases p <;> first | exact absurd (by decide) hp | simp [Part.same, h]

/-- The parts the record's operations may touch. -/
def recordParts : List Part := [.record, .meter, .reports]

theorem State.openRecord_keeps (s : State) (n r : Nat) : Keeps recordParts s (s.openRecord n r) := by
  unfold State.openRecord
  refine Keeps.trans ?_ ((State.emit_keeps _ _).mono (by decide))
  exact (s.putMeter_keeps _ (by exact ⟨rfl, rfl⟩)).mono (by decide)

theorem State.clearRecord_keeps (s : State) : Keeps recordParts s s.clearRecord := by
  unfold State.clearRecord
  refine Keeps.trans ?_ ((State.emit_keeps _ _).mono (by decide))
  exact (s.putMeter_keeps _ (by exact ⟨rfl, rfl⟩)).mono (by decide)

theorem State.handEndKind_keeps (s : State) (k : EndKind) : Keeps [.record, .reports] s (s.handEndKind k) :=
  Keeps.iteSelf (((s.mapRecord_keeps _).mono (by decide)).trans ((State.emit_keeps _ _).mono (by decide)))

theorem State.markTrip_keeps (s : State) : Keeps [.record] s s.markTrip := (s.mapRecord_keeps _).iteSelf

theorem State.startCounting_keeps (s : State) : Keeps [.record] s s.startCounting := (s.mapRecord_keeps _).iteSelf

theorem State.sample_keeps (s : State) (k : SampleKind) : Keeps [.record, .reports] s (s.sample k) :=
  ((s.mapRecord_keeps _).mono (by decide)).trans ((State.emit_keeps _ _).mono (by decide))

theorem State.forceSample_keeps (s : State) : Keeps [.record, .reports] s s.forceSample := (s.sample_keeps _).iteSelf

theorem State.judgeInternalEnd_keeps (s : State) : Keeps [.record, .reports] s s.judgeInternalEnd :=
  Keeps.iteSelf (((s.mapRecord_keeps _).mono (by decide)).trans ((State.emit_keeps _ _).mono (by decide)))

theorem State.judgeSample_keeps (s : State) : Keeps [.record, .reports] s s.judgeSample := (s.sample_keeps _).iteSelf

theorem State.judgeEnds_keeps (s : State) : Keeps [.record, .reports] s s.judgeEnds :=
  s.judgeInternalEnd_keeps.trans s.judgeInternalEnd.judgeSample_keeps

theorem State.takeReceived_keeps (s : State) : Keeps [.record] s s.takeReceived := (s.mapRecord_keeps _).iteSelf

/-! ## The tanks -/

theorem State.putTanks_keeps (s : State) (o : OverflowWatch) : Keeps [.tanks] s { s with ow := o } := by
  refine Keeps.pure ?_ rfl rfl rfl rfl rfl
  intro p hp
  cases p <;> first | exact absurd (by decide) hp | simp [Part.same]

theorem State.putTank_keeps (s : State) (n : Ch) (t : Tank) : Keeps [.tanks] s (s.putTank n t) := s.putTanks_keeps _

/-- The parts a change of a tank, of the receipt state or of the claim may touch. -/
def tankParts : List Part := [.tanks, .frames, .reports]

theorem State.setTank_keeps (s : State) (n : Ch) (st : TankState) : Keeps tankParts s (s.setTank n st) := by
  unfold State.setTank
  split
  · exact .refl _ s
  · exact (((s.putTank_keeps _ _).mono (by decide)).trans ((State.askStatus_keeps _).mono (by decide))).trans
      ((State.emit_keeps _ _).mono (by decide))

theorem State.setReceipt_keeps (s : State) (r : ReceiptState) : Keeps tankParts s (s.setReceipt r) := by
  unfold State.setReceipt
  split
  · exact .refl _ s
  · exact (((s.putTanks_keeps _).mono (by decide)).trans ((State.askStatus_keeps _).mono (by decide))).trans
      ((State.emit_keeps _ _).mono (by decide))

theorem State.setClaim_keeps (s : State) (c : Claim) (n : Ch) (e : ClaimEvent) : Keeps tankParts s (s.setClaim c n e) :=
  (((s.putTanks_keeps _).mono (by decide)).trans ((State.askStatus_keeps _).mono (by decide))).trans
    ((State.emit_keeps _ _).mono (by decide))

theorem State.startClaim_keeps (s : State) (n : Ch) : Keeps tankParts s (s.startClaim n) := s.setClaim_keeps _ _ _

theorem State.endClaim_keeps (s : State) : Keeps tankParts s s.endClaim := by
  unfold State.endClaim
  split
  · exact s.setClaim_keeps _ _ _
  · exact .refl _ s

theorem State.takeOwnReceived_keeps (s : State) : Keeps [.tanks] s s.takeOwnReceived := by
  unfold State.takeOwnReceived
  split
  · exact .refl _ s
  · exact s.putTanks_keeps _

theorem State.takeOverfill_keeps (s : State) (n : Ch) : Keeps [.tanks] s (s.takeOverfill n) := s.putTank_keeps _ _

theorem State.settle_keeps (s : State) : Keeps tankParts s s.settle :=
  Keeps.iteSelf (((s.putTanks_keeps _).mono (by decide)).trans (State.setReceipt_keeps _ _))

/-- The parts an end of the record may touch. -/
def endParts : List Part := [.record, .tanks, .frames, .reports]

theorem State.setExternalEnd_keeps (s : State) : Keeps endParts s s.setExternalEnd := by
  refine Keeps.iteSelf ?_
  exact ((((s.mapRecord_keeps _).mono (by decide)).trans ((State.emit_keeps _ _).mono (by decide))).trans
    ((State.settle_keeps _).mono (by decide))).trans ((State.judgeEnds_keeps _).mono (by decide))

theorem State.judgeAllFull_keeps (s : State) : Keeps tankParts s s.judgeAllFull := (s.setReceipt_keeps _).iteSelf

theorem State.excludeTank_keeps (s : State) (n : Ch) : Keeps tankParts s (s.excludeTank n) :=
  (s.setTank_keeps _ _).trans ((State.putTank_keeps _ _ _).mono (by decide))

theorem State.excludeTanks_keeps (s : State) : Keeps tankParts s s.excludeTanks :=
  (((Keeps.foldl State.excludeTank_keeps _ s).trans (State.endClaim_keeps _)).trans (State.setReceipt_keeps _ _)).trans
    ((State.putTanks_keeps _ _).mono (by decide))

theorem State.beginTank_keeps (s : State) (n : Ch) : Keeps tankParts s (s.beginTank n) := by
  unfold State.beginTank
  split
  · exact (s.setTank_keeps _ _).trans ((State.putTank_keeps _ _ _).mono (by decide))
  · exact .refl _ s

theorem State.beginReceipt_keeps (s : State) : Keeps tankParts s s.beginReceipt :=
  ((Keeps.foldl State.beginTank_keeps _ s).trans (State.setReceipt_keeps _ _)).trans
    ((State.putTanks_keeps _ _).mono (by decide))

/-! ## The claim retry -/

/-- A retry is for a HELD tank of a RUNNING TW in an active phase with an open route and no claim waiting (R130). -/
theorem State.retryTank_some {s : State} {n : Ch} (h : s.retryTank = some n) :
    s.runningTw = true ∧ s.pc.phase.active = true ∧ s.ow.claim.waiting = false ∧ s.peerRoute = true
      ∧ s.heldTank = some n := by
  unfold State.retryTank at h
  split at h
  · simp_all
  · simp at h

/-! ## The meter -/

theorem MeterRecord.changePhase_kept (m : MeterRecord) (old new : Phase) :
    (m.changePhase old new).residual = m.residual ∧ (m.changePhase old new).stray = m.stray
      ∧ (m.changePhase old new).record = m.record := ⟨rfl, rfl, rfl⟩

theorem MeterRecord.judgeCap_kept (m : MeterRecord) (p : Phase) (rate : Nat) :
    (m.judgeCap p rate).residual = m.residual ∧ (m.judgeCap p rate).stray = m.stray
      ∧ (m.judgeCap p rate).record = m.record := by
  unfold MeterRecord.judgeCap
  repeat' split
  all_goals exact ⟨rfl, rfl, rfl⟩

theorem MeterRecord.completeWindow_kept (m : MeterRecord) (p : Phase) :
    (m.completeWindow p).residual = m.residual ∧ (m.completeWindow p).stray = m.stray
      ∧ (m.completeWindow p).record = m.record := by
  unfold MeterRecord.completeWindow
  split <;> exact MeterRecord.judgeCap_kept _ _ _

end Sys2Proof.Machine
end

