-- ==== Sys2Proof/Laws/Trips.lean ====
section
/-! SUPPORT. What a phase change and a trip do: the phase they leave, the causes they latch, and what they leave alone. -/

namespace Sys2Proof.Machine

/-! ## Changing the phase -/

/-- The parts that leaving a phase and the entry actions of the next may touch. -/
def entryParts : List Part := [.channels, .pump, .pressure, .tanks, .meter, .record, .frames, .reports]

/-- The parts a phase change may touch. -/
def phaseParts : List Part := [.phase, .channels, .pump, .pressure, .tanks, .meter, .record, .frames, .reports]

theorem State.putPhase_keeps (s : State) (p : Phase) (h : Option StepInHand) (o : Option Order) :
    Keeps [.phase] s { s with pc := { s.pc with phase := p, inHand := h, order := o } } := by
  refine Keeps.pure ?_ rfl rfl rfl rfl rfl
  intro p hp
  cases p <;> first | exact absurd (by decide) hp | simp [Part.same]

theorem State.setPhase_keeps (s : State) (p : Phase) : Keeps [.phase] s (s.setPhase p) := s.putPhase_keeps _ _ _

theorem State.leavePhase_keeps (s : State) (old : Phase) : Keeps entryParts s (s.leavePhase old) := by
  have h : Keeps entryParts s { s with mr := s.mr.changePhase old s.pc.phase } :=
    (s.putMeter_keeps _ (by exact ⟨rfl, rfl⟩)).mono (by decide)
  have h2 := h.trans (Keeps.iteSelf (c := old = .tripped ∧ s.pc.phase ≠ .tripped)
    ((State.leaveHoldOff_keeps _).mono (by decide)))
  unfold State.leavePhase
  dsimp only
  split
  · exact h2
  · exact h2.trans ((State.endClaim_keeps _).mono (by decide))

theorem State.openTanks_keeps (s : State) : Keeps entryParts s s.openTanks :=
  (s.beginReceipt_keeps.mono (by decide)).trans
    ((State.eachChannel_keeps State.openChannel_keeps _ _).mono (by decide))

theorem State.enterStarting_keeps (s : State) : Keeps entryParts s s.enterStarting :=
  ((s.putMeter_keeps _ (by exact ⟨rfl, rfl⟩)).mono (by decide)).trans ((State.startPump_keeps _).mono (by decide))

theorem State.enterStopping_keeps (s : State) : Keeps entryParts s s.enterStopping :=
  Keeps.ite ((s.stopPump_keeps.mono (by decide)).trans ((State.setExternalEnd_keeps _).mono (by decide)))
    (s.stopPump_keeps.mono (by decide))

theorem State.tripField_keeps (s : State) : Keeps entryParts s s.tripField :=
  Keeps.ite (s.stopPump_keeps.mono (by decide)) (Keeps.iteSelf (s.pendAll_keeps.mono (by decide)))

theorem State.tripRecord_keeps (s : State) (old : Phase) : Keeps entryParts s (s.tripRecord old) :=
  Keeps.ite ((s.markTrip_keeps.mono (by decide)).trans ((State.handEndKind_keeps _ _).mono (by decide)))
    (s.markTrip_keeps.mono (by decide))

theorem State.tripExternal_keeps (s : State) : Keeps entryParts s s.tripExternal :=
  Keeps.iteSelf (s.setExternalEnd_keeps.mono (by decide))

theorem State.entryActions_keeps (s : State) (old : Phase) (n r : Nat) :
    Keeps entryParts s (s.entryActions old n r) := by
  unfold State.entryActions
  split
  · exact Keeps.ite ((s.clearRecord_keeps.mono (by decide)).trans ((State.excludeTanks_keeps _).mono (by decide)))
      (s.clearRecord_keeps.mono (by decide))
  · exact (s.openRecord_keeps n r).mono (by decide)
  · exact Keeps.ite (s.startCounting_keeps.mono (by decide)) (Keeps.iteSelf s.openTanks_keeps)
  · exact Keeps.iteSelf s.enterStarting_keeps
  · exact Keeps.iteSelf ((s.setRateLow_keeps _).mono (by decide))
  · exact Keeps.iteSelf ((s.setRateLow_keeps _).mono (by decide))
  · exact Keeps.iteSelf (s.stopPump_keeps.mono (by decide))
  · exact Keeps.iteSelf s.enterStopping_keeps
  · have h : Keeps entryParts s (if old = .opening then s.setExternalEnd else s) :=
      Keeps.iteSelf (s.setExternalEnd_keeps.mono (by decide))
    exact h.trans (Keeps.iteSelf ((State.closeChannel_keeps _ _).mono (by decide)))
  · exact s.forceSample_keeps.mono (by decide)
  · exact (s.tripField_keeps.trans (State.tripRecord_keeps _ _)).trans (State.tripExternal_keeps _)

theorem State.changePhase_keeps (s : State) (p : Phase) (n r : Nat) : Keeps phaseParts s (s.changePhase p n r) :=
  (((((s.setPhase_keeps p).mono (by decide)).trans ((State.leavePhase_keeps _ _).mono (by decide))).trans
    ((State.entryActions_keeps _ _ _ _).mono (by decide))).trans ((State.askStatus_keeps _).mono (by decide))).trans
    ((State.emit_keeps _ _).mono (by decide))

/-- R4, R18: the phase, the standing order and the step in hand after a phase change. -/
theorem State.changePhase_phase (s : State) (p : Phase) (n r : Nat) :
    (s.changePhase p n r).pc.phase = p ∧ (s.changePhase p n r).pc.order = orderOf p s.role
      ∧ (s.changePhase p n r).pc.inHand
          = if s.hasRole .pu then some ⟨p, s.pc.gen, .fromZero⟩ else s.pc.inHand := by
  have h : Keeps entryParts (s.setPhase p) (s.changePhase p n r) :=
    (((State.leavePhase_keeps _ _).trans (State.entryActions_keeps _ _ _ _)).trans
      ((State.askStatus_keeps _).mono (by decide))).trans ((State.emit_keeps _ _).mono (by decide))
  obtain ⟨h1, h2, h3⟩ := h.part .phase (by decide)
  exact ⟨h1, h3, h2⟩

/-! ## The trip record -/

/-- The parts the Trip Unit's own record and what announces it may touch. -/
def latchParts : List Part := [.tripRecord, .frames, .reports]

/-- The trip record replaced, the set and the first-out. -/
theorem State.putTrip_keeps (s : State) (f : Option FirstOut) (l : List Latched) :
    Keeps [.tripRecord] s { s with tu := { s.tu with firstOut := f, latched := l } } := by
  refine Keeps.pure ?_ rfl rfl rfl rfl rfl
  intro p hp
  cases p <;> first | exact absurd (by decide) hp | simp [Part.same]

theorem State.addCause_keeps (s : State) (c : Cause) (d : Option Nat) : Keeps latchParts s (s.addCause c d) :=
  ((s.putTrip_keeps _ _).mono (by decide)).trans ((State.askStatusIf_keeps _ _).mono (by decide))

theorem State.announce_keeps (s : State) (c : Cause) (d : Option Nat) (b f : Bool) :
    Keeps [.frames, .reports] s (s.announce c d b f) :=
  Keeps.ite (((s.ask_keeps _).mono (by decide)).trans ((State.emit_keeps _ _).mono (by decide)))
    ((s.emit_keeps _).mono (by decide))

theorem State.enterTripped_keeps (s : State) : Keeps phaseParts s s.enterTripped := by
  unfold State.enterTripped
  split
  · exact .refl _ s
  · exact s.changePhase_keeps _ _ _

theorem State.enterTripped_phase (s : State) : s.enterTripped.pc.phase = .tripped := by
  unfold State.enterTripped
  split
  · assumption
  · exact (s.changePhase_phase _ _ _).1

theorem State.confirm_keeps (s : State) : Keeps [.phase] s s.confirm :=
  Keeps.iteSelf (s.putPhase_keeps _ _ _)

theorem State.confirm_phase (s : State) : s.confirm.pc.phase = s.pc.phase ∧ s.confirm.pc.order = s.pc.order := by
  unfold State.confirm
  split <;> simp

theorem State.joinSeparation_keeps (s : State) : Keeps latchParts s s.joinSeparation := by
  unfold State.joinSeparation
  split
  · exact .refl _ s
  · exact (s.addCause_keeps _ _).trans ((State.announce_keeps _ _ _ _ _).mono (by decide))

/-- The parts that may change once TRIPPED is entered, the phase itself apart. -/
def afterParts : List Part := [.phase, .channels, .pressure, .tripRecord, .frames, .reports]

theorem State.afterTrip_keeps (s : State) : Keeps afterParts s s.afterTrip := by
  have h : Keeps afterParts s s.followAll := s.followAll_keeps.mono (by decide)
  unfold State.afterTrip
  refine Keeps.trans ?_ ((State.confirm_keeps _).mono (by decide))
  exact h.trans (Keeps.iteSelf (((State.closeChannel_keeps _ _).mono (by decide)).trans
    ((State.joinSeparation_keeps _).mono (by decide))))

theorem State.afterTrip_phase (s : State) : s.afterTrip.pc.phase = s.pc.phase := by
  unfold State.afterTrip
  rw [(State.confirm_phase _).1]
  have h := (s.followAll_keeps.part .phase (by decide)).1
  split
  · rw [((State.joinSeparation_keeps _).part .phase (by decide)).1,
      ((State.closeChannel_keeps _ _).part .phase (by decide)).1, h]
  · exact h

/-- Everything a latch can do. -/
theorem State.latch_keeps (s : State) (c : Cause) (d : Option Nat) : Keeps cascadeParts s (s.latch c d) := by
  unfold State.latch
  split
  · exact .refl _ s
  · refine Keeps.trans ?_ ((State.watch_keeps _).mono (by decide))
    have h : Keeps cascadeParts s (((s.addCause c d).enterTripped).announce c d s.tu.latched.isEmpty
        s.tu.firstOut.isNone) :=
      (((s.addCause_keeps _ _).mono (by decide)).trans ((State.enterTripped_keeps _).mono (by decide))).trans
        ((State.announce_keeps _ _ _ _ _).mono (by decide))
    split
    · exact h
    · exact h.trans ((State.afterTrip_keeps _).mono (by decide))

/-- The first-out stays as it is, and the set only grows, at its end. -/
def TripGrows (f : FirstOut) (s t : State) : Prop := t.tu.firstOut = some f ∧ s.tu.latched <+: t.tu.latched

theorem State.addCause_trip (s : State) (c : Cause) (d : Option Nat) :
    (s.addCause c d).tu.latched = s.tu.latched ++ [⟨c, d⟩]
      ∧ (s.addCause c d).tu.firstOut = some (s.tu.firstOut.getD ⟨some c, .localOrigin, s.number, d⟩) := by
  obtain ⟨h1, h2, -⟩ := (State.askStatusIf_keeps ({ s with tu := { s.tu with
      latched := s.tu.latched ++ [Latched.mk c d]
      firstOut := some (s.tu.firstOut.getD (FirstOut.mk (some c) .localOrigin s.number d)) } })
    s.tu.firstOut.isNone).part .tripRecord (by decide)
  exact ⟨h2, h1⟩

theorem State.joinSeparation_grows {s : State} {f : FirstOut} (h : s.tu.firstOut = some f) :
    TripGrows f s s.joinSeparation := by
  unfold State.joinSeparation
  split
  · exact ⟨h, List.prefix_rfl⟩
  · obtain ⟨h1, h2, -⟩ := (State.announce_keeps (s.addCause .separation none) .separation none s.tu.latched.isEmpty
      s.tu.firstOut.isNone).part .tripRecord (by decide)
    obtain ⟨k1, k2⟩ := s.addCause_trip .separation none
    exact ⟨by rw [h1, k2, h]; rfl, by rw [h2, k1]; exact List.prefix_append _ _⟩

theorem TripGrows.of_same {f : FirstOut} {s t : State} (h : s.tu.firstOut = some f) (k : Part.same s t .tripRecord) :
    TripGrows f s t := ⟨k.1.trans h, by rw [k.2.1]⟩

theorem TripGrows.trans {f : FirstOut} {s t u : State} (h : TripGrows f s t) (k : TripGrows f t u) : TripGrows f s u :=
  ⟨k.1, h.2.trans k.2⟩

theorem State.afterTrip_grows {s : State} {f : FirstOut} (h : s.tu.firstOut = some f) :
    TripGrows f s s.afterTrip := by
  have h1 : TripGrows f s s.followAll := .of_same h (s.followAll_keeps.part .tripRecord (by decide))
  have h2 : TripGrows f s (if s.followAll.valveRole && s.followAll.inputs.sep then
      (s.followAll.closeChannel .n1).joinSeparation else s.followAll) := by
    split
    · have h3 := h1.trans (.of_same h1.1 ((s.followAll.closeChannel_keeps .n1).part .tripRecord (by decide)))
      exact h3.trans (State.joinSeparation_grows h3.1)
    · exact h1
  exact h2.trans (.of_same h2.1 ((State.confirm_keeps _).part .tripRecord (by decide)))

/-- R65: what a latch of a new cause leaves: TRIPPED, the cause behind those the set held, and the first-out, which is
this cause where none was held. -/
theorem State.latch_new {s : State} {c : Cause} (d : Option Nat) (h : s.hasLatched c = false) :
    (s.latch c d).pc.phase = .tripped
      ∧ (s.tu.latched ++ [⟨c, d⟩]) <+: (s.latch c d).tu.latched
      ∧ (s.latch c d).tu.firstOut = some (s.tu.firstOut.getD ⟨some c, .localOrigin, s.number, d⟩) := by
  obtain ⟨k1, k2⟩ := s.addCause_trip c d
  have e := ((s.addCause c d).enterTripped_keeps).part .tripRecord (by decide)
  have p := ((State.announce_keeps (s.addCause c d).enterTripped c d s.tu.latched.isEmpty
      s.tu.firstOut.isNone).part .phase (by decide)).1
  have a := (State.announce_keeps (s.addCause c d).enterTripped c d s.tu.latched.isEmpty
      s.tu.firstOut.isNone).part .tripRecord (by decide)
  have g : TripGrows (s.tu.firstOut.getD ⟨some c, .localOrigin, s.number, d⟩) (s.addCause c d)
      (((s.addCause c d).enterTripped).announce c d s.tu.latched.isEmpty s.tu.firstOut.isNone) :=
    .of_same k2 (Part.same_trans e a)
  rw [State.enterTripped_phase] at p
  unfold State.latch
  rw [if_neg (by simp [h])]
  have w := fun t : State => (State.watch_keeps t).part .tripRecord (by decide)
  have v := fun t : State => ((State.watch_keeps t).part .phase (by decide)).1
  refine ⟨?_, ?_, ?_⟩
  · rw [v]
    split
    · exact p
    · rw [State.afterTrip_phase]
      exact p
  · rw [(w _).2.1, ← k1]
    split
    · exact g.2
    · exact (g.trans (State.afterTrip_grows g.1)).2
  · rw [(w _).1]
    split
    · exact g.1
    · exact (g.trans (State.afterTrip_grows g.1)).1

/-- The first part of honouring a remote trip: the first-out, the TRIPPED entry, the event. -/
theorem State.honourEntry_keeps (s : State) (f : Option FirstOut) (b : Bool) (e : Event) :
    Keeps cascadeParts s
      (((({ s with tu := { s.tu with firstOut := f } }).askStatusIf b).enterTripped).emit e) :=
  ((((s.putTrip_keeps f s.tu.latched).mono (by decide)).trans ((State.askStatusIf_keeps _ _).mono (by decide))).trans
    ((State.enterTripped_keeps _).mono (by decide))).trans ((State.emit_keeps _ _).mono (by decide))

theorem State.emit_phase (s : State) (e : Event) : (s.emit e).pc = s.pc := rfl

/-- Everything the honouring of a remote trip can do. -/
theorem State.honour_keeps (s : State) (n : Nat) (c : Option Cause) (o : Nat) :
    Keeps cascadeParts s (s.honour n c o) := by
  unfold State.honour
  split
  · exact .refl _ s
  · refine Keeps.trans ?_ ((State.watch_keeps _).mono (by decide))
    dsimp only
    split
    · exact s.honourEntry_keeps _ _ _
    · exact (s.honourEntry_keeps _ _ _).trans ((State.afterTrip_keeps _).mono (by decide))

/-- R69: a remote trip honoured leaves TRIPPED. -/
theorem State.honour_phase (s : State) (n : Nat) (c : Option Cause) (o : Nat) :
    (s.honour n c o).pc.phase = .tripped := by
  unfold State.honour
  split
  · simp_all
  · rw [((State.watch_keeps _).part .phase (by decide)).1]
    dsimp only
    split
    · rw [State.emit_phase, State.enterTripped_phase]
    · rw [State.afterTrip_phase, State.emit_phase, State.enterTripped_phase]

/-- The parts the clearing of the trip record may touch. -/
def clearParts : List Part := [.tripRecord, .flags, .frames, .reports]

theorem LinkController.withdraw_attempt (l : LinkController) (k : FrameKind) (h : l.attempt = none) :
    (l.withdraw k).attempt = none := by
  unfold LinkController.withdraw
  simp [h]

theorem State.withdraw_keeps (s : State) (k : FrameKind) : Keeps [.frames] s { s with lc := s.lc.withdraw k } := by
  refine ⟨?_, fun h => ⟨h.queue, LinkController.withdraw_counts _ _ h.counts, h.alarms, h.channels⟩, .refl s, ?_⟩
  · intro p hp
    cases p <;> first | exact absurd (by decide) hp | simp [Part.same, LinkController.withdraw]
  · intro h hr
    obtain ⟨h1, h2, h3, h4, h5⟩ := h hr
    cases k <;> simp [LinkController.withdraw, LinkController.setPlace, *]

theorem State.clearTripRecord_keeps (s : State) : Keeps clearParts s s.clearTripRecord := by
  unfold State.clearTripRecord
  refine Keeps.trans (Keeps.trans ?_ ((State.askStatusIf_keeps _ _).mono (by decide)))
    ((State.emit_keeps _ _).mono (by decide))
  refine Keeps.trans (t := { s with lc := s.lc.withdraw .trip }) ((s.withdraw_keeps _).mono (by decide))
    (Keeps.pure ?_ rfl rfl rfl rfl rfl)
  intro p hp
  cases p <;> first | exact absurd (by decide) hp | simp [Part.same]

/-- R71: the trip record after it is cleared. -/
theorem State.clearTripRecord_cleared (s : State) :
    s.clearTripRecord.tu.firstOut = none ∧ s.clearTripRecord.tu.latched = [] ∧ s.clearTripRecord.tu.cause = false := by
  unfold State.clearTripRecord
  have h := ((State.emit_keeps (State.askStatusIf ({ s with
      tu := { s.tu with firstOut := none, latched := [], cause := false, named := .fill false }
      lc := s.lc.withdraw .trip }) (s.tu.firstOut.isSome || s.tu.cause)) .tripCleared))
  have k := State.askStatusIf_keeps ({ s with
      tu := { s.tu with firstOut := none, latched := [], cause := false, named := .fill false }
      lc := s.lc.withdraw .trip }) (s.tu.firstOut.isSome || s.tu.cause)
  have h1 := Part.same_trans (k.part .tripRecord (by decide)) (h.part .tripRecord (by decide))
  have h2 := Part.same_trans (k.part .flags (by decide)) (h.part .flags (by decide))
  exact ⟨h1.1, h1.2.1, h2.2.2.2⟩

/-! ## Handing a cause -/

theorem State.momentary_keeps (s : State) (k : AlarmKey) : Keeps [.alarms, .reports] s (s.momentary k) :=
  s.drive_keeps _ _ (alarmMomentary_distinct k)

theorem State.alarmInstead_keeps (s : State) (c : Cause) : Keeps watchParts s (s.alarmInstead c) := by
  unfold State.alarmInstead
  split
  · refine Keeps.trans ?_ (State.watch_keeps _)
    refine Keeps.pure ?_ rfl rfl rfl rfl rfl
    intro p hp
    cases p <;> first | exact absurd (by decide) hp | simp [Part.same]
  · refine Keeps.trans ?_ (State.watch_keeps _)
    refine Keeps.pure ?_ rfl rfl rfl rfl rfl
    intro p hp
    cases p <;> first | exact absurd (by decide) hp | simp [Part.same]
  · exact (s.momentary_keeps _).mono (by decide)
  · exact .refl _ s

/-- Everything the handing of a cause can do. -/
theorem State.hand_keeps (s : State) (c : Cause) (d : Option Nat) (b : Bool) : Keeps cascadeParts s (s.hand c d b) := by
  unfold State.hand
  split
  · split
    · exact s.latch_keeps c d
    · exact (s.alarmInstead_keeps c).mono (by decide)
  · exact .refl _ s

theorem State.handCause_keeps (s : State) (c : Cause) (d : Option Nat) : Keeps cascadeParts s (s.handCause c d) :=
  s.hand_keeps _ _ _

theorem State.handPump_keeps (s : State) (r : PumpReason) : Keeps cascadeParts s (s.handPump r) := s.hand_keeps _ _ _

theorem State.handSeparation_keeps (s : State) : Keeps cascadeParts s s.handSeparation :=
  ((s.closeChannel_keeps _).mono (by decide)).trans (State.handCause_keeps _ _ _)

/-- R63, R65: an enabled cause handed in a phase in which it latches leaves the station TRIPPED with the cause latched. -/
theorem State.hand_latches {s : State} {c : Cause} (d : Option Nat) (hr : s.running = true)
    (he : s.tu.mask.enables c = true) (hn : s.hasLatched c = false) :
    (s.hand c d true).pc.phase = .tripped ∧ (s.tu.latched ++ [⟨c, d⟩]) <+: (s.hand c d true).tu.latched
      ∧ (s.hand c d true).tu.firstOut = some (s.tu.firstOut.getD ⟨some c, .localOrigin, s.number, d⟩) := by
  unfold State.hand
  simp only [hr, he, Bool.and_self, if_true]
  exact State.latch_new d hn

/-- R66: a latch takes nothing out of the set. -/
theorem State.latch_prefix (s : State) (c : Cause) (d : Option Nat) : s.tu.latched <+: (s.latch c d).tu.latched := by
  cases h : s.hasLatched c
  · exact (List.prefix_append _ _).trans (State.latch_new d h).2.1
  · simp [State.latch, h]

/-- R61, R63: no handing takes anything out of the set. -/
theorem State.hand_prefix (s : State) (c : Cause) (d : Option Nat) (b : Bool) :
    s.tu.latched <+: (s.hand c d b).tu.latched := by
  unfold State.hand
  split
  · split
    · exact s.latch_prefix c d
    · rw [((s.alarmInstead_keeps c).part .tripRecord (by decide)).2.1]
  · exact List.prefix_rfl

theorem State.handCause_prefix (s : State) (c : Cause) (d : Option Nat) :
    s.tu.latched <+: (s.handCause c d).tu.latched := s.hand_prefix _ _ _

theorem State.handSeparation_prefix (s : State) : s.tu.latched <+: s.handSeparation.tu.latched := by
  have h := ((s.closeChannel_keeps .n1).part .tripRecord (by decide)).2.1
  exact h ▸ (s.closeChannel .n1).handCause_prefix .separation none

/-- A cause in the set stays in a set that has only grown. -/
theorem State.hasLatched_mono {s t : State} {c : Cause} (h : s.tu.latched <+: t.tu.latched)
    (hc : s.hasLatched c = true) : t.hasLatched c = true := by
  obtain ⟨x, hx, k⟩ := List.any_eq_true.1 hc
  exact List.any_eq_true.2 ⟨x, h.subset hx, k⟩

/-- R63, R65, R66: an enabled cause handed where it latches is in the set afterwards. -/
theorem State.hand_hasLatched {s : State} {c : Cause} (d : Option Nat) (hr : s.running = true)
    (he : s.tu.mask.enables c = true) : (s.hand c d true).hasLatched c = true := by
  cases h : s.hasLatched c
  · exact List.any_eq_true.2 ⟨⟨c, d⟩, (State.hand_latches d hr he h).2.1.subset (by simp), by simp⟩
  · exact State.hasLatched_mono (s.hand_prefix c d true) h

/-- A cause handed where it does not latch changes nothing. -/
theorem State.hand_unlisted (s : State) (c : Cause) (d : Option Nat) : s.hand c d false = s := by
  simp [State.hand]

end Sys2Proof.Machine
end

