-- ==== Sys2Proof/Laws/Steps.lean ====
section
/-! SUPPORT. What the operations of Machine/Steps.lean leave alone, the phases they leave, that the causes
handed at a phase entry latch, and the leak condition after a roster change. -/

namespace Sys2Proof.Machine

/-! ## After a phase change -/

theorem State.putHose_keeps (s : State) (slot : Option Ch) (t : Timer) :
    Keeps [.scan] s { s with hw := { s.hw with slot := slot, setTimer := t } } := by
  refine Keeps.pure ?_ rfl rfl rfl rfl rfl
  intro p hp
  cases p <;> first | exact absurd (by decide) hp | simp [Part.same]

theorem State.startSet_keeps (s : State) : Keeps [.scan] s { s with hw := s.hw.startSet } := by
  unfold HoseWatch.startSet
  split
  · exact s.putHose_keeps _ _
  · exact .refl _ s

theorem State.scanAtPhase_keeps (s : State) (old : Phase) : Keeps [.scan] s (s.scanAtPhase old) :=
  s.startSet_keeps.iteSelf

theorem State.handEach_keeps (s : State) (c : Cause) (p : Phase) (l : List Nat) :
    Keeps cascadeParts s (s.handEach c p l) :=
  Keeps.foldl (fun t d => t.hand_keeps c (some d) _) l s

theorem State.handRefused_keeps (s : State) (l : List Nat) : Keeps cascadeParts s (s.handRefused l) :=
  (s.handEach_keeps _ _ _).iteSelf

theorem State.handAtEntry_keeps (s : State) (old p : Phase) (silent faults : List Nat) :
    Keeps cascadeParts s (s.handAtEntry old p silent faults) :=
  ((Keeps.iteSelf (s.handEach_keeps _ _ _)).trans (Keeps.iteSelf (State.handEach_keeps _ _ _ _))).trans
    (Keeps.iteSelf (State.handSeparation_keeps _))

theorem State.openVc1_keeps (s : State) : Keeps cascadeParts s s.openVc1 :=
  Keeps.ite (s.handCause_keeps _ _) ((s.openChannel_keeps _).mono (by decide))

theorem State.dropOrder_keeps (s : State) : Keeps cascadeParts s { s with pc := { s.pc with order := none } } :=
  (s.putPhase_keeps s.pc.phase s.pc.inHand none).mono (by decide)

theorem State.runOrder_keeps (s : State) : Keeps cascadeParts s s.runOrder := by
  unfold State.runOrder
  split
  · dsimp only
    split
    · exact s.dropOrder_keeps.trans (State.openVc1_keeps _)
    · exact s.dropOrder_keeps.trans ((State.closeChannel_keeps _ _).mono (by decide))
    · exact s.dropOrder_keeps.trans
        ((State.eachChannel_keeps State.closeChannel_keeps _ _).mono (by decide))
    · exact .refl _ s
  · exact .refl _ s

theorem State.react_keeps (s : State) (old : Phase) : Keeps cascadeParts s (s.react old) := by
  unfold State.react
  refine Keeps.trans (Keeps.trans (Keeps.trans (Keeps.trans ?_ (State.handRefused_keeps _ _)) (State.runOrder_keeps _))
    (State.handAtEntry_keeps _ _ _ _ _)) ((State.watch_keeps _).mono (by decide))
  exact (((s.scanAtPhase_keeps old).mono (by decide)).trans ((State.followAll_keeps _).mono (by decide))).trans
    ((State.watch_keeps _).mono (by decide))

theorem State.handEach_prefix (s : State) (c : Cause) (p : Phase) (l : List Nat) :
    s.tu.latched <+: (s.handEach c p l).tu.latched := by
  unfold State.handEach
  induction l generalizing s with
  | nil => exact List.prefix_rfl
  | cons d l ih => exact (s.hand_prefix c (some d) _).trans (ih _)

/-- R61: an enabled cause handed at the entry into a phase in which it latches is in the set afterwards. -/
theorem State.handEach_hasLatched {s : State} {c : Cause} {p : Phase} {l : List Nat} (hr : s.running = true)
    (he : s.tu.mask.enables c = true) (hp : c.latchesIn p = true) (hl : l ≠ []) :
    (s.handEach c p l).hasLatched c = true := by
  cases l with
  | nil => exact absurd rfl hl
  | cons d l =>
    refine State.hasLatched_mono (State.handEach_prefix (s.hand c (some d) (c.latchesIn p)) c p l) ?_
    rw [hp]
    exact State.hand_hasLatched (some d) hr he

theorem State.runOrder_prefix (s : State) : s.tu.latched <+: s.runOrder.tu.latched := by
  unfold State.runOrder
  split
  · dsimp only
    split
    · unfold State.openVc1
      split
      · exact State.handCause_prefix { s with pc := { s.pc with order := none } } _ _
      · rw [((State.openChannel_keeps { s with pc := { s.pc with order := none } } .n1).part .tripRecord (by decide)).2.1]
    · rw [((State.closeChannel_keeps { s with pc := { s.pc with order := none } } .n1).part .tripRecord (by decide)).2.1]
    · rw [((State.eachChannel_keeps State.closeChannel_keeps { s with pc := { s.pc with order := none } } _).part
        .tripRecord (by decide)).2.1]
    · exact List.prefix_rfl
  · exact List.prefix_rfl

theorem State.handAtEntry_prefix (s : State) (old p : Phase) (silent faults : List Nat) :
    s.tu.latched <+: (s.handAtEntry old p silent faults).tu.latched := by
  have each (t : State) (c : Cause) (b : Prop) [Decidable b] (l : List Nat) :
      t.tu.latched <+: (if b then t.handEach c p l else t).tu.latched := by
    split
    · exact t.handEach_prefix c p l
    · exact List.prefix_rfl
  have separation (t : State) :
      t.tu.latched <+: (if t.valveRole && t.inputs.sep then t.handSeparation else t).tu.latched := by
    split
    · exact t.handSeparation_prefix
    · exact List.prefix_rfl
  exact (each s .linkloss (p = .opening) silent).trans
    ((each _ .sensor ((!old.active && p.active) = true) faults).trans (separation _))

/-- R20, R84: a channel that refuses the open command of OPENING entry at TW leaves VALVE latched, whatever other cause
is handed at that entry. -/
theorem State.react_refused {s : State} (old : Phase) (hr : s.running = true) (hp : s.pc.phase = .opening)
    (hw : s.hasRole .tw = true) (hn : s.refusedChannels ≠ []) : (s.react old).hasLatched .valve = true := by
  have k : Keeps (watchParts ++ [.scan, .channels, .pressure]) s ((s.scanAtPhase old).followAll).watch :=
    (((s.scanAtPhase_keeps old).mono (by decide)).trans ((State.followAll_keeps _).mono (by decide))).trans
      ((State.watch_keeps _).mono (by decide))
  have hr' : ((s.scanAtPhase old).followAll).watch.running = true := by
    have h : _ = s.pc.station := k.part .station (by decide)
    simpa only [State.running, h] using hr
  have hp' := (k.part .phase (by decide)).1.trans hp
  have hw' : ((s.scanAtPhase old).followAll).watch.hasRole .tw = true := by
    have h : _ = s.sl := k.part .setup (by decide)
    simpa only [State.hasRole, State.role, h] using hw
  have h : ((((s.scanAtPhase old).followAll).watch).handRefused s.refusedChannels).hasLatched .valve = true := by
    rw [State.handRefused, if_pos ⟨hp', hw'⟩]
    exact State.handEach_hasLatched hr' rfl rfl hn
  unfold State.react
  refine State.hasLatched_mono ?_ h
  rw [((State.watch_keeps _).part .tripRecord (by decide)).2.1]
  exact (State.runOrder_prefix _).trans (State.handAtEntry_prefix _ _ _ _ _)

theorem State.stepTo_keeps (s : State) (p : Phase) (n r : Nat) : Keeps cascadeParts s (s.stepTo p n r) :=
  ((s.changePhase_keeps p n r).mono (by decide)).trans (State.react_keeps _ _)

theorem State.takeTrigger_keeps (s : State) (t : Phase × EndKind) : Keeps cascadeParts s (s.takeTrigger t) :=
  ((s.handEndKind_keeps _).mono (by decide)).trans (State.stepTo_keeps _ _ _ _)

theorem State.puSteps_keeps (n : Nat) (s : State) : Keeps cascadeParts s (State.puSteps n s) := by
  induction n generalizing s with
  | zero => exact .refl _ s
  | succ n ih =>
    have h : Keeps cascadeParts s s.confirm := s.confirm_keeps.mono (by decide)
    unfold State.puSteps
    dsimp only
    split
    · exact h
    · split
      · exact (h.trans (State.takeTrigger_keeps _ _)).trans (ih _)
      · exact h

theorem State.puEval_keeps (s : State) : Keeps cascadeParts s s.puEval := (State.puSteps_keeps 8 s).iteSelf

/-! ## Roster changes -/

theorem State.readRoute_keeps (s : State) : Keeps tankParts s s.readRoute := by
  have h : Keeps tankParts s { s with ow := { s.ow with routeSeen := s.runningTw && s.peerRoute } } :=
    (s.putTanks_keeps _).mono (by decide)
  unfold State.readRoute
  dsimp only
  split
  · exact h
  · split
    · exact h.trans (State.startClaim_keeps _ _)
    · exact h

theorem State.readExternalEnd_keeps (s : State) : Keeps endParts s s.readExternalEnd := s.setExternalEnd_keeps.iteSelf

/-- The parts that a roster change at a RUNNING station, or a reading of AN1, may touch beside its own: the leak condition
(R113) with those of a cascade. -/
def leakParts : List Part := cascadeParts ++ [.leak]

/-- The reactions of a roster change that come before the leak condition and the levels. -/
theorem State.rosterReactions_keeps (s : State) :
    Keeps cascadeParts s ((((s.runOrder).releaseIfStopped).readRoute).takeReceived.readExternalEnd).judgeEnds := by
  refine Keeps.trans ?_ ((State.judgeEnds_keeps _).mono (by decide))
  refine Keeps.trans ?_ ((State.readExternalEnd_keeps _).mono (by decide))
  refine Keeps.trans ?_ ((State.takeReceived_keeps _).mono (by decide))
  refine Keeps.trans ?_ ((State.readRoute_keeps _).mono (by decide))
  exact s.runOrder_keeps.trans ((State.releaseIfStopped_keeps _).mono (by decide))

/-- Everything a roster change can set off. -/
theorem State.rosterChanged_keeps (s : State) : Keeps leakParts s s.rosterChanged := by
  refine Keeps.iteSelf (Keeps.trans ?_ ((State.puEval_keeps _).mono (by decide)))
  refine Keeps.trans ?_ ((State.watch_keeps _).mono (by decide))
  exact (s.rosterReactions_keeps.mono (by decide)).trans ((State.watchLeak_keeps _).mono (by decide))

/-- R113: at a RUNNING station a roster change leaves the leak condition as the table makes it. -/
theorem State.rosterChanged_leakCond {s : State} (h : s.running = true) : s.rosterChanged.hw.leakCond = s.leakNow := by
  rw [State.rosterChanged, if_pos h, (State.puEval_keeps _).part .leak (by decide),
    (State.watch_keeps _).part .leak (by decide), State.watchLeak_leakCond]
  exact s.rosterReactions_keeps.frame.leakNow (by decide)

/-- R29: outside RUNNING a roster change sets nothing off. -/
theorem State.rosterChanged_idle {s : State} (h : s.running = false) : s.rosterChanged = s := by
  simp [State.rosterChanged, h]

/-! ## Following PU -/

/-- The parts that following PU may touch: the generation and the transfer number with those of a cascade. -/
def followParts : List Part := cascadeParts ++ [.generation, .transfer]

theorem State.adoptGen_keeps (s : State) (g : BitVec 8) : Keeps [.generation, .frames] s (s.adoptGen g) := by
  refine Keeps.trans ?_ ((State.askStatus_keeps _).mono (by decide))
  refine Keeps.pure ?_ rfl rfl rfl rfl rfl
  intro p hp
  cases p <;> first | exact absurd (by decide) hp | simp [Part.same]

theorem State.putTransfer_keeps (s : State) (n : BitVec 8) :
    Keeps [.transfer] s { s with pc := { s.pc with transfer := n } } := by
  refine Keeps.pure ?_ rfl rfl rfl rfl rfl
  intro p hp
  cases p <;> first | exact absurd (by decide) hp | simp [Part.same]

theorem State.adopt_keeps (s : State) (st : Status) : Keeps followParts s (s.adopt st) :=
  Keeps.trans (Keeps.iteSelf ((s.putTransfer_keeps _).mono (by decide)))
    ((State.stepTo_keeps _ _ _ _).mono (by decide))

theorem State.followSame_keeps (s : State) (st : Status) : Keeps followParts s (s.followSame st) := by
  unfold State.followSame
  split
  · exact .refl _ s
  · exact Keeps.ite (s.adopt_keeps st) ((s.handCause_keeps _ _).mono (by decide))

theorem State.stayTripped_keeps (s : State) : Keeps [.frames] s s.stayTripped := s.ask_keeps _

theorem State.followOther_keeps (s : State) (n : Nat) (st : Status) : Keeps followParts s (s.followOther n st) := by
  have h : Keeps followParts s (s.adoptGen st.gen) := (s.adoptGen_keeps _).mono (by decide)
  have k : Keeps followParts s (s.adoptGen st.gen).clearTripRecord :=
    h.trans ((State.clearTripRecord_keeps _).mono (by decide))
  unfold State.followOther
  split
  · split
    · exact Keeps.ite (h.trans ((State.stayTripped_keeps _).mono (by decide)))
        (k.trans ((State.stepTo_keeps _ _ _ _).mono (by decide)))
    · exact Keeps.ite (h.trans ((State.stayTripped_keeps _).mono (by decide)))
        (k.trans ((State.honour_keeps _ _ _ _).mono (by decide)))
    · exact h.trans ((State.handCause_keeps _ _ _).mono (by decide))
  · split
    · exact .refl _ s
    · exact h.trans ((State.handCause_keeps _ _ _).mono (by decide))

theorem State.compareTransfer_keeps (s : State) (st : Status) : Keeps cascadeParts s (s.compareTransfer st) :=
  (s.handCause_keeps _ _).iteSelf

/-- Everything the follower rule can do. -/
theorem State.followPu_keeps (s : State) (n : Nat) (st : Status) : Keeps followParts s (s.followPu n st) :=
  (Keeps.ite (s.followSame_keeps st) (s.followOther_keeps n st)).trans
    ((State.compareTransfer_keeps _ _).mono (by decide))

theorem State.takePuFigures_keeps (s : State) (st : Status) : Keeps [.record, .reports] s (s.takePuFigures st) := by
  unfold State.takePuFigures
  split
  · exact Keeps.iteSelf (((s.mapRecord_keeps _).mono (by decide)).trans (State.handEndKind_keeps _ _))
  · exact .refl _ s

/-! ## Requests -/

theorem State.takeRequest_keeps (s : State) (k : ReqKind) (q r : Nat) : Keeps followParts s (s.takeRequest k q r) := by
  have h := fun (t : State) (p : Phase) (n m : Nat) => (t.stepTo_keeps p n m).mono (U := followParts) (by decide)
  unfold State.takeRequest
  split
  · exact ((s.putTransfer_keeps _).mono (by decide)).trans (h _ _ _ _)
  · exact h _ _ _ _
  · exact h _ _ _ _
  · exact h _ _ _ _
  · exact Keeps.ite (h _ _ _ _) (Keeps.ite (h _ _ _ _)
      (((s.handEndKind_keeps _).mono (by decide)).trans (h _ _ _ _)))
  · exact (((s.adoptGen_keeps _).mono (by decide)).trans ((State.clearTripRecord_keeps _).mono (by decide))).trans
      (h _ _ _ _)
  · exact h _ _ _ _

/-- Everything a decided request can do. -/
theorem State.carryOut_keeps (s : State) (k : Option ReqKind) (q r : Nat) : Keeps followParts s (s.carryOut k q r) := by
  unfold State.carryOut
  split
  · exact (s.takeRequest_keeps _ _ _).trans ((State.puEval_keeps _).mono (by decide))
  · exact .refl _ s

/-- R54, R56: a request that is not taken has no effect. -/
theorem State.carryOut_refused {s : State} {k : Option ReqKind} {q r : Nat} (h : (s.judgeRequest k q r).1 ≠ .taken) :
    s.carryOut k q r = s := by
  unfold State.carryOut
  split
  · simp_all
  · rfl

end Sys2Proof.Machine
end

