-- ==== Sys2Proof/Laws/Triggers.lean ====
section
/-! SUPPORT. The roster conditions as the statements write them, and what PC's evaluation at PU can do (R7 to R10, R39 to
R43). -/

namespace Sys2Proof.Machine

/-! ## Conditions of the table -/

/-- R113, R44: the BV pressure that SV reads. -/
theorem State.bvPressure_iff (s : State) (p : Nat) :
    s.bvPressure = some p ↔ ∃ e st v, s.sr.ofRole .bv = some e ∧ e.presence = .present ∧ e.last = some st
      ∧ st.body = .valve v p true := by
  simp only [State.bvPressure, Option.bind_eq_some_iff]
  constructor
  · rintro ⟨e, he, hp⟩
    split at hp
    · rename_i hq
      obtain ⟨st, hl, hb⟩ := Option.bind_eq_some_iff.1 hp
      split at hb
      · rename_i v q hbody
        exact ⟨e, st, v, he, by simpa using hq, hl, by simp_all⟩
      · cases hb
    · cases hp
  · rintro ⟨e, st, v, he, hp, hl, hb⟩
    exact ⟨e, he, by simp [hp, hl, hb]⟩

/-- R113: the leak condition evaluated is what its rule asks. -/
theorem State.leakNow_iff (s : State) : s.leakNow = true ↔ LeakFacts s := by
  have hv : ∀ own, s.pressure = some own ↔ s.hw.chans.n1.fault = false ∧ s.hw.chans.n1.value = some own := by
    intro own
    cases hf : s.hw.chans.n1.fault <;> simp [State.pressure, ScanChannel.valid, hf]
  simp only [State.leakNow, Bool.and_eq_true, LeakFacts]
  refine and_congr_right fun _ => ?_
  constructor
  · intro h
    split at h
    · rename_i own p ho hp
      obtain ⟨e, st, v, h1, h2, h3, h4⟩ := (s.bvPressure_iff p).1 hp
      exact ⟨own, e, st, v, p, ((hv own).1 ho).1, ((hv own).1 ho).2, h1, h2, h3, h4, by simpa using h⟩
    · cases h
  · rintro ⟨own, e, st, v, p, hf, hn, h1, h2, h3, h4, h5⟩
    rw [(hv own).2 ⟨hf, hn⟩, (s.bvPressure_iff p).2 ⟨e, st, v, h1, h2, h3, h4⟩]
    simpa using h5

/-- A test of the model and a test of the statements that say the same. -/
def Tests (f : Status → Bool) (p : Status → Prop) : Prop := ∀ st, f st = true ↔ p st

theorem Entry.shows_iff {s : State} {e : Entry} {f : Status → Bool} {p : Status → Prop} (h : Tests f p) :
    e.shows s.pc.gen f = true ↔ Showing s e p := by
  unfold Entry.shows Entry.current Showing
  cases e.last with
  | none => simp
  | some st =>
    by_cases hg : st.gen = s.pc.gen
    · simp [Option.filter, hg, h st]
    · simp [Option.filter, hg]

theorem State.roleShows_iff {s : State} {r : Role} {f : Status → Bool} {p : Status → Prop} (h : Tests f p) :
    s.roleShows r f = true ↔ RoleShowing s r p := by
  unfold State.roleShows RoleShowing
  cases s.sr.ofRole r with
  | none => simp
  | some e => simp [Entry.shows_iff h]

theorem State.everyTw_iff {s : State} {f : Status → Bool} {p : Status → Prop} (h : Tests f p) :
    s.everyTw f = true ↔ EveryTwShows s p := by
  unfold State.everyTw EveryTwShows Roster.guardedTw Roster.guarded
  simp only [Bool.and_eq_true, Bool.not_eq_true', List.isEmpty_eq_false_iff_exists_mem, List.mem_filter, List.all_eq_true,
    Entry.hasRole, beq_iff_eq, and_assoc, and_imp, Entry.shows_iff h]

theorem tests_valveOpen : Tests (fun st => st.body.valveOpen) ValveOpenShown := by
  rintro ⟨_, _, _, _, _, _, _, _, _, _, _ | ⟨v, _, _⟩ | _ | _⟩ <;> simp [ValveOpenShown, RoleBody.valveOpen]
  cases v <;> simp

theorem tests_receipt {x : ReceiptState} (hx : x ≠ .none) :
    Tests (fun st => st.body.receipt == x) (ReceiptShown x) := by
  rintro ⟨_, _, _, _, _, _, _, _, _, _, _ | _ | ⟨_, _, _⟩ | _⟩ <;> simp [ReceiptShown, RoleBody.receipt, Ne.symm hx]

theorem TankState.toppingSeen_iff (t : TankState) : t.toppingSeen = true ↔ t = .topping ∨ t = .full ∨ t = .held := by
  cases t <;> simp [TankState.toppingSeen]

theorem TankState.fullOrHeld_iff (t : TankState) : t.fullOrHeld = true ↔ t = .full ∨ t = .held := by
  cases t <;> simp [TankState.fullOrHeld]

theorem tests_topping : Tests (fun st => st.body.items.any fun i => i.state.toppingSeen) ToppingShown := by
  rintro ⟨_, _, _, _, _, _, _, _, _, _, _ | _ | ⟨_, _, _⟩ | _⟩ <;>
    simp [ToppingShown, RoleBody.items, TankState.toppingSeen_iff]

theorem tests_internalEnd : Tests Status.internalEnd InternalEndShown := by
  rintro ⟨_, _, _, _, _, _, _, _, _, _, _ | _ | ⟨x, _, items⟩ | _⟩ <;> simp [InternalEndShown, Status.internalEnd]
  cases x <;> simp [TankState.fullOrHeld_iff]

theorem tests_flag {f : Status → Bool} : Tests f fun st => f st = true := fun _ => .rfl

theorem tests_phase (p : Phase) : Tests (fun st => st.phase == p) fun st => st.phase = p := fun _ => by simp

theorem State.ownInternalEnd_iff (s : State) : s.ownInternalEnd = true ↔ OwnInternalEnd s := by
  unfold State.ownInternalEnd OwnInternalEnd State.tanksUsed
  have hm : ∀ n : Ch, n ∈ Ch.all := fun n => by cases n <;> decide
  cases s.ow.receipt <;> simp [TankState.fullOrHeld_iff, hm, ← Bool.not_eq_true, imp_iff_not_or]

theorem Entry.receivedPart_eq (e : Entry) (transfer : BitVec 8) : e.receivedPart transfer = heardReceived transfer e := by
  unfold Entry.receivedPart heardReceived Entry.hasRole Entry.figures
  cases e.role with
  | none => rfl
  | some r =>
    cases e.last with
    | none => cases r <;> rfl
    | some st =>
      cases r <;> try rfl
      by_cases h : st.transfer = transfer
      · rcases st with ⟨_, _, _, _, _, _, _, _, _, _, _ | _ | _ | _⟩ <;> simp_all [Option.filter]
      · rcases st with ⟨_, _, _, _, _, _, _, _, _, _, _ | _ | _ | _⟩ <;> simp_all [Option.filter]

/-! ## Triggers -/

/-- R7, R8: METERED stops the transfer before RECEIVERFULL does. -/
theorem State.stopTrigger_cases (s : State) :
    (s.mr.record.nomination ≤ s.mr.record.delivered ∧ s.stopTrigger = some (.stopping, .metered))
      ∨ (¬ s.mr.record.nomination ≤ s.mr.record.delivered ∧ EveryTwShows s (ReceiptShown .allfull)
          ∧ s.stopTrigger = some (.stopping, .receiverfull))
      ∨ (¬ s.mr.record.nomination ≤ s.mr.record.delivered ∧ ¬ EveryTwShows s (ReceiptShown .allfull)
          ∧ s.stopTrigger = none) := by
  have hf : s.receiversFull = true ↔ EveryTwShows s (ReceiptShown .allfull) :=
    State.everyTw_iff (tests_receipt (by decide))
  unfold State.stopTrigger
  by_cases hm : s.mr.record.nomination ≤ s.mr.record.delivered <;>
    by_cases hr : s.receiversFull = true <;> simp [hm, hr, ← hf]

/-- R7, R8: the trigger of the model is the trigger of the rules. -/
theorem State.trigger_iff (s : State) (p : Phase) (k : EndKind) : s.trigger = some (p, k) ↔ Due s p k := by
  have hb : s.bvOpen = true ↔ RoleShowing s .bv ValveOpenShown := State.roleShows_iff tests_valveOpen
  have ht : s.toppingSeen = true ↔ ∃ e ∈ s.sr.entries, e.role = some .tw ∧ Showing s e ToppingShown := by
    unfold State.toppingSeen
    simp [List.any_eq_true, Entry.hasRole, Entry.shows_iff tests_topping]
  have hc : s.allClosed = true ↔ ∀ e ∈ s.sr.entries, e.protected' = true → Showing s e fun st => st.closed = true := by
    unfold State.allClosed Roster.guarded
    simp [List.all_eq_true, Entry.shows_iff tests_flag, ← Bool.not_eq_true, imp_iff_not_or]
  have hmar : s.mr.record.nomination - s.sl.setup.toppingMargin ≤ s.mr.record.delivered
      ↔ s.mr.record.nomination ≤ s.mr.record.delivered + s.sl.setup.toppingMargin := by omega
  unfold State.trigger Due
  rw [← hb, ← ht, ← hc, ← hmar]
  rcases s.stopTrigger_cases with ⟨hm, hs⟩ | ⟨hm, hf, hs⟩ | ⟨hm, hf, hs⟩ <;> cases s.pc.phase <;>
    simp only [hs, hm, reduceCtorEq, false_and, and_true, true_and, false_or, or_false, or_self, or_true, true_or,
      not_true_eq_false, not_false_eq_true, Option.some_or, Option.none_or, Option.some.injEq, Prod.mk.injEq,
      Option.ite_none_right_eq_some] <;>
    grind

theorem Showing.congr {s t : State} (h : t.pc.gen = s.pc.gen) (e : Entry) (f : Status → Prop) :
    Showing t e f ↔ Showing s e f := by
  unfold Showing
  rw [h]

/-- What a trigger reads: phase, generation, table, record, pump state, start-flow fact and topping margin. -/
theorem Due.congr {s t : State} (hp : t.pc.phase = s.pc.phase) (hg : t.pc.gen = s.pc.gen)
    (he : t.sr.entries = s.sr.entries) (hr : t.mr.record = s.mr.record) (hv : t.vp.pump = s.vp.pump)
    (hf : t.mr.startFlow = s.mr.startFlow) (hm : t.sl.setup.toppingMargin = s.sl.setup.toppingMargin)
    (p : Phase) (k : EndKind) : Due t p k ↔ Due s p k := by
  unfold Due RoleShowing EveryTwShows Roster.ofRole
  simp only [hp, he, hr, hv, hf, hm, Showing.congr hg]

/-- R10: a step in hand waits where some PRESENT protected peer does not show it, and is confirmed otherwise. -/
theorem State.unconfirmed_iff (s : State) : Unconfirmed s ↔ s.confirm.pc.inHand.isSome = true := by
  unfold Unconfirmed State.confirm State.confirmed Roster.guarded
  cases hi : s.pc.inHand with
  | none => simp [hi]
  | some h =>
    simp only [Option.any_some, Option.some.injEq, List.all_filter]
    split
    · rename_i ha
      simp only [Option.isSome_none, Bool.false_eq_true, iff_false]
      rintro ⟨i, e, rfl, he, hg, hp, hs⟩
      have := List.all_eq_true.1 ha e he
      simp [hg, hp, hs] at this
    · rename_i ha
      simp only [hi, Option.isSome_some, iff_true]
      rw [Bool.not_eq_true, List.all_eq_false] at ha
      obtain ⟨e, he, hx⟩ := ha
      refine ⟨h, e, rfl, he, ?_⟩
      simpa using hx

/-- R7, R10: what one round of PC's evaluation does. -/
theorem State.puSteps_cases (s : State) (n : Nat) :
    (Unconfirmed s ∧ s.puSteps (n + 1) = s.confirm)
      ∨ (¬ Unconfirmed s ∧ (∀ p k, ¬ Due s p k) ∧ s.puSteps (n + 1) = s.confirm)
      ∨ (¬ Unconfirmed s ∧ ∃ p k, Due s p k ∧ s.puSteps (n + 1) = State.puSteps n (s.confirm.takeTrigger (p, k))) := by
  have hd : ∀ p k, Due s.confirm p k ↔ Due s p k := fun p k => by
    unfold State.confirm
    split
    · exact Due.congr rfl rfl rfl rfl rfl rfl rfl p k
    · exact .rfl
  by_cases hu : Unconfirmed s
  · have := s.unconfirmed_iff.1 hu
    exact .inl ⟨hu, by unfold State.puSteps; simp [this]⟩
  · have hn : ¬ s.confirm.pc.inHand.isSome = true := fun h => hu (s.unconfirmed_iff.2 h)
    right
    cases ht : s.confirm.trigger with
    | none =>
      refine .inl ⟨hu, fun p k h => ?_, by rw [State.puSteps]; simp [hn, ht]⟩
      have := (s.confirm.trigger_iff p k).2 ((hd p k).2 h)
      rw [ht] at this
      exact absurd this (by simp)
    | some t =>
      exact .inr ⟨hu, t.1, t.2, (hd _ _).1 ((s.confirm.trigger_iff _ _).1 ht), by rw [State.puSteps]; simp [hn, ht]⟩

end Sys2Proof.Machine
end

