-- ==== Sys2Proof/Laws/Field.lean ====
section
/-! SUPPORT. What the operations of the field commands (valves, pump, tanks, pressure, meter, trip inputs) leave alone, and
when PC has no step to take. -/

namespace Sys2Proof.Machine

/-! ## No automatic step -/

/-- R7: in a phase without a trigger there is none. -/
theorem State.trigger_none {s : State} (h : s.pc.phase = .idle ∨ s.pc.phase = .lineup ∨ s.pc.phase = .paused
    ∨ s.pc.phase = .ended ∨ s.pc.phase = .tripped) : s.trigger = none := by
  unfold State.trigger
  rcases h with h | h | h | h | h <;> rw [h]

/-- R7, R10: with no step due, PC can do nothing but confirm the step in hand. -/
theorem State.puEval_noStep {s : State} (h : NoStepDue s) : s.puEval = s ∨ s.puEval = s.confirm := by
  unfold State.puEval
  split
  · rename_i hr
    right
    rcases s.puSteps_cases 7 with ⟨_, he⟩ | ⟨_, _, he⟩ | ⟨hu, p, k, hd, _⟩
    · exact he
    · exact he
    · have ht := (s.trigger_iff p k).2 hd
      rcases h with h | h | h | h
      · simp [h] at hr
      · rw [State.trigger_none h] at ht
        exact absurd ht (by simp)
      · exact absurd h hu
      · exact absurd hd (h p k)
  · exact .inl rfl

/-- What an evaluation with no step due leaves. -/
theorem State.puEval_noStep_keeps {s : State} (h : NoStepDue s) :
    Keeps [.phase] s s.puEval ∧ s.puEval.pc.phase = s.pc.phase ∧ s.puEval.pc.order = s.pc.order := by
  rcases State.puEval_noStep h with h | h <;> rw [h]
  · exact ⟨.refl _ s, rfl, rfl⟩
  · exact ⟨s.confirm_keeps, s.confirm_phase.1, s.confirm_phase.2⟩

/-! ## Inputs -/

theorem State.putInputs_keeps (s : State) (i : Inputs) : Keeps [.inputs] s { s with inputs := i } := by
  refine Keeps.pure ?_ rfl rfl rfl rfl rfl
  intro p hp
  cases p <;> first | exact absurd (by decide) hp | simp [Part.same]

/-! ## Valves -/

theorem State.switchUsed_keeps (s : State) (n : Ch) (sw : Switch) (on : Bool) :
    Keeps cascadeParts s (s.switchUsed n sw on) := by
  unfold State.switchUsed
  dsimp only
  refine Keeps.trans ?_ ((State.watch_keeps _).mono (by decide))
  have h := (s.putChannel_keeps n _ fun h => Channel.switched_ok sw on s.pc.phase.active s.tripHoldOff (s.openOn n)
    (s.shutOn n) (h.channels n)).mono (U := cascadeParts) (by decide)
  exact Keeps.ite (h.trans (State.handCause_keeps _ _ _)) h

theorem State.switchUnused_keeps (s : State) (n : Ch) :
    Keeps [.channels, .frames, .pressure] s (s.switchUnused n) := by
  unfold State.switchUnused
  split
  · rename_i hr
    exact s.putChannel_keeps n _ fun h => Channel.follow_ok _ _ hr (h.channels n)
  · exact .refl _ s

/-! ## The pump -/

/-- The parts the stop proof may touch. -/
def proofParts : List Part := [.pump, .record, .tanks, .frames, .reports]

theorem State.proveStop_keeps (s : State) : Keeps proofParts s s.proveStop := by
  have h : Keeps proofParts s (s.putPump s.vp.proved) :=
    (s.putPump_keeps _ (by exact ⟨rfl, rfl, rfl⟩)).mono (by decide)
  exact Keeps.iteSelf (Keeps.ite (h.trans ((State.setExternalEnd_keeps _).mono (by decide))) h)

theorem State.feedbackOn_keeps (s : State) : Keeps cascadeParts s s.feedbackOn := by
  unfold State.feedbackOn
  split
  · exact (s.putPump_keeps _ (by exact ⟨rfl, rfl, rfl⟩)).mono (by decide)
  · exact ((s.putPump_keeps _ (by exact ⟨rfl, rfl, rfl⟩)).mono (by decide)).trans (State.handPump_keeps _ _)
  · exact .refl _ s
  · exact .refl _ s

theorem State.feedbackOff_keeps (s : State) : Keeps cascadeParts s s.feedbackOff := by
  unfold State.feedbackOff
  split
  · exact (s.handPump_keeps _).iteSelf
  · exact s.proveStop_keeps.mono (by decide)
  · exact .refl _ s
  · exact .refl _ s

/-! ## The tanks -/

theorem State.stepFilling_keeps (s : State) (n : Ch) (v : Nat) : Keeps tankParts s (s.stepFilling n v) :=
  (s.setTank_keeps _ _).iteSelf

theorem State.stepTopping_keeps (s : State) (n : Ch) (v : Nat) : Keeps tankParts s (s.stepTopping n v) :=
  (s.setTank_keeps _ _).iteSelf

/-- The parts a tank that closes may touch. -/
def tankCloseParts : List Part := [.tanks, .channels, .pressure, .frames, .reports]

theorem State.stepTarget_keeps (s : State) (n : Ch) (v : Nat) : Keeps tankCloseParts s (s.stepTarget n v) := by
  refine Keeps.iteSelf (Keeps.ite ?_ (Keeps.ite (.refl _ s) (Keeps.ite ?_ ?_)))
  · exact ((s.setTank_keeps _ _).mono (by decide)).trans ((State.closeChannel_keeps _ _).mono (by decide))
  · exact (s.startClaim_keeps _).mono (by decide)
  · exact (s.setTank_keeps _ _).mono (by decide)

theorem State.levelSteps_keeps (s : State) (n : Ch) (v : Nat) : Keeps tankCloseParts s (s.levelSteps n v) :=
  Keeps.iteSelf ((((s.stepFilling_keeps n v).trans (State.stepTopping_keeps _ n v)).mono (by decide)).trans
    (State.stepTarget_keeps _ n v))

theorem State.settleReading_keeps (s : State) (n : Ch) (v : Nat) (b : Bool) : Keeps [.tanks] s (s.settleReading n v b) := by
  unfold State.settleReading
  split
  · exact (s.putTank_keeps _ _).trans (State.putTanks_keeps _ _)
  · exact .refl _ s

/-- What handing on a tank's facts can do. -/
theorem State.handTankFacts_keeps (s : State) (n : Ch) : Keeps [.alarms, .reports, .timers] s (s.handTankFacts n) :=
  ((s.sweepAlarms_keeps _).mono (by decide)).trans ((State.watchTimers_keeps _).mono (by decide))

theorem State.tankReading_keeps (s : State) (n : Ch) (v : Nat) : Keeps cascadeParts s (s.tankReading n v) := by
  unfold State.tankReading
  dsimp only
  refine Keeps.trans ?_ ((State.judgeEnds_keeps _).mono (by decide))
  refine Keeps.trans ?_ ((State.takeReceived_keeps _).mono (by decide))
  refine Keeps.trans ?_ ((State.settleReading_keeps _ _ _ _).mono (by decide))
  refine Keeps.trans ?_ ((Keeps.iteSelf (State.takeOwnReceived_keeps _)).mono (by decide))
  refine Keeps.trans ?_ ((State.judgeAllFull_keeps _).mono (by decide))
  refine Keeps.trans ?_ ((State.levelSteps_keeps _ _ _).mono (by decide))
  refine Keeps.trans ?_ ((State.handTankFacts_keeps _ _).mono (by decide))
  exact ((s.putTank_keeps _ _).trans (State.takeOverfill_keeps _ _)).mono (by decide)

theorem State.tankFault_keeps (s : State) (n : Ch) : Keeps [.tanks] s (s.tankFault n) := by
  have h := (s.putTank_keeps n { s.ow.tanks.get n with levelValid := false }).trans (State.takeOverfill_keeps _ n)
  unfold State.tankFault
  dsimp only
  split
  · exact h.trans (State.putTanks_keeps _ _)
  · exact h

theorem State.closeOverfilled_keeps (s : State) (n : Ch) :
    Keeps [.channels, .frames, .pressure] s (s.closeOverfilled n) := by
  unfold State.closeOverfilled
  split
  · exact s.closeChannel_keeps n
  · split
    · exact s.pendChannel_keeps n
    · exact s.closeChannel_keeps n
    · exact .refl _ s

theorem State.overfillTank_keeps (s : State) (n : Ch) : Keeps tankParts s (s.overfillTank n) :=
  Keeps.ite ((s.setTank_keeps _ _).trans (State.endClaim_keeps _)) (s.setTank_keeps _ _)

theorem State.nameTank_keeps (s : State) (n : Ch) : Keeps [.tripRecord, .reports] s (s.nameTank n) := by
  unfold State.nameTank
  split
  · exact .refl _ s
  · have h : Keeps [.tripRecord, .reports] s { s with tu := { s.tu with named := s.tu.named.set n true } } := by
      refine Keeps.pure ?_ rfl rfl rfl rfl rfl
      intro p hp
      cases p <;> first | exact absurd (by decide) hp | simp [Part.same]
    exact h.trans ((State.emit_keeps _ _).mono (by decide))

theorem State.qualifyOverfill_keeps (s : State) (n : Ch) : Keeps cascadeParts s (s.qualifyOverfill n) := by
  unfold State.qualifyOverfill
  refine Keeps.trans ?_ (State.handCause_keeps _ _ _)
  refine Keeps.trans ?_ ((State.nameTank_keeps _ _).mono (by decide))
  exact ((s.overfillTank_keeps _).mono (by decide)).trans ((State.closeOverfilled_keeps _ _).mono (by decide))

theorem State.winClaim_keeps (s : State) (n : Ch) : Keeps tankCloseParts s (s.winClaim n) :=
  (((s.setTank_keeps _ _).mono (by decide)).trans ((State.closeChannel_keeps _ _).mono (by decide))).trans
    ((State.setClaim_keeps _ _ _ _).mono (by decide))

theorem State.loseClaim_keeps (s : State) (n : Ch) : Keeps tankParts s (s.loseClaim n) := by
  have h := (s.setTank_keeps n .held).trans (State.setClaim_keeps _ .start n .lost)
  unfold State.loseClaim
  dsimp only
  split
  · exact h.trans (State.startClaim_keeps _ _)
  · exact h

theorem State.completeSettling_keeps (s : State) :
    Keeps (watchParts ++ [.tanks, .record]) s s.completeSettling := by
  unfold State.completeSettling
  refine Keeps.trans ?_ ((State.watch_keeps _).mono (by decide))
  refine Keeps.trans ?_ ((State.judgeEnds_keeps _).mono (by decide))
  exact ((s.putTanks_keeps _).mono (by decide)).trans ((State.setReceipt_keeps _ _).mono (by decide))

/-! ## The scan and the pressure watch -/

/-- The pressure watch replaced, with the channel records, the levels, the scan and the leak condition as they are. -/
theorem State.putPressure_keeps (s : State) (h : HoseWatch)
    (k : h.chans = s.hw.chans ∧ h.slot = s.hw.slot ∧ h.setTimer = s.hw.setTimer
      ∧ h.surgeThreshold = s.hw.surgeThreshold ∧ h.hardLimit = s.hw.hardLimit ∧ h.settleLevel = s.hw.settleLevel
      ∧ h.leakCond = s.hw.leakCond) : Keeps [.pressure] s { s with hw := h } := by
  refine Keeps.pure ?_ rfl rfl rfl rfl rfl
  intro p hp
  cases p <;> first | exact absurd (by decide) hp | simp [Part.same, k]

theorem State.handHardLimit_keeps (s : State) : Keeps cascadeParts s s.handHardLimit := (s.handCause_keeps _ _).iteSelf

theorem State.pressureReading_keeps (s : State) (v : Nat) : Keeps leakParts s (s.pressureReading v) := by
  unfold State.pressureReading
  refine Keeps.trans ?_ ((State.proveStop_keeps _).mono (by decide))
  refine Keeps.trans ?_ ((State.handHardLimit_keeps _).mono (by decide))
  exact ((s.putPressure_keeps _ (by exact ⟨rfl, rfl, rfl, rfl, rfl, rfl, rfl⟩)).mono (by decide)).trans
    ((State.watchLeak_keeps _).mono (by decide))

/-- R113: a good reading of AN1 leaves the leak condition as the reading makes it. -/
theorem State.pressureReading_leakCond (s : State) (v : Nat) : (s.pressureReading v).hw.leakCond = s.leakNow := by
  rw [State.pressureReading, (State.proveStop_keeps _).part .leak (by decide),
    (State.handHardLimit_keeps _).part .leak (by decide)]
  rfl

theorem State.handReading_keeps (s : State) (n : Ch) (v : Nat) : Keeps leakParts s (s.handReading n v) :=
  Keeps.ite (s.pressureReading_keeps v) ((s.tankReading_keeps n v).mono (by decide)).iteSelf

/-- What the loss of the pressure can do: the pressure watch, the timers, and the alarms of disabled causes. -/
theorem State.ceasePressure_keeps (s : State) :
    Keeps [.pressure, .leak, .timers, .alarms, .reports] s s.ceasePressure := by
  unfold State.ceasePressure
  refine Keeps.trans ?_ ((State.sweepAlarms_keeps _ _).mono (by decide))
  refine Keeps.trans ?_ ((State.watchTimers_keeps _).mono (by decide))
  exact ((s.putPressure_keeps s.hw.losePressure (by exact ⟨rfl, rfl, rfl, rfl, rfl, rfl, rfl⟩)).mono (by decide)).trans
    ((State.watchLeak_keeps _).mono (by decide))

theorem State.handFault_keeps (s : State) (n : Ch) : Keeps leakParts s (s.handFault n) := by
  have h : Keeps leakParts s (if s.pressureRole then s.ceasePressure else s) :=
    Keeps.iteSelf (s.ceasePressure_keeps.mono (by decide))
  unfold State.handFault
  exact (h.trans ((State.handCause_keeps _ _ _).mono (by decide))).trans
    (Keeps.iteSelf ((State.tankFault_keeps _ _).mono (by decide)))

/-- Everything a completed reading can hand on. -/
theorem State.handOn_keeps (s : State) (n : Ch) (r : Reading) : Keeps leakParts s (s.handOn n r) := by
  cases r
  · exact .refl _ s
  · exact s.handReading_keeps _ _
  · exact s.handFault_keeps _
  · exact s.handReading_keeps _ _

/-! ## The meter -/

/-- The parts a litre may touch. -/
def litreParts : List Part := cascadeParts ++ [.stray, .draws]

theorem MeterRecord.windowLitre_residual (m : MeterRecord) (past : Nat) : (m.windowLitre past).residual = m.residual := by
  unfold MeterRecord.windowLitre
  split <;> rfl

theorem MeterRecord.placeLitre_residual (m : MeterRecord) : m.placeLitre.residual = m.residual := by
  unfold MeterRecord.placeLitre
  repeat' split
  all_goals rfl

/-- Meter and draws replaced, the residual as it is. -/
theorem State.putLitre_keeps (s : State) (m : MeterRecord) (d : Nat) (h : m.residual = s.mr.residual) :
    Keeps litreParts s { s with mr := m, draws := d } := by
  refine Keeps.pure ?_ rfl rfl rfl rfl rfl
  intro p hp
  cases p <;> first | exact absurd (by decide) hp | simp [Part.same, h]

theorem State.litre_keeps (s : State) : Keeps litreParts s s.litre := by
  unfold State.litre
  refine Keeps.trans (s.putLitre_keeps _ _ ?_) ((State.puEval_keeps _).mono (by decide))
  rw [MeterRecord.placeLitre_residual, MeterRecord.windowLitre_residual]

theorem State.litres_keeps (n : Nat) (s : State) : Keeps litreParts s (State.litres n s) := by
  induction n generalizing s with
  | zero => exact .refl _ s
  | succ n ih => exact s.litre_keeps.trans (ih _)

theorem State.followCap_keeps (s : State) : Keeps [.pump] s s.followCap := (s.setRateLow_keeps _).iteSelf

theorem State.handNoFlow_keeps (s : State) (b : Bool) : Keeps cascadeParts s (s.handNoFlow b) :=
  (s.handCause_keeps _ _).iteSelf

/-! ## Qualification timers -/

/-- The trip unit replaced, with its record, its flag and its mask as they are. -/
theorem State.putTimers_keeps (s : State) (u : TripUnit)
    (h : u.cause = s.tu.cause ∧ u.firstOut = s.tu.firstOut ∧ u.latched = s.tu.latched ∧ u.named = s.tu.named
      ∧ u.mask = s.tu.mask) : Keeps [.timers] s { s with tu := u } := by
  refine Keeps.pure ?_ rfl rfl rfl rfl rfl
  intro p hp
  cases p <;> first | exact absurd (by decide) hp | simp [Part.same, h]

theorem State.qualify_keeps (s : State) (q : QualId) : Keeps cascadeParts s (s.qualify q) := by
  cases q <;> simp only [State.qualify]
  · exact ((s.putTimers_keeps _ (by exact ⟨rfl, rfl, rfl, rfl, rfl⟩)).mono (by decide)).trans
      (State.qualifyOverfill_keeps _ _)
  all_goals
    exact ((s.putTimers_keeps _ (by exact ⟨rfl, rfl, rfl, rfl, rfl⟩)).mono (by decide)).trans
      (State.handCause_keeps _ _ _)

end Sys2Proof.Machine
end

