-- ==== Sys2Proof/Laws/Flags.lean ====
section
/-! SUPPORT. READY and CLOSED (R17, R19, R40): when they hold, and that `watch` leaves them so. -/

namespace Sys2Proof.Machine

theorem Ch.mem_all (n : Ch) : n ∈ Ch.all := by cases n <;> decide

/-- R40: every protected peer is PRESENT. -/
theorem State.allPresent_iff (s : State) : s.allPresent = true ↔ EveryPeerPresent s := by
  simp only [State.allPresent, EveryPeerPresent, Roster.guarded, List.all_filter, List.all_eq_true, Bool.or_eq_true,
    Bool.not_eq_true', beq_iff_eq]
  exact forall₂_congr fun e _ => by cases e.protected' <;> simp

/-- R19, R64: no enabled cause for PU's role has its active condition. -/
theorem State.causePresentAtPu_iff (s : State) (h : s.role = some .pu) :
    s.causePresentAtPu = false ↔ NoCauseAtPu s := by
  have hp : s.hasRole .pu = true := by simp [State.hasRole, h]
  constructor
  · intro hc
    simp only [State.causePresentAtPu, List.any_cons, List.any_nil, Bool.or_false, Bool.or_eq_false_iff,
      Bool.and_eq_false_iff, ProfileMask.enables, State.causeActive, hp, Bool.true_and] at hc
    obtain ⟨h1, h2, h3, h4, h5, h6⟩ := hc
    refine ⟨by simpa using h1, fun hm => by simpa [hm] using h2, by simpa using h3, ?_, by simpa using h5, ?_⟩
    · intro e he hg
      simp only [State.someSilent, Roster.guarded] at h4
      simp at h4
      exact h4 e he hg
    · intro hm n hn
      simp only [hm] at h6
      simp at h6
      exact h6 n (Ch.mem_all n) hn
  · intro k
    have hs : s.someSilent = false := by
      simp only [State.someSilent, Roster.guarded]
      simp
      exact k.linkloss
    have hf : s.tu.mask.sensor = true →
        (Ch.all.any fun n => (s.hw.chans.get n).enabled && (s.hw.chans.get n).fault) = false := by
      intro hm
      simp
      exact fun n _ => k.sensor hm n
    simp only [State.causePresentAtPu, List.any_cons, List.any_nil, Bool.or_false, Bool.or_eq_false_iff,
      Bool.and_eq_false_iff, ProfileMask.enables, State.causeActive, hp, Bool.true_and]
    refine ⟨k.manual, ?_, k.hardlimit, hs, by simp [k.pump], ?_⟩
    · cases hm : s.tu.mask.surge
      · exact .inl rfl
      · exact .inr (k.surge hm)
    · cases hm : s.tu.mask.sensor
      · exact .inl rfl
      · exact .inr (hf hm)

/-- A fact about every tank in use. -/
theorem State.tanksUsed_all (s : State) (f : Ch → Bool) :
    s.tanksUsed.all f = true ↔ ∀ n : Ch, s.tankUsed n = true → f n = true := by
  simp only [State.tanksUsed, List.all_filter, List.all_eq_true]
  constructor
  · intro h n hn
    simpa [hn] using h n (Ch.mem_all n)
  · intro h n _
    cases hn : s.tankUsed n <;> simp [h, hn]

/-- A fact about some tank in use. -/
theorem State.tanksUsed_any (s : State) (f : Ch → Bool) :
    s.tanksUsed.any f = true ↔ ∃ n : Ch, s.tankUsed n = true ∧ f n = true := by
  simp only [State.tanksUsed, List.any_filter, List.any_eq_true, Bool.and_eq_true]
  constructor
  · exact fun ⟨n, _, h⟩ => ⟨n, h⟩
  · exact fun ⟨n, h⟩ => ⟨n, Ch.mem_all n, h⟩

/-- R19, R40: READY for the role. -/
theorem State.readyForRole_iff (s : State) : s.readyForRole = true ↔ ∃ r, s.role = some r ∧ ReadyFacts s r := by
  unfold State.readyForRole
  cases h : s.role with
  | none => simp
  | some r =>
    cases r
    · simp only [Bool.and_eq_true, Bool.not_eq_true', beq_iff_eq, s.causePresentAtPu_iff h, s.allPresent_iff]
      simp [ReadyFacts, and_assoc]
    · simp [ReadyFacts, and_assoc, s.allPresent_iff]
    · simp [ReadyFacts, and_assoc, s.allPresent_iff]
    · simp only [Bool.and_eq_true, s.tanksUsed_all, s.tanksUsed_any, s.allPresent_iff]
      simp [ReadyFacts, and_assoc, Option.any_eq_true, Classical.or_iff_not_imp_left]
    · simp [ReadyFacts]

/-- R17, R19, R40: READY. -/
theorem State.readyNow_iff (s : State) :
    s.readyNow = true ↔ s.running = true ∧ s.pc.phase = .lineup ∧ ∃ r, s.role = some r ∧ ReadyFacts s r := by
  simp only [State.readyNow, Bool.and_eq_true, beq_iff_eq, s.readyForRole_iff, and_assoc]

/-- R17: CLOSED. -/
theorem State.closedNow_iff (s : State) :
    s.closedNow = true ↔ s.running = true ∧ ∃ r, s.role = some r ∧ ClosedFacts s r := by
  unfold State.closedNow
  rw [Bool.and_eq_true]
  cases h : s.role with
  | none => simp
  | some r =>
    cases r
    case tw =>
      rw [s.tanksUsed_all]
      simp [ClosedFacts]
    all_goals simp [ClosedFacts]

/-- What READY and CLOSED read. -/
structure SameFacts (s t : State) : Prop where
  station : t.pc.station = s.pc.station
  phase : t.pc.phase = s.pc.phase
  inputs : t.inputs = s.inputs
  sl : t.sl = s.sl
  sr : t.sr = s.sr
  mask : t.tu.mask = s.tu.mask
  vp : t.vp = s.vp
  hw : t.hw = s.hw
  ow : t.ow = s.ow

/-- The tanks in use depend on the setup alone. -/
theorem SameFacts.tanksUsed {s t : State} (h : SameFacts s t) : t.tanksUsed = s.tanksUsed := by
  have hu : t.tankUsed = s.tankUsed := by
    funext n
    simp only [State.tankUsed, State.hasRole, State.role, h.sl]
  simp only [State.tanksUsed, hu]

/-- READY reads no more than the facts of its rules. -/
theorem SameFacts.ready {s t : State} (h : SameFacts s t) : t.readyNow = s.readyNow := by
  have hu := h.tanksUsed
  obtain ⟨h1, h2, h3, h4, h5, h6, h7, h8, h9⟩ := h
  simp only [State.readyNow, State.readyForRole, State.running, State.role, State.causePresentAtPu, State.causeActive,
    State.hasRole, State.allPresent, State.someSilent, State.aboveThreshold, State.aboveHardLimit, State.pressureRole,
    State.pressure, List.any_cons, List.any_nil, hu, h1, h2, h3, h4, h5, h6, h7, h8, h9]

/-- CLOSED reads no more than the facts of its rule. -/
theorem SameFacts.closed {s t : State} (h : SameFacts s t) : t.closedNow = s.closedNow := by
  simp only [State.closedNow, State.running, State.role, h.tanksUsed, h.station, h.sl, h.vp]

/-- R17: what follows the flags in `watch` changes nothing they read. -/
theorem State.watch_sameFacts (s : State) : SameFacts s.watchTimers s.watch := by
  constructor <;> simp [State.watch, State.watchFlags, State.watchCause, State.watchAlarms, State.sweepAlarms]

/-- R17: `watch` leaves READY and CLOSED as the rules give them. -/
theorem State.watch_flagsRight (s : State) : FlagsRight s.watch := by
  have hr : s.watch.pc.ready = s.watchTimers.readyNow := by
    simp [State.watch, State.watchFlags, State.watchCause, State.watchAlarms, State.sweepAlarms]
  have hc : s.watch.pc.closed = s.watchTimers.closedNow := by
    simp [State.watch, State.watchFlags, State.watchCause, State.watchAlarms, State.sweepAlarms]
  exact ⟨by rw [hr, ← s.watch_sameFacts.ready, State.readyNow_iff],
    by rw [hc, ← s.watch_sameFacts.closed, State.closedNow_iff]⟩

end Sys2Proof.Machine
end

