-- ==== Sys2Proof/Laws/Lines.lean ====
section
/-! SUPPORT. The place an ANSWER or DATA report finds (R202), and what the line operations leave alone. -/

namespace Sys2Proof.Machine

/-! ## Room for a reply -/

theorem dropNewestEvent_some {l m : List Queued} (h : dropNewestEvent l = some m) :
    m.length + 1 = l.length ∧ m.filter (fun q => !q.isEvent) = l.filter (fun q => !q.isEvent) := by
  induction l generalizing m with
  | nil => simp [dropNewestEvent] at h
  | cons q l ih =>
    unfold dropNewestEvent at h
    split at h
    · rename_i k hk
      obtain ⟨h1, h2⟩ := ih hk
      obtain rfl : q :: k = m := by simpa using h
      exact ⟨by simp [h1], by simp [List.filter_cons, h2]⟩
    · split at h
      · rename_i hq
        obtain rfl : l = m := by simpa using h
        exact ⟨rfl, by simp [hq]⟩
      · simp at h

theorem dropNewestEvent_none {l : List Queued} (h : dropNewestEvent l = none) : l.all (fun q => !q.isEvent) = true := by
  induction l with
  | nil => rfl
  | cons q l ih =>
    unfold dropNewestEvent at h
    split at h
    · simp at h
    · rename_i hl
      split at h
      · simp at h
      · rename_i hq
        simp_all

/-- R202: the queue after a reply is handed over. -/
theorem PanelPort.placeReply_spec (p : PanelPort) (r : Report) :
    (p.queue.length ≤ 8 → (p.placeReply r).queue.length ≤ 8)
      ∧ (p.placeReply r).buffer = p.buffer ∧ (p.placeReply r).overlong = p.overlong
      ∧ (p.placeReply r).mask = p.mask := by
  unfold PanelPort.placeReply
  split
  · rename_i h
    unfold queueLimit at h
    unfold PanelPort.append
    split
    · exact ⟨by simp, rfl, rfl, rfl⟩
    · exact ⟨by simp; omega, rfl, rfl, rfl⟩
  · split
    · exact ⟨id, rfl, rfl, rfl⟩
    · split
      · rename_i h
        have hl := (dropNewestEvent_some h).1
        refine ⟨?_, rfl, rfl, rfl⟩
        simp_all
      · exact ⟨id, rfl, rfl, rfl⟩

/-- R202: with room for it, a reply is the newest report, and the replies before it stay. -/
theorem PanelPort.placeReply_placed (p : PanelPort) (r : Report) (hr : ∀ e, r ≠ .event e) (h : p.owed + 1 ≤ 8)
    (hl : p.queue.length ≤ 8) :
    (∃ (l : List Queued) (m : Bool), (p.placeReply r).queue = l ++ [⟨r, m⟩])
      ∧ ((p.placeReply r).queue.filter fun q => !q.isEvent).length
          = (p.queue.filter fun q => !q.isEvent).length + 1 := by
  have hev : ∀ m, (Queued.mk r m).isEvent = false := by
    intro m
    cases r <;> first | rfl | exact absurd rfl (hr _)
  unfold PanelPort.placeReply
  split
  · unfold PanelPort.append
    split
    · rename_i he
      refine ⟨⟨[], p.lost, rfl⟩, ?_⟩
      have : p.queue = [] := by simpa using he
      simp [this, hev]
    · exact ⟨⟨p.queue, false, rfl⟩, by simp [hev]⟩
  · rename_i hfull
    unfold queueLimit at hfull
    split
    · rename_i hq
      simp [hq] at hfull
    · rename_i sent rest hq
      split
      · rename_i l hd
        refine ⟨⟨sent :: l, false, by simp⟩, ?_⟩
        have := (dropNewestEvent_some hd).2
        simp [hq, List.filter_cons, List.filter_append, this, hev]
        split <;> simp
      · rename_i hd
        exfalso
        have ha := dropNewestEvent_none hd
        rw [List.all_eq_true] at ha
        have hrest : (rest.filter fun q => !q.isEvent).length = rest.length := by
          rw [List.filter_eq_self.2 ha]
        have : p.owed = p.queue.length := by
          unfold PanelPort.owed
          cases hs : sent.isEvent <;> simp [hq, hs, hrest]
        omega

/-- R201, R202: an EVENT handed over is placed as the rules say. -/
theorem PanelPort.placeEvent_placed (p : PanelPort) (e : Event) : EventPlaced p (p.placeEvent e) e where
  masked h := by simp [PanelPort.placeEvent, h]
  room h hl := by
    have hq : p.queue.length < queueLimit := hl
    cases hn : p.queue.isEmpty
    · simp [PanelPort.placeEvent, PanelPort.append, h, hq, hn]
    · have : p.queue = [] := by simpa using hn
      simp [PanelPort.placeEvent, PanelPort.append, h, queueLimit, this]
  lost h hl := by
    have hq : ¬ p.queue.length < queueLimit := by unfold queueLimit; omega
    simp [PanelPort.placeEvent, h, hq]

/-- R202: the newest EVENT of a list is the one that goes. -/
theorem dropNewestEvent_newest (before after : List Queued) (e : Queued) (he : e.isEvent = true)
    (ha : ∀ x ∈ after, x.isEvent = false) : dropNewestEvent (before ++ e :: after) = some (before ++ after) := by
  have hn : dropNewestEvent after = none := by
    induction after with
    | nil => rfl
    | cons x l ih =>
      rw [dropNewestEvent, ih fun y hy => ha y (List.mem_cons_of_mem _ hy)]
      simp [ha x List.mem_cons_self]
  induction before with
  | nil => simp [dropNewestEvent, hn, he]
  | cons x l ih => simp [dropNewestEvent, ih]

/-- R202: an ANSWER or DATA report handed over is placed as the rule says. -/
theorem PanelPort.placeReply_replyPlaced (p : PanelPort) (r : Report) : ReplyPlaced p (p.placeReply r) r where
  room hl := by
    have hq : p.queue.length < queueLimit := hl
    cases hn : p.queue.isEmpty
    · simp [PanelPort.placeReply, PanelPort.append, hq, hn]
    · have : p.queue = [] := by simpa using hn
      simp [PanelPort.placeReply, PanelPort.append, this, queueLimit]
  full hl sending before e after h he ha := by
    have hq : ¬ p.queue.length < queueLimit := by unfold queueLimit; omega
    rw [PanelPort.placeReply, if_neg hq, h]
    simp only [dropNewestEvent_newest before after e he ha]

/-- Events alone do not take the room of a reply. -/
theorem PanelPort.owed_events {p q : PanelPort} {l : List Queued} (h : q.queue = p.queue ++ l)
    (hl : l.all Queued.isEvent = true) : q.owed ≤ max p.owed 1 := by
  have hf : (l.filter fun q => !q.isEvent) = [] := by
    rw [List.filter_eq_nil_iff]
    intro a ha
    simp [(List.all_eq_true.1 hl) a ha]
  unfold PanelPort.owed
  cases hp : p.queue with
  | nil =>
    rw [h, hp]
    simp only [List.nil_append, hf, List.length_nil, Nat.zero_add]
    split <;> simp
  | cons a k =>
    have hk : ((a :: k) ++ l).filter (fun q => !q.isEvent) = (a :: k).filter (fun q => !q.isEvent) := by
      rw [List.filter_append, hf, List.append_nil]
    rw [h, hp, hk]
    exact Nat.le_max_left _ _

/-- R202: at a line with room, the reply given after any events is the newest report. -/
theorem State.report_newest {s t : State} (r : Report) (hr : ∀ e, r ≠ .event e) (hs : s.lineFits = true)
    (he : EventsOnly s t) (hl : t.pp.queue.length ≤ 8) :
    NewestReport (t.report r) r ∧ (t.report r).pp.queue.length ≤ 8
      ∧ ((t.report r).pp.queue.filter fun q => !q.isEvent).length
          = (s.pp.queue.filter fun q => !q.isEvent).length + 1 := by
  obtain ⟨l, hq, ha⟩ := he
  have h1 : s.pp.owed + 1 ≤ 8 := by
    have := of_decide_eq_true hs
    unfold queueLimit at this
    omega
  have h2 := PanelPort.owed_events hq ha
  obtain ⟨hn, hc⟩ := t.pp.placeReply_placed r hr (by omega) hl
  refine ⟨hn, (t.pp.placeReply_spec r).1 hl, hc.trans ?_⟩
  have hf : (l.filter fun q => !q.isEvent) = [] := by
    rw [List.filter_eq_nil_iff]
    intro a hm
    simp [(List.all_eq_true.1 ha) a hm]
  rw [hq, List.filter_append, hf, List.append_nil]

theorem State.report_frame (s : State) (r : Report) : Frame [.reports] s (s.report r) := by
  obtain ⟨_, h1, h2, h3⟩ := s.pp.placeReply_spec r
  intro p hp
  cases p <;> first | exact absurd (by decide) hp | simp [Part.same, State.report, h1, h2, h3]

theorem State.report_sound {s : State} (r : Report) (h : Sound s) : Sound (s.report r) :=
  ⟨(s.pp.placeReply_spec r).1 h.queue, h.counts, h.alarms, h.channels⟩

/-! ## The lines -/

theorem State.acknowledge_keeps (s : State) : Keeps [.alarms, .reports] s s.acknowledge :=
  s.drive_keeps _ _ fun h => (alarmAcknowledge_keys s.an.set).nodup h

theorem State.discardLine_frame (s : State) : Frame [.reports] s s.discardLine := by
  intro p hp
  cases p <;> first | exact absurd (by decide) hp | simp [Part.same, State.discardLine]

end Sys2Proof.Machine
end

