-- ==== Sys2Proof/Laws/Roster.lean ====
section
/-! SUPPORT. What the roster's operations do to the table: its twelve places and one entry for a station (R27 to R37). -/

namespace Sys2Proof.Machine

/-- R27 of a table alone. -/
def tableOk (l : List Entry) : Prop := l.length ≤ 12 ∧ (l.map Entry.number).Nodup

theorem RosterOk.iff (s : State) : RosterOk s ↔ tableOk s.sr.entries := ⟨fun h => ⟨h.1, h.2⟩, fun h => ⟨h.1, h.2⟩⟩

theorem Roster.without_ok (r : Roster) (n : Nat) (h : tableOk r.entries) :
    tableOk (r.without n) ∧ n ∉ (r.without n).map Entry.number := by
  refine ⟨⟨(List.length_filter_le _ _).trans h.1, (List.filter_sublist.map _).nodup h.2⟩, ?_⟩
  simp [Roster.without]

theorem Roster.find_some {r : Roster} {n : Nat} {e : Entry} (h : r.find n = some e) : e ∈ r.entries ∧ e.number = n := by
  unfold Roster.find at h
  exact ⟨List.mem_of_find?_eq_some h, by simpa using List.find?_some h⟩

theorem Roster.find_none {r : Roster} {n : Nat} (h : r.find n = none) : n ∉ r.entries.map Entry.number := by
  unfold Roster.find at h
  simpa using h

theorem Roster.without_shorter {r : Roster} {n : Nat} (h : n ∈ r.entries.map Entry.number) :
    (r.without n).length < r.entries.length := by
  unfold Roster.without
  obtain ⟨e, he, rfl⟩ := List.mem_map.1 h
  refine List.length_filter_lt_length_iff_exists.2 ⟨e, he, by simp⟩

/-- R31: an entry admitted. -/
theorem Roster.takeIn_ok {r : Roster} (n : Nat) (h : tableOk r.entries) : tableOk (r.takeIn n).1.entries := by
  unfold Roster.takeIn
  split
  · exact h
  · rename_i hf
    have hn : n ∉ r.entries.map Entry.number := Roster.find_none (by simpa using hf)
    split
    · rename_i hl
      unfold rosterPlaces at hl
      exact ⟨by simpa using hl, by simpa [Entry.fresh] using ⟨by simpa using hn, h.2⟩⟩
    · split
      · rename_i v hv
        have hv' : v ∈ r.entries.map Entry.number := by
          unfold Roster.victim at hv
          cases hf2 : r.entries.reverse.find? fun e => !e.protected' with
          | none => simp [hf2] at hv
          | some e =>
            have := List.mem_of_find?_eq_some hf2
            simp only [hf2, Option.map_some, Option.some.injEq] at hv
            exact List.mem_map.2 ⟨e, by simpa using this, hv⟩
        have hs := Roster.without_shorter hv'
        have hw := (r.without_ok v h).1
        refine ⟨?_, ?_⟩
        · have := h.1
          simp only [List.length_cons]
          omega
        · simp only [List.map_cons, List.nodup_cons, Entry.fresh]
          refine ⟨fun hm => hn ?_, hw.2⟩
          exact (List.filter_sublist.map _).subset hm
      · exact h

/-- R28, R31: with at most eight protected entries the table takes every sender in. -/
theorem tableTakes_of_protected {s : State} (n : Nat) (h : (s.sr.entries.filter (·.protected')).length ≤ 8) :
    TableTakes s n := by
  by_cases hl : s.sr.entries.length < 12
  · exact .inr (.inl hl)
  · refine .inr (.inr ?_)
    by_contra hn
    have hall : s.sr.entries.filter (·.protected') = s.sr.entries := by
      refine List.filter_eq_self.2 fun e he => ?_
      by_contra hp
      exact hn ⟨e, he, by simpa using hp⟩
    rw [hall] at h
    omega

/-- R31: a table that takes the sender in holds its entry. -/
theorem Roster.takeIn_find {s : State} {n : Nat} (h : TableTakes s n) : ((s.sr.takeIn n).1.find n).isSome = true := by
  have hc : ∀ l : List Entry, (Roster.find { s.sr with entries := Entry.fresh n :: l } n).isSome = true := by
    intro l
    simp [Roster.find, Entry.fresh]
  unfold Roster.takeIn
  split
  · assumption
  · rename_i hf
    split
    · exact hc _
    · rename_i hl
      split
      · exact hc _
      · rename_i hv
        rcases h with h | h | ⟨e, he, hp⟩
        · exact absurd h hf
        · exact absurd h hl
        · exfalso
          unfold Roster.victim at hv
          simp only [Option.map_eq_none_iff, List.find?_eq_none, List.mem_reverse] at hv
          exact hv e he (by simp [hp])

/-- R32: a frame taken into the sender's entry. -/
theorem Roster.takeFrame_ok {r : Roster} (n : Nat) (role : Role) (st : Option Status) (h : tableOk r.entries) :
    tableOk (r.takeFrame n role st).1.entries := by
  unfold Roster.takeFrame
  split
  · rename_i e he
    obtain ⟨hm, hn⟩ := Roster.find_some he
    have hw := r.without_ok n h
    have hs := Roster.without_shorter (r := r) (List.mem_map.2 ⟨e, hm, hn⟩)
    refine ⟨?_, ?_⟩
    · have := h.1
      simp only [List.length_cons]
      omega
    · simp only [List.map_cons, List.nodup_cons]
      exact ⟨by simpa [Entry.takeFrame, hn] using hw.2, hw.1.2⟩
  · exact h

/-- R35: one entry replaced where it stands. -/
theorem Roster.replace_ok {r : Roster} (e : Entry) (h : tableOk r.entries) : tableOk (r.replace e).entries := by
  have hm : (r.replace e).entries.map Entry.number = r.entries.map Entry.number := by
    unfold Roster.replace
    rw [List.map_map]
    refine List.map_congr_left fun x _ => ?_
    by_cases hx : x.number = e.number <;> simp [hx]
  exact ⟨by simpa [Roster.replace] using h.1, hm ▸ h.2⟩

/-- R28: the protected entries of a line-up list. -/
theorem protectedNumbers_spec (own : Nat) (l : List Nat) :
    (protectedNumbers own l).Nodup ∧ (protectedNumbers own l).length ≤ l.length
      ∧ ∀ n, n ∈ protectedNumbers own l ↔ n ∈ l ∧ n ≠ 0 ∧ n ≠ own := by
  induction l with
  | nil => simp [protectedNumbers]
  | cons a l ih =>
    obtain ⟨h1, h2, h3⟩ := ih
    unfold protectedNumbers
    split
    · rename_i ha
      refine ⟨h1, by simp; omega, fun n => ?_⟩
      rw [h3]
      constructor
      · rintro ⟨x, y, z⟩
        exact ⟨List.mem_cons_of_mem _ x, y, z⟩
      · rintro ⟨x, y, z⟩
        refine ⟨?_, y, z⟩
        rcases List.mem_cons.1 x with rfl | x
        · rcases ha with ha | ha
          · exact absurd ha y
          · exact absurd ha z
        · exact x
    · rename_i ha
      refine ⟨?_, ?_, fun n => ?_⟩
      · rw [List.nodup_cons]
        exact ⟨by simp, h1.filter _⟩
      · have := List.length_filter_le (fun m => m != a) (protectedNumbers own l)
        simp only [List.length_cons]
        omega
      · simp only [List.mem_cons, List.mem_filter, h3, bne_iff_ne]
        by_cases hn : n = a
        · subst hn
          simp only [true_or, true_and, true_iff]
          exact ⟨fun h => ha (.inl h), fun h => ha (.inr h)⟩
        · simp [hn]

theorem State.putRoster_keeps (s : State) (r : Roster) : Keeps [.roster] s { s with sr := r } := by
  refine Keeps.pure ?_ rfl rfl rfl rfl rfl
  intro p hp
  cases p <;> first | exact absurd (by decide) hp | simp [Part.same]

/-- R29: a frame entered in the roster. -/
theorem State.enterFrame_keeps (s : State) (r : Received) : Keeps [.roster, .reports] s (s.enterFrame r) :=
  ((s.putRoster_keeps _).mono (by decide)).trans ((State.emitAll_keeps _ _).mono (by decide))

theorem State.enterFrame_ok {s : State} (r : Received) (h : RosterOk s) : RosterOk (s.enterFrame r) := by
  rw [RosterOk.iff] at h ⊢
  exact Roster.takeFrame_ok _ _ _ (Roster.takeIn_ok _ h)

/-- R69: a frame offered as a remote trip. -/
theorem State.offerTrip_keeps (s : State) (r : Received) : Keeps cascadeParts s (s.offerTrip r) := by
  unfold State.offerTrip
  split
  · exact (s.honour_keeps _ _ _).iteSelf
  · exact .refl _ s

theorem State.takeClash_keeps (s : State) (r : Received) : Keeps cascadeParts s (s.takeClash r) := by
  unfold State.takeClash
  refine Keeps.trans (Keeps.trans ?_ (State.handCause_keeps _ _ _)) (State.offerTrip_keeps _ _)
  exact ((s.emit_keeps _).trans (State.emit_keeps _ _)).mono (by decide)

theorem State.takePuStatus_keeps (s : State) (e : Option Entry) (st : Status) :
    Keeps [.pressure, .record, .reports] s (s.takePuStatus e st) :=
  ((s.movementIf_keeps _).mono (by decide)).trans ((State.takePuFigures_keeps _ _).mono (by decide))

theorem State.takeStatus_keeps (s : State) (h : Header) (e : Option Entry) (st : Status) :
    Keeps followParts s (s.takeStatus h e st) :=
  Keeps.iteSelf ((s.followPu_keeps _ _).trans ((State.takePuStatus_keeps _ _ _).mono (by decide)))

end Sys2Proof.Machine
end

