-- ==== Sys2Proof/Laws/Link.lean ====
section
/-! SUPPORT. What the Link Controller's operations do: the assembly slot (R169), the moves between slots (R168), and the
end of an attempt (R164 to R166). -/

namespace Sys2Proof.Machine

/-! ## The assembly slot -/

/-- R169: a slot in HUNTING or BUILDING holds at most 64 bytes after every character. -/
theorem Assembly.take_length (a : Assembly) (c : LineChar) (b : Bool) (h : a.bytes.length ≤ 64) :
    (a.take c b).1.bytes.length ≤ 64 := by
  have hadd : ∀ x, (a.add x).1.bytes.length ≤ 64 := by
    intro x
    unfold Assembly.add
    split
    · rename_i hl
      unfold frameLimit at hl
      simpa using hl
    · simp [Assembly.hunt]
  unfold Assembly.take
  split
  · exact h
  · split
    · split
      · split
        · exact hadd _
        · exact h
      · exact h
    · split
      · split
        · simp [Assembly.begin]
        · simp [Assembly.begin]
        · exact h
      · split
        · exact hadd _
        · exact h

/-- R169, R170: while the station sends, the slot gives no event but that of a frame abandoned. -/
theorem Assembly.take_event (a : Assembly) (c : LineChar) :
    (a.take c true).2 = none ∨ ∃ r, (a.take c true).2 = some (.frameLost r none none) := by
  have hadd : ∀ x, (a.add x).2 = none ∨ ∃ r, (a.add x).2 = some (.frameLost r none none) := by
    intro x
    unfold Assembly.add
    split <;> simp
  unfold Assembly.take
  split
  · simp
  · split
    · split
      · split
        · exact hadd _
        · simp
      · simp
    · split
      · split <;> simp
      · split
        · exact hadd _
        · simp

/-! ## The slots -/

/-- The Link Controller with its receive slots replaced. -/
theorem State.putSlots_keeps (s : State) (l : LinkController)
    (h : l.line = s.lc.line ∧ l.idle = s.lc.idle ∧ l.trip = s.lc.trip ∧ l.answer = s.lc.answer
      ∧ l.request = s.lc.request ∧ l.status = s.lc.status ∧ l.attempt = s.lc.attempt
      ∧ l.heartbeat = s.lc.heartbeat) : Keeps [.receive] s { s with lc := l } := by
  obtain ⟨h1, h2, h3, h4, h5, h6, h7, h8⟩ := h
  refine ⟨?_, fun k => ⟨k.queue, ?_, k.alarms, k.channels⟩, .refl s, ?_⟩
  · intro p hp
    cases p <;> first | exact absurd (by decide) hp | simp [Part.same, *]
  · simpa [LinkController.countsOk, h3, h4, h5, h6] using k.counts
  · intro hq hn
    simpa [h3, h4, h5, h6, h7] using hq hn

theorem LinkController.toDelivery_same (l : LinkController) :
    l.toDelivery.line = l.line ∧ l.toDelivery.idle = l.idle ∧ l.toDelivery.trip = l.trip
      ∧ l.toDelivery.answer = l.answer ∧ l.toDelivery.request = l.request ∧ l.toDelivery.status = l.status
      ∧ l.toDelivery.attempt = l.attempt ∧ l.toDelivery.heartbeat = l.heartbeat := by
  unfold LinkController.toDelivery
  split <;> simp

theorem LinkController.toCheck_same (l : LinkController) :
    l.toCheck.1.line = l.line ∧ l.toCheck.1.idle = l.idle ∧ l.toCheck.1.trip = l.trip
      ∧ l.toCheck.1.answer = l.answer ∧ l.toCheck.1.request = l.request ∧ l.toCheck.1.status = l.status
      ∧ l.toCheck.1.attempt = l.attempt ∧ l.toCheck.1.heartbeat = l.heartbeat := by
  unfold LinkController.toCheck
  split
  · split <;> simp
  · simp

/-- R168: the moves between the slots. -/
theorem State.moveSlots_keeps (s : State) : Keeps [.receive, .reports] s s.moveSlots := by
  unfold State.moveSlots
  dsimp only
  refine Keeps.trans ((s.putSlots_keeps _ ?_).mono (by decide)) ((State.emitAll_keeps _ _).mono (by decide))
  obtain ⟨a1, a2, a3, a4, a5, a6, a7, a8⟩ := s.lc.toDelivery.toCheck.1.toDelivery_same
  obtain ⟨b1, b2, b3, b4, b5, b6, b7, b8⟩ := s.lc.toDelivery.toCheck_same
  obtain ⟨c1, c2, c3, c4, c5, c6, c7, c8⟩ := s.lc.toDelivery_same
  exact ⟨a1.trans (b1.trans c1), a2.trans (b2.trans c2), a3.trans (b3.trans c3), a4.trans (b4.trans c4),
    a5.trans (b5.trans c5), a6.trans (b6.trans c6), a7.trans (b7.trans c7), a8.trans (b8.trans c8)⟩

/-! ## The end of an attempt -/

/-- R164: a place after a successful attempt keeps its bound. -/
theorem LinkController.succeed_counts (l : LinkController) (a : Attempt) (h : l.countsOk) : (l.succeed a).countsOk := by
  have h1 : (l.setPlace a.kind ((l.place a.kind).bind (Place.afterSuccess a.kind))).countsOk := by
    apply LinkController.setPlace_counts _ _ _ _ h
    intro q hq
    obtain ⟨p, _, hp⟩ := Option.bind_eq_some_iff.1 hq
    unfold Place.afterSuccess at hp
    split at hp
    · split at hp
      · obtain rfl : _ = q := by simpa using hp
        simp
      · simp at hp
    · split at hp
      · obtain rfl : _ = q := by simpa using hp
        simp
      · simp at hp
    · simp at hp
    · simp at hp
  unfold LinkController.succeed
  dsimp only
  split
  · exact h
  · exact h1

/-- R165, R166: a place after a failed attempt keeps its bound. -/
theorem LinkController.fail_counts (l : LinkController) (a : Attempt) (h : l.countsOk) : (l.fail a).countsOk := by
  have h1 : (l.setPlace a.kind ((l.place a.kind).bind (Place.afterFailure a.kind))).countsOk := by
    apply LinkController.setPlace_counts _ _ _ _ h
    intro q hq
    obtain ⟨p, _, hp⟩ := Option.bind_eq_some_iff.1 hq
    unfold Place.afterFailure attemptLimit at hp
    split at hp
    · obtain rfl : _ = q := by simpa using hp
      simp_all
    · split at hp
      · obtain rfl : _ = q := by simpa using hp
        simp_all
        omega
      · split at hp
        · obtain rfl : _ = q := by simpa using hp
          simp
        · simp at hp
  unfold LinkController.fail
  dsimp only
  split
  · exact h
  · exact h1

/-- R165: what a mismatch does to the Link Controller. -/
theorem State.mismatch_lc (s : State) (a : Attempt) : (s.mismatch a).lc = s.lc.fail a := by
  unfold State.mismatch State.endNoAnswer
  dsimp only
  split
  · split <;> [split <;> [split <;> rfl; rfl]; rfl]
  · rfl

/-- R165, R166, R52: a mismatch that drops no frame changes the Link Controller alone; one that does gives the LINK event,
and ends the outstanding request where the frame was its REQUEST. -/
theorem State.mismatch_cases (s : State) (a : Attempt) :
    (s.mismatch a = { s with lc := s.lc.fail a }
        ∧ ∀ p, a.detached = false → s.lc.place a.kind = some p → p.drops a.kind = false)
      ∨ ∃ p, a.detached = false ∧ s.lc.place a.kind = some p ∧ p.drops a.kind = true
        ∧ (a.kind ≠ .request → s.mismatch a = ({ s with lc := s.lc.fail a }.emit (.dropped a.kind p.number)))
        ∧ (a.kind = .request →
            s.mismatch a = ({ s with lc := s.lc.fail a }.emit (.dropped a.kind p.number)).endNoAnswer) := by
  unfold State.mismatch
  dsimp only
  split
  · rename_i p hd hp
    cases hdrop : p.drops a.kind
    · refine .inl ⟨by simp, fun q _ hq => ?_⟩
      rw [hp] at hq
      cases hq
      exact hdrop
    · exact .inr ⟨p, hd, hp, hdrop, fun hk => by simp [hk], fun hk => by simp [hk]⟩
  · rename_i hn
    exact .inl ⟨rfl, fun p hd hp => absurd hp (hn p hd)⟩

/-- R165, R166, R52: what a mismatch leaves alone. -/
theorem State.mismatch_frame (s : State) (a : Attempt) : Frame [.receive, .frames, .requests, .reports] s (s.mismatch a) := by
  have h0 : Frame [.receive, .frames, .requests, .reports] s { s with lc := s.lc.fail a } := by
    have hb : (s.lc.fail a).heartbeat = s.lc.heartbeat := by
      unfold LinkController.fail
      dsimp only
      split <;> simp
    intro p hp
    cases p <;> first | exact absurd (by decide) hp | simp [Part.same, hb]
  have hn : ∀ t : State, Frame [.receive, .frames, .requests, .reports] t t.endNoAnswer := by
    intro t
    unfold State.endNoAnswer
    split
    · refine Frame.trans ?_ ((State.report_frame _ _).mono (by decide))
      intro p hp
      cases p <;> first | exact absurd (by decide) hp | simp [Part.same]
    · exact .refl _ t
  unfold State.mismatch
  dsimp only
  split
  · split
    · split
      · exact (h0.trans ((State.emit_keeps _ _).frame.mono (by decide))).trans (hn _)
      · exact h0.trans ((State.emit_keeps _ _).frame.mono (by decide))
    · exact h0
  · exact h0

/-- R193: entry to OFFLINE keeps the sound shape. -/
theorem State.enterOffline_sound {s : State} (f : FaultRecord) (h : Sound s) : Sound (s.enterOffline f) := by
  refine (State.watch_keeps _).sound ⟨h.queue, ?_, h.alarms, ?_⟩
  · simp [LinkController.offline, LinkController.start, LinkController.countsOk]
  · intro n
    have hc := h.channels n
    dsimp only [ValvePump.offline]
    rw [Quad.get_map]
    exact ⟨hc.opening, hc.closing, hc.commanded, hc.pending, by simp, by simp⟩

end Sys2Proof.Machine
end

