-- ==== Sys2Proof/Laws/Reports.lean ====
section
/-! SUPPORT. What the text of a report can be (R199): one line for an ANSWER or EVENT, the first line and END of a DATA
report, the line ends, and the command words as they are read back. -/

namespace Sys2Proof.Machine

/-- R198: a command word is read back as itself. -/
theorem CommandWord.parse_text (c : CommandWord) : parseCommandWord c.text = some c := by
  rcases c with k | _
  · cases k <;> decide
  all_goals decide

/-- R199: a class name is read back as itself. -/
theorem parseClass_classText (c : EventClass) : parseClass (classText c) = some c := by cases c <;> decide

/-- R199: an ANSWER is one line. -/
theorem Report.lines_answer (w : Option CommandWord) (n : Option (BitVec 8)) (o : PanelOutcome) (name : AnswerName) :
    ∃ l, (Report.answer w n o name).lines = [word ['A', 'N', 'S', 'W', 'E', 'R'] :: l] := ⟨_, rfl⟩

/-- R199: an EVENT is one line. -/
theorem Report.lines_event (e : Event) :
    (Report.event e).lines = [[word ['E', 'V', 'E', 'N', 'T'], classText e.cls, Config.eventText e]] := rfl

/-- R203: what a block that holds nothing answers. -/
theorem DataBody.lines_nothing : DataBody.nothing.lines = [[wordNone]] := rfl

/-- R199: the lines of any other DATA report. -/
theorem DataBody.lines_of_ne (d : DataBody) (h : d ≠ .nothing) :
    d.lines = [word ['D', 'A', 'T', 'A'], d.item] :: (d.entries.map (fun l => [l]) ++ [[word ['E', 'N', 'D']]]) := by
  simp [DataBody.lines, h]

/-- Every report has a first line. -/
theorem Report.lines_ne_nil (r : Report) : r.lines ≠ [] := by
  cases r with
  | data d =>
    by_cases h : d = .nothing
    · simp [Report.lines, DataBody.lines, h]
    · simp [Report.lines, d.lines_of_ne h]
  | _ => simp [Report.lines]

/-- R199: without the mark a report is sent as its lines. -/
@[simp] theorem Queued.lines_plain (r : Report) : (Queued.mk r false).lines = r.lines := rfl

/-- R199: with the mark its first line begins with LOST. -/
@[simp] theorem Queued.lines_lost (r : Report) :
    (Queued.mk r true).lines = leadWith (word ['L', 'O', 'S', 'T']) r.lines := rfl

end Sys2Proof.Machine
end

