-- ==== Sys2Proof/Laws/Setup.lean ====
section
/-! SUPPORT. The periods of the serial read (R188), and what a setup image that passes every check of R190 holds. -/

namespace Sys2Proof.Machine

/-! ## The serial read (R188) -/

@[simp] theorem bitLevels_length (b : Byte) : (bitLevels b).length = 8 := rfl

theorem bitLevels_getElem? (b : Byte) (j : Nat) (h : j < 8) : (bitLevels b)[j]? = some (b.getLsbD (7 - j)) := by
  interval_cases j <;> rfl

theorem flatMap_bitLevels_length (l : List Byte) : (l.flatMap bitLevels).length = 8 * l.length := by
  induction l with
  | nil => rfl
  | cons b l ih => simp [ih]; omega

/-- Bit 7 - j of byte i stands at place 8 i + j. -/
theorem flatMap_bitLevels_getElem? (l : List Byte) (i j : Nat) (hi : i < l.length) (hj : j < 8) :
    (l.flatMap bitLevels)[8 * i + j]? = some (l[i].getLsbD (7 - j)) := by
  induction l generalizing i with
  | nil => simp at hi
  | cons b l ih =>
    rw [List.flatMap_cons]
    cases i with
    | zero =>
      rw [List.getElem?_append_left (by simpa using hj)]
      simpa using bitLevels_getElem? b j hj
    | succ i =>
      rw [List.getElem?_append_right (by simp; omega)]
      have hs : 8 * (i + 1) + j - (bitLevels b).length = 8 * i + j := by simp; omega
      rw [hs]
      simpa using ih i (by simpa using hi)

/-- R188: what the periods of a read are. -/
theorem serialRead_of (image : Image) : SerialReadOf image (serialRead image.toList) where
  periods := by
    simp only [serialRead, List.length_append, List.length_map, flatMap_bitLevels_length, Vector.length_toList]
    rfl
  sent := by
    rw [serialRead, List.take_append_of_le_length (by rw [List.length_map, flatMap_bitLevels_length]; decide)]
    decide
  taken i j hj := by
    have hl : ((smSentBytes.flatMap bitLevels).map SmPeriod.sent).length = 24 := by decide
    rw [serialRead, List.getElem?_append_right (by omega), hl, List.getElem?_map]
    have hs : 24 + 8 * i.val + j - 24 = 8 * i.val + j := by omega
    rw [hs, flatMap_bitLevels_getElem? _ _ _ (by simp) hj]
    simp

/-! ## The checks (R190) -/

/-- One byte as a number. -/
theorem numAt_one (l : List Byte) (o : Nat) : numAt l o 1 = byteAt l o := by
  unfold numAt byteAt slice
  have h : l[o]? = (l.drop o)[0]? := by simp
  rw [List.getD_eq_getElem?_getD, h]
  cases l.drop o <;> simp [ofBytes]

/-- R190: an image that no check fails. -/
theorem setupFailure_none {l : List Byte} {r : Role} (h : setupFailure l r = none) :
    (frameCheck (l.take 84)).toNat = numAt l 84 2
      ∧ (r = .tw → 1 ≤ byteAt l 10 ∧ byteAt l 10 ≤ 4)
      ∧ (∀ f ∈ usedFields r (byteAt l 10), f.low ≤ numAt l f.offset f.width ∧ numAt l f.offset f.width ≤ f.high)
      ∧ (r = .tw → ∀ i, i < byteAt l 10 → tankFailure l i = none) := by
  unfold setupFailure at h
  dsimp only at h
  split at h
  · simp at h
  · rename_i h1
    split at h
    · simp at h
    · rename_i h2
      split at h
      · simp at h
      · rename_i h3
        split at h
        · simp at h
        · rename_i h4
          refine ⟨by simpa using h1, fun hr => ?_, fun f hf => ?_, fun hr i hi => ?_⟩
          · subst hr
            simp only [true_and, not_or, not_lt] at h2
            exact h2
          · have := List.find?_eq_none.1 h3 f hf
            simpa [Field.ok] using this
          · subst hr
            rw [List.findSome?_eq_none_iff] at h4
            exact h4 i (by simpa using hi)

/-- R190, R106: the rated pressure and the surge code of a station with a pressure watch are in range. -/
theorem setupFailure_pressure {l : List Byte} {r : Role} (h : setupFailure l r = none) (hr : r.pressure = true) :
    200 ≤ numAt l 14 2 ∧ numAt l 14 2 ≤ 2500 ∧ 1 ≤ byteAt l 16 ∧ byteAt l 16 ≤ 25 := by
  have hf := (setupFailure_none h).2.2.1
  have h1 := hf ⟨14, 2, 200, 2500⟩ (by simp [usedFields, Field.when, hr])
  have h2 := hf ⟨16, 1, 1, 25⟩ (by simp [usedFields, Field.when, hr])
  rw [numAt_one] at h2
  exact ⟨h1.1, h1.2, h2.1, h2.2⟩

/-- R190, R139: the meter factor of PU is in range. -/
theorem setupFailure_meter {l : List Byte} (h : setupFailure l .pu = none) :
    1 ≤ numAt l 35 2 ∧ numAt l 35 2 ≤ 32767 :=
  (setupFailure_none h).2.2.1 ⟨35, 2, 1, 32767⟩ (by simp [usedFields, Field.when])

end Sys2Proof.Machine
end

