-- ==== Sys2Proof/Laws/Startup.lean ====
section
/-! SUPPORT. What the start-up commands do, case by case (R186 to R194). -/

namespace Sys2Proof.Machine

/-- R188, R192: an image that passes every check is frozen. -/
theorem execSetupRead_accepted {s : State} {image : Image} {r : Role} (hs : s.sl.step = .read) (hr : s.role = some r)
    (h : setupFailure image.toList r = none) :
    exec (.setupRead image) s
      = .next ((s.takeImage image).freeze r (freezeSetup image.toList r)) := by
  simp only [exec, execSetupRead, hs, hr, State.checkSetup, h]

/-- R190, R191: an image that fails a check is rejected. -/
theorem execSetupRead_rejected {s : State} {image : Image} {r : Role} {c o : Nat} (hs : s.sl.step = .read)
    (hr : s.role = some r) (h : setupFailure image.toList r = some (c, o)) :
    exec (.setupRead image) s
      = .next ((s.takeImage image).reject (.setup c o)) := by
  simp only [exec, execSetupRead, hs, hr, State.checkSetup, h]

/-- R187: valid straps. -/
theorem execResetInOff_accepted {s : State} {sn : BitVec 4} {rl : BitVec 3} {r : Role} (hs : s.sl.step = .hold)
    (hn : sn ≠ 0) (hr : Role.ofCode rl.toNat = some r) :
    exec (.resetInOff sn rl) s
      = .next { s with
          inputs := { s.inputs with resetIn := false }
          sl := { s.sl with step := .read, sn := sn, rl := rl }
          vp := s.vp.forRole r } := by
  simp only [exec, execResetInOff, hs, State.readStraps, hn, hr, if_true, if_false]

/-- The levels are computed at a station with a pressure watch, and left as they stand at another (R106). -/
theorem HoseWatch.join_levels (h : HoseWatch) (r : Role) (c : Setup) :
    (h.join r c).surgeThreshold = (if r.pressure then c.surgeThreshold else h.surgeThreshold)
      ∧ (h.join r c).hardLimit = (if r.pressure then c.hardLimit else h.hardLimit)
      ∧ (h.join r c).settleLevel = (if r.pressure then c.settleLevel else h.settleLevel) := by
  have hset : ∀ k : HoseWatch, k.startSet.surgeThreshold = k.surgeThreshold ∧ k.startSet.hardLimit = k.hardLimit
      ∧ k.startSet.settleLevel = k.settleLevel := by
    intro k
    unfold HoseWatch.startSet
    split <;> exact ⟨rfl, rfl, rfl⟩
  exact hset _

end Sys2Proof.Machine
end

