-- ==== Sys2Proof/Tests/Slice0.lean ====
section
/-! SUPPORT. The author's own tests: the checks of WellFormed, numbers of the manual's examples, the manual's worked
transfers step by step, and for each statement states and operands that meet its hypotheses. -/

namespace Sys2Proof.Tests

open Sys2Proof.Machine

/-! ## States to test on -/

/-- A setup: 1 s silence, rated 1,000 kPa at code 9, two tanks, K = 7. -/
def conf : Setup :=
  { Setup.start with
    silence := 1000, lineup := [2, 3, 5, 6, 9, 0, 0, 0], tankCount := 2, holdOff := 10, startLimit := 60, rated := 1000
    surgeCode := 9, surgeQual := 500, allowance := 2, relax := 20, leakBand := 100, leakQual := 2000
    travel := .fill 60, span := .fill 2500, meterK := 7, quantityTol := 100, mismatchTol := 1000
    toppingMargin := 20000, tanks := .fill ⟨11000, 11600, 12000, 12400, 14⟩ }

/-- A RUNNING station of a role and number in a phase, with its scan channels enabled. -/
def station (r : Role) (n : BitVec 4) (p : Phase) : State :=
  { State.reset with
    inputs := { Inputs.start with resetIn := false }
    sl := { SetupLoader.start with step := .frozen, sn := n, rl := BitVec.ofNat 3 r.code, setup := conf }
    pc := { PhaseController.start with station := .running, phase := p }
    hw := { HoseWatch.start with
      chans := ⟨⟨r != .mn, 2500, none, some 50, false, 0, 0⟩, ⟨r == .tw, 2500, none, some 50, false, 0, 0⟩, .start, .start⟩
      surgeThreshold := 1500, hardLimit := 1650, settleLevel := 100 }
    lc := { LinkController.start with heartbeat := .fromZero } }

/-- PU, station 1. -/
def pu (p : Phase) : State := station .pu 1 p
/-- BV, station 2. -/
def bv (p : Phase) : State := station .bv 2 p
/-- SV, station 3. -/
def sv (p : Phase) : State := station .sv 3 p
/-- TW, station 5, with two tanks. -/
def tw (p : Phase) : State := station .tw 5 p
/-- MN, station 9. -/
def mn (p : Phase) : State := station .mn 9 p

/-- A STATUS of a phase with a body, and nothing else set. -/
def shows (p : Phase) (b : RoleBody) : Status := ⟨0, 0, p, false, false, false, false, false, none, 0, b⟩

/-- PU's body with a pump state. -/
def puBody (p : PumpState) : RoleBody := .pu p 0 true 0 .none 0 0

/-- A TW body with a receipt state and one tank. -/
def twBody (r : ReceiptState) (t : TankState) : RoleBody := .tw r 0 [⟨t, 100, true⟩]

/-- A protected PRESENT entry that shows a STATUS. -/
def peer (n : Nat) (r : Role) (st : Status) : Entry := ⟨n, some r, true, .present, 0, some st⟩

/-- The station with some entries. -/
def withPeers (s : State) (l : List Entry) : State := { s with sr := { s.sr with entries := l } }

/-- The station with a frame in the delivery slot. -/
def withFrame (s : State) (l : List Byte) : State := { s with lc := { s.lc with delivery := some l } }

/-- The station with a step in hand. -/
def withHand (s : State) (p : Phase) : State := { s with pc := { s.pc with inHand := some ⟨p, s.pc.gen, .fromZero⟩ } }

/-- The station in JOINING. -/
def joining (s : State) : State := { s with pc := { PhaseController.start with station := .joining } }

/-- The state a command gives. -/
def after (c : Instr) (s : State) : State :=
  match exec c s with
  | .next t => t
  | _ => s

/-! ## WellFormed: an ill-formed command for each check -/

theorem test_wellFormed_nominate : (Instr.nominate 4294967295 4294967295).wellFormed = true
    ∧ (Instr.nominate 4294967296 1).wellFormed = false ∧ (Instr.nominate 1 4294967296).wellFormed = false := by decide

theorem test_wellFormed_tanks : (Instr.assign 4).wellFormed = true ∧ (Instr.assign 0).wellFormed = false
    ∧ (Instr.assign 5).wellFormed = false ∧ (Instr.unassign 5).wellFormed = false := by decide

theorem test_wellFormed_reads : (Instr.readRoster none).wellFormed = true ∧ (Instr.readRoster (some 15)).wellFormed = true
    ∧ (Instr.readRoster (some 16)).wellFormed = false ∧ (Instr.readRoster (some 0)).wellFormed = false
    ∧ (Instr.readValve (some 5)).wellFormed = false ∧ (Instr.readTank (some 0)).wellFormed = false := by decide

theorem test_wellFormed_limits : (Instr.silenceLimit 1).wellFormed = true ∧ (Instr.silenceLimit 0).wellFormed = false
    ∧ (Instr.removalLimit 16).wellFormed = false := by decide

/-! ## Numbers of the manual -/

/-- R161: the reference value. -/
theorem test_frameCheck :
    frameCheck [0x31, 0x32, 0x33, 0x34, 0x35, 0x36, 0x37, 0x38, 0x39] = 0x29B1#16 := by decide +kernel

/-- R160: the mark byte is sent twice inside a frame. -/
theorem test_onLine : onLine [0x01, 0xD3, 0x02] = [0xD3, 0x01, 0xD3, 0xD3, 0x02] := by decide

/-- R188: 0B1H and 0000H sent and a byte 81H taken, most significant bit first. -/
theorem test_serialRead :
    serialRead [0x81] = ([true, false, true, true, false, false, false, true] ++ List.replicate 16 false).map SmPeriod.sent
      ++ [true, false, false, false, false, false, false, true].map SmPeriod.taken := by decide

/-- R106: the three rows of the example table. -/
theorem test_pressureLevels :
    [(1000, 9), (600, 1), (2500, 25)].map (fun p : Nat × Nat =>
      let c : Setup := { Setup.start with rated := p.1, surgeCode := p.2 }
      (c.surgeThreshold, c.hardLimit, c.settleLevel))
      = [(1500, 1650, 100), (660, 726, 60), (5750, 6325, 250)] := by decide

/-- R102: raw 2048 on a span of 2,500 kPa. -/
theorem test_engineering : engineering 2048 2500 false = 1250 ∧ engineering 4000 65535 true = 30000
    ∧ badReading 40 = true ∧ badReading 41 = false ∧ badReading 4054 = false ∧ badReading 4055 = true := by decide

/-- R139: four pulses at K = 7. -/
theorem test_pulses :
    let f := fun s : State => (after .meterPulse s)
    (f (pu .idle)).mr.residual = 3 ∧ (f (pu .idle)).mr.stray = 1
      ∧ (f (f (f (f (pu .idle))))).mr.residual = 5 ∧ (f (f (f (f (pu .idle))))).mr.stray = 5 := by decide +kernel

/-- R126: the high alarm stands between 11,950 and 12,000 mm as it stood. -/
theorem test_highAlarm :
    ({ Tank.start with highAlarm := true }.highAlarmAfter 11950 12000, { Tank.start with highAlarm := true }.highAlarmAfter 11949 12000,
      Tank.start.highAlarmAfter 11999 12000, Tank.start.highAlarmAfter 12000 12000) = (true, false, false, true) := by decide

/-- 13, a normal transfer: its record at the sample gives SHORT alone. -/
theorem test_outcome :
    { Record.empty with delivered := 397575, received := 397284, nomination := 400000 }.judge 100 1000
      = ⟨true, false, false, false⟩ := by decide

/-- R198: lines as PP reads them. -/
theorem test_parse :
    parseLine (word ['n', 'o', 'm', 'i', 'n', 'a', 't', 'e', ' ', '4', ' ', '0', '9']) false = .command (.nominate 4 9)
      ∧ parseLine (word ['R', 'E', 'A', 'D', ' ', ' ', 'T', 'A', 'N', 'K', ' ', '4']) false = .command (.readTank (some 4))
      ∧ parseLine (word ['A', 'S', 'S', 'I', 'G', 'N', ' ', '5']) false = .bad (some .assign)
      ∧ parseLine (word ['S', 'T', 'A', 'R', 'T', ' ', '1']) false = .bad (some (.request .start))
      ∧ parseLine (word ['X']) false = .bad none ∧ parseLine (word [' ']) false = .blank
      ∧ parseLine [] true = .overlong none := by decide +kernel

/-! ## The worked transfers (13) -/

/-- The normal transfer: START taken at PU with every peer ready; OPENING is put in hand and counting set. -/
theorem test_worked_start :
    let s := withPeers { pu .lineup with
        pc := { (pu .lineup).pc with gen := 2, transfer := 7, ready := true }
        mr := { (pu .lineup).mr with record := { Record.empty with state := .opened, transfer := 7, nomination := 400000, maxRate := 300000 } } }
      [peer 2 .bv { shows .lineup (.valve .shut 0 true) with gen := 2, ready := true },
       peer 3 .sv { shows .lineup (.valve .shut 0 true) with gen := 2, ready := true },
       peer 5 .tw { shows .lineup (twBody .none .assigned) with gen := 2, ready := true }]
    let t := after .start s
    t.pc.phase = .opening ∧ t.pc.inHand = some ⟨.opening, 2, ⟨true, 0⟩⟩ ∧ t.mr.record.counting = true := by decide +kernel

/-- The normal transfer: the first window in STARTING gives 64,800 L/h against a threshold of 30,000 L/h, and PU steps to
PUMPING with RATE_LOW off. -/
theorem test_worked_firstWindow :
    let s := { pu .starting with
        vp := { (pu .starting).vp with pump := .running, pumpRun := true, rateLow := true }
        mr := { (pu .starting).mr with
          window := ⟨true, 10000⟩, windowLitres := 180
          record := { Record.empty with state := .opened, counting := true, nomination := 400000, maxRate := 300000 } } }
    let t := after .rateWindow s
    t.mr.lastRate = some 64800 ∧ t.pc.phase = .pumping ∧ t.vp.rateLow = false := by decide +kernel

/-- The overfill trip: at 1.0 s OVERFILL latches for T2, whose channel closes at once while T1 is still open; VC1 is close
pending and the station HOLDING. -/
theorem test_worked_overfill :
    let s := { tw .topping with
        inputs := { (tw .topping).inputs with hh := ⟨false, true, false, false⟩, openSw := ⟨true, true, false, false⟩ }
        vp := { (tw .topping).vp with channels := ⟨⟨.opened, .none, false, .off, .stopped, .stopped⟩, ⟨.opened, .none, false, .off, .stopped, .stopped⟩, .start, .start⟩ }
        ow := { (tw .topping).ow with tanks := ⟨{ Tank.start with state := .topping, takingPart := true }, { Tank.start with state := .topping, takingPart := true, overfill := true }, .start, .start⟩ }
        tu := { (tw .topping).tu with overfill := ⟨.start, ⟨true, ⟨true, 1000⟩⟩, .start, .start⟩ } }
    let t := after (.qualificationExpiry (.overfill .n2)) s
    t.pc.phase = .tripped ∧ t.tu.firstOut = some ⟨some .overfill, .localOrigin, 5, some 2⟩
      ∧ t.ow.tanks.n2.state = .overfill ∧ t.ow.tanks.n1.state = .topping ∧ t.vp.channels.n2.state = .closing
      ∧ t.vp.channels.n2.pending = false ∧ t.vp.channels.n1.state = .opened ∧ t.vp.channels.n1.pending = true
      ∧ t.vp.holdOff = .holding ∧ t.lc.trip.isSome = true := by decide +kernel

/-- The pull-away: SEP_IN on at BV latches SEPARATION, LOCAL, 2; VC1 closes without pending; a TRIP is queued. -/
theorem test_worked_separation :
    let s := { bv .pumping with
        inputs := { (bv .pumping).inputs with openSw := ⟨true, false, false, false⟩ }
        vp := { (bv .pumping).vp with channels := ⟨⟨.opened, .none, false, .off, .stopped, .stopped⟩, .start, .start, .start⟩ } }
    let t := after (.sepInChange true) s
    t.pc.phase = .tripped ∧ t.tu.firstOut = some ⟨some .separation, .localOrigin, 2, none⟩
      ∧ t.vp.channels.n1.state = .closing ∧ t.vp.channels.n1.drive = .close ∧ t.vp.channels.n1.pending = false
      ∧ t.lc.trip.isSome = true := by decide +kernel

/-- The reset: with one peer whose CAUSE is set PU answers NOTREADY, naming it (R72). -/
theorem test_worked_reset :
    let s := withPeers { pu .tripped with vp := { (pu .tripped).vp with pump := .stopped } }
      [peer 2 .bv { shows .tripped (.valve .shut 0 true) with closed := true, cause := true }]
    (after .reset s).pp.queue = [⟨.answer (some (.request .reset)) none (.decided .notready) (.station 2), false⟩] := by
  decide +kernel

/-! ## How a program comes to run from reset (log 34) -/

/-- An image every role accepts. The first 42 bytes. -/
def good1 : List Byte := [1, 1, 2, 3, 5, 6, 9, 1, 0, 0, 2, 15, 10, 60, 3, 232, 9, 1, 1, 1, 0,
    100, 1, 6, 6, 6, 6, 9, 196, 9, 196, 9, 196, 9, 196, 0, 7, 0, 100, 3, 232, 0]

/-- The next 42 bytes. -/
def good2 : List Byte := [78, 32, 42, 248, 45, 80, 46, 224, 48, 112, 0, 14, 42, 248, 45, 80, 46, 224, 48, 112, 0,
    14, 42, 248, 45, 80, 46, 224, 48, 112, 0, 14, 42, 248, 45, 80, 46, 224, 48, 112, 0, 14]

/-- The image. -/
def good : List Byte := good1 ++ good2 ++ [206, 135]

theorem test_good_check : (frameCheck (good.take 84)).toNat = numAt good 84 2 := by
  have h1 : good1.foldl checkByte 0xFFFF#16 = 33033#16 := by decide +kernel
  have h2 : good2.foldl checkByte 33033#16 = 52871#16 := by decide +kernel
  have h : good.take 84 = good1 ++ good2 := by rfl
  rw [h, frameCheck, List.foldl_append, h1, h2]
  decide

/-- An image with no tank and a start limit of 0. The first 42 bytes. -/
def noTanks1 : List Byte := [1, 1, 2, 3, 5, 6, 9, 1, 0, 0, 0, 15, 10, 0, 3, 232, 9, 1, 1, 1, 0,
    100, 1, 6, 6, 6, 6, 9, 196, 9, 196, 9, 196, 9, 196, 0, 7, 0, 100, 3, 232, 0]

/-- The next 42 bytes. -/
def noTanks2 : List Byte := [78, 32, 42, 248, 45, 80, 46, 224, 48, 112, 0, 14, 42, 248, 45, 80, 46, 224, 48, 112, 0,
    14, 42, 248, 45, 80, 46, 224, 48, 112, 0, 14, 42, 248, 45, 80, 46, 224, 48, 112, 0, 14]

/-- The image. -/
def noTanks : List Byte := noTanks1 ++ noTanks2 ++ [59, 88]

theorem test_noTanks_check : (frameCheck (noTanks.take 84)).toNat = numAt noTanks 84 2 := by
  have h1 : noTanks1.foldl checkByte 0xFFFF#16 = 10009#16 := by decide +kernel
  have h2 : noTanks2.foldl checkByte 10009#16 = 15192#16 := by decide +kernel
  have h : noTanks.take 84 = noTanks1 ++ noTanks2 := by rfl
  rw [h, frameCheck, List.foldl_append, h1, h2]
  decide

/-- An image whose tank 1 has its target at its topping level. The first 42 bytes. -/
def flat1 : List Byte := [1, 1, 2, 3, 5, 6, 9, 1, 0, 0, 1, 15, 10, 60, 3, 232, 9, 1, 1, 1, 0,
    100, 1, 6, 6, 6, 6, 9, 196, 9, 196, 9, 196, 9, 196, 0, 7, 0, 100, 3, 232, 0]

/-- The next 42 bytes. -/
def flat2 : List Byte := [78, 32, 42, 248, 42, 248, 46, 224, 48, 112, 0, 14, 42, 248, 45, 80, 46, 224, 48, 112, 0,
    14, 42, 248, 45, 80, 46, 224, 48, 112, 0, 14, 42, 248, 45, 80, 46, 224, 48, 112, 0, 14]

/-- The image. -/
def flat : List Byte := flat1 ++ flat2 ++ [0, 76]

theorem test_flat_check : (frameCheck (flat.take 84)).toNat = numAt flat 84 2 := by
  have h1 : flat1.foldl checkByte 0xFFFF#16 = 27331#16 := by decide +kernel
  have h2 : flat2.foldl checkByte 27331#16 = 76#16 := by decide +kernel
  have h : flat.take 84 = flat1 ++ flat2 := by rfl
  rw [h, frameCheck, List.foldl_append, h1, h2]
  decide

/-- An image whose check word is right passes check 1. -/
theorem check_passes {l : List Byte} (h : (frameCheck (l.take 84)).toNat = numAt l 84 2) (r : Role) :
    setupFailure l r
      = if r = .tw ∧ (byteAt l 10 < 1 ∨ 4 < byteAt l 10) then some (2, 10)
        else
          match (usedFields r (byteAt l 10)).find? fun f => !f.ok l with
          | some f => some (3, f.offset)
          | none =>
              match (List.range (if r = .tw then byteAt l 10 else 0)).findSome? (tankFailure l) with
              | some o => some (4, o)
              | none => none := by
  exact if_neg fun hn => hn h

theorem test_good (r : Role) : setupFailure good r = none := by
  rw [check_passes test_good_check]
  cases r <;> decide +kernel

/-- R190: check 2 of a TW, check 3 of PU, check 4 of a TW, and check 1 of a changed check word. -/
theorem test_failures : setupFailure noTanks .tw = some (2, 10) ∧ setupFailure noTanks .pu = some (3, 13)
    ∧ setupFailure flat .tw = some (4, 46) ∧ setupFailure (good.set 85 0) .mn = some (1, 84) := by
  refine ⟨?_, ?_, ?_, ?_⟩
  · rw [check_passes test_noTanks_check]; decide +kernel
  · rw [check_passes test_noTanks_check]; decide +kernel
  · rw [check_passes test_flat_check]; decide +kernel
  · have h : (good.set 85 0).take 84 = good.take 84 := by decide +kernel
    unfold setupFailure
    rw [h, test_good_check, if_pos (by decide +kernel)]

/-- The bytes of `good` as an image. -/
def goodImage : Image := ⟨⟨good⟩, by decide +kernel⟩

/-- A station of a role in the READ step. -/
def reading (r : Role) : State :=
  { State.reset with
    inputs := { Inputs.start with resetIn := false }
    sl := { SetupLoader.start with step := .read, sn := 1, rl := BitVec.ofNat 3 r.code }
    vp := ValvePump.start.forRole r }

/-- From reset, first step: RESET_IN_OFF with the straps of a role. -/
theorem test_fromReset_straps (r : Role) :
    exec (.resetInOff 1 (BitVec.ofNat 3 r.code)) State.reset = .next (reading r) := by cases r <;> rfl

/-- R188: SM_SEL is on in the READ step alone. -/
theorem test_fromReset_select : State.reset.smSel = false ∧ (reading .tw).smSel = true
    ∧ (after .startUp (reading .tw)).smSel = false := by decide

/-- Second step: SETUP_READ. -/
theorem test_fromReset_setup (r : Role) : ∃ t, exec (.setupRead goodImage) (reading r) = .next t
    ∧ t.pc.station = .joining ∧ t.sl.step = .frozen ∧ t.role = some r ∧ t.sl.setup.silence = 1000 := by
  have h : (reading r).role = some r := by cases r <;> decide
  refine ⟨_, execSetupRead_accepted rfl h (test_good r), ?_⟩
  cases r <;> decide +kernel

/-- Third step: JOIN_WINDOW_END with nothing heard; a RUNNING PU in IDLE. -/
theorem test_fromReset_running :
    let s := after .joinWindowEnd (joining (pu .idle))
    s.pc.station = .running ∧ s.pc.phase = .idle ∧ s.number = 1 ∧ s.role = some .pu := by decide +kernel

/-! ## For each statement: states and operands that meet its hypotheses -/

theorem test_met_IdleStepMovesTimersOnly : State.reset.pending = [] := rfl

theorem test_met_StrapsRead : State.reset.sl.step = .hold ∧ (15 : BitVec 4) ≠ 0
    ∧ [(1, Role.pu), (2, .bv), (3, .sv), (4, .tw), (5, .mn)].all (fun p : BitVec 3 × Role => Role.ofCode p.1.toNat = some p.2) := by
  decide

theorem test_met_StrapsRead_rejected : State.reset.sl.step = .hold ∧ State.reset.an.set = []
    ∧ ∀ rl : BitVec 3, rl = 0 ∨ rl = 6 ∨ rl = 7 → Role.ofCode rl.toNat = none := by decide

/-- An accepted image, with the clauses of PressureLevels about SETUP_READ. -/
theorem test_met_SetupAccepted (r : Role) : (reading r).sl.step = .read ∧ (reading r).role = some r
    ∧ setupFailure goodImage.toList r = none := ⟨rfl, by cases r <;> decide, test_good r⟩

/-- An image of `good` with a wrong check word. -/
def wrongImage : Image := ⟨⟨good.set 85 0⟩, by decide +kernel⟩

theorem test_met_SetupRejected : (reading .mn).sl.step = .read ∧ (reading .mn).role = some .mn ∧ (reading .mn).an.set = []
    ∧ setupFailure wrongImage.toList .mn = some (1, 84) := ⟨rfl, by decide, rfl, test_failures.2.2.2⟩

/-- Checks 3 and 4 hold before the offset that fails, or at every offset. -/
theorem test_met_SetupBytes_fields :
    (∀ o, o < 13 → FieldInRange noTanks .pu 0 o) ∧ ¬ FieldInRange noTanks .pu 0 13
      ∧ (∀ o, o < 46 → TankFieldInRange flat .n1 o) ∧ ¬ TankFieldInRange flat .n1 46 := by
  refine ⟨?_, ?_, ?_, ?_⟩
  · intro o ho
    unfold FieldInRange
    interval_cases o <;>
      exact ⟨by decide, by decide, by decide, by decide, by decide, by decide, by decide,
        fun n => by cases n <;> decide, fun n => by cases n <;> decide, by decide⟩
  · intro h
    exact absurd (h.2.2.2.2.1 rfl rfl) (by decide)
  · intro o ho
    unfold TankFieldInRange
    interval_cases o <;> decide
  · intro h
    exact absurd (h.2.1 (.inl rfl)).2 (by decide)

/-- An accepted image of a TW, with no tank and with one; PU. -/
theorem test_met_SetupBytes : good.length = 86 ∧ noTanks.length = 86 ∧ flat.length = 86
    ∧ (frameCheck (good.take 84)).toNat = 256 * byteAt good 84 + byteAt good 85
    ∧ byteAt good 10 = 2 ∧ byteAt noTanks 10 = 0 ∧ byteAt flat 10 = 1 :=
  ⟨by decide +kernel, by decide +kernel, by decide +kernel, test_good_check.trans (by decide +kernel), by decide, by decide,
    by decide⟩

theorem test_met_PressureLevels : (pu .idle).sl.step = .frozen ∧ exec .start (pu .idle) = .next (after .start (pu .idle))
    ∧ (pu .idle).pending = [] ∧ step (pu .idle) = .next (pu .idle).tick ∧ (pu .idle).hw.chans.n1.fault = false
    ∧ (pu .idle).hw.chans.n1.value = some 50 ∧ (pu .idle).hasRole .pu = true ∧ (sv .idle).hasRole .sv = true
    ∧ (tw .idle).hasRole .tw = true ∧ (mn .idle).hasRole .mn = true :=
  ⟨rfl, rfl, rfl, rfl, rfl, rfl, by decide, by decide, by decide, by decide⟩

theorem test_met_JoinEndsInIdle : (joining (pu .idle)).pc.station = .joining ∧ (joining (pu .idle)).pc.phase = .idle
    ∧ (joining (pu .idle)).pc.inHand = none ∧ (joining (pu .idle)).pc.order = none
    ∧ (joining (pu .idle)).sr.join.heard = false ∧ (joining (pu .idle)).inputs.esd = false := by decide

/-- JOINING with a transfer heard. -/
def heard : State := { joining (bv .idle) with sr := { Roster.start with join := ⟨none, some 3, none, some 7, true⟩ } }

theorem test_met_JoinEndsInTripped : heard.pc.station = .joining ∧ heard.pc.phase = .idle ∧ heard.sr.join.heard = true
    ∧ heard.tu.latched = [] ∧ heard.tu.firstOut = none := by decide

/-- A station whose assembly slot is as given. -/
def assembling (c : AsmCondition) (mark : Bool) (l : List Byte) : State :=
  { mn .idle with lc := { (mn .idle).lc with assembly := ⟨c, mark, l, false, false⟩ } }

/-- For each clause its state of the slot, lengths 63 and 64 among them. -/
theorem test_met_CharacterAssembled : (assembling .hunting false []).listening = true ∧ (assembling .hunting false []).lc.attempt = none
    ∧ (assembling .full true []).lc.assembly.condition ≠ .building ∧ (0x01 : Byte) ≠ 0xD3
    ∧ (assembling .building true (List.replicate 63 1)).lc.assembly.bytes.length < 64
    ∧ 64 ≤ (assembling .building true (List.replicate 64 1)).lc.assembly.bytes.length := by decide

/-- PU with a STATUS attempt under way that awaits one echo more. -/
def sendingAt (k : FrameKind) (attempts : Nat) (again : Bool) : State :=
  { pu .idle with lc := { (pu .idle).lc.setPlace k (some ⟨none, attempts, again⟩) with
      line := .sending, attempt := some ⟨k, false, [5]⟩ } }

/-- Each kind at attempts 6 and 7, asked again or not. -/
theorem test_met_EchoCompared : [FrameKind.status, .request, .answer, .trip].all (fun k => [0, 6, 7].all fun n => [true, false].all fun b =>
    (sendingAt k n b).running && (sendingAt k n b).lc.line == .sending && (sendingAt k n b).lc.attempt == some ⟨k, false, [5]⟩
      && (sendingAt k n b).lc.place k == some ⟨none, n, b⟩) = true := by decide

/-- A request outstanding as its REQUEST fails for the seventh and for the eighth time, with LINK on and off. -/
theorem test_met_EchoCompared_drop :
    let place := fun n : Nat => Place.mk (some (.request ⟨1, .pu, 0, 0⟩ .start 3 0 0)) n false
    let s := fun (n : Nat) (link : Bool) =>
      { sendingAt .request n false with
        lc := (sendingAt .request n false).lc.setPlace .request (some (place n))
        rh := ⟨4, some ⟨.start, 3, 0, 0, .fromZero⟩⟩
        pp := { PanelPort.start with mask := { ClassMask.start with link := link } } }
    (s 6 true).lc.place .request = some (place 6) ∧ (after .echoTimeout (s 6 true)).pp.queue = []
      ∧ (place 7).frame.map HeldFrame.requestNumber = some 3
      ∧ (after .echoTimeout (s 7 true)).pp.queue = [⟨.event (.dropped .request (some 3)), false⟩,
          ⟨.answer (some (.request .start)) (some 3) .noanswer .none, false⟩]
      ∧ (after .echoTimeout (s 7 false)).pp.queue = [⟨.answer (some (.request .start)) (some 3) .noanswer .none, false⟩] := by
  decide

/-- A detached attempt with one echo to come, and with two. -/
theorem test_met_EchoCompared_detached : [[5], [5, 6]].all (fun l : List Byte =>
    let s := { pu .idle with lc := { (pu .idle).lc with line := .sending, attempt := some ⟨.status, true, l⟩ } }
    s.running && s.lc.line == .sending && s.lc.attempt == some ⟨.status, true, l⟩) = true := by decide

/-- A STATUS of BV as it stands in the assembly slot. -/
def bvFrame : List Byte := withCheck (statusBytes 2 .bv (shows .idle (.valve .shut 50 true)))

/-- A slot that hunts, one with a good frame, an echo, a bad frame, and one held by full slots. -/
theorem test_met_LineIdleEndsFrame : (assembling .building false bvFrame).listening = true
    ∧ (assembling .building false bvFrame).lc.attempt = none ∧ (assembling .building false bvFrame).lc.check = none
    ∧ judge false false bvFrame = .good ∧ judge true false bvFrame = .echo
    ∧ judge false false (bvFrame.take 6) = .discard .length ∧ judge false false (bvFrame.take 7) = .discard .check := by
  decide +kernel

/-- For each kind a QUIET station with that place and no higher one occupied. -/
theorem test_met_AttemptBegins : [FrameKind.status, .trip].all (fun k =>
      let s := { bv .idle with lc := (bv .idle).lc.ask k }
      s.running && s.lc.line == .quiet && s.lc.attempt == none && s.role == some .bv && s.lc.place k == some ⟨none, 0, false⟩)
    ∧ (let s := { bv .idle with lc := (bv .idle).lc.hold .request (.request ⟨2, .bv, 0, 0⟩ .start 3 0 0) }
      s.lc.trip = none ∧ s.lc.answer = none ∧ (s.lc.place .request).any fun p => p.frame.isSome)
    ∧ (let s := { pu .idle with lc := (pu .idle).lc.hold .answer (.answer ⟨1, .pu, 0, 0⟩ 2 3 .taken) }
      s.lc.trip = none ∧ (s.lc.place .answer).any fun p => p.frame.isSome) := by decide

/-- R163: the first waits of the table at station 9, and the retries of the example at stations 1 and 9. -/
theorem test_waits : [FrameKind.trip, .answer, .request, .status].map (waitOf 9 0) = [4, 5, 6, 8]
    ∧ [FrameKind.trip, .answer, .request, .status].map (fun k => accessWait k 9 0) = [4, 5, 6, 8]
    ∧ waitOf 1 1 .status = 9 ∧ waitOf 9 1 .status = 17 ∧ accessWait .status 9 1 = 17 ∧ waitOf 5 0 .status = 12 := by decide

theorem test_met_HeartbeatAsks : (mn .idle).running = true ∧ (mn .idle).lc.heartbeat.running = true ∧ (mn .idle).lc.status = none
    ∧ ({ mn .idle with lc := (mn .idle).lc.ask .status }).lc.status = some ⟨none, 0, false⟩ := by decide

theorem test_met_LineRebuildsFrame : (0x01 : Byte) ≠ 0xD3 ∧ ([0xD3] : List Byte).length < 64
    ∧ (List.replicate 63 (0xD3 : Byte)).length < 64 := by decide

/-- Bodies at the ends of their ranges. -/
theorem test_met_FramesReadBack : (shows .idle (.pu .stopped 65535 true 4294967295 .none 4294967295 4294967295)).firstOrigin ≤ 15
    ∧ 65535 < 65536 ∧ 4294967295 < 4294967296 ∧ (∀ i ∈ [TankItem.mk .held 32767 false], i.level < 32768) := by decide

/-- Frames for each check. -/
theorem test_met_CheckSlotJudges : (bvFrame.take 6).length < 7 ∧ 7 ≤ bvFrame.length
    ∧ (frameCheck (bvFrame.take (bvFrame.length - 2))).toNat = numAt bvFrame (bvFrame.length - 2) 2
    ∧ FrameKind.ofCode (byteAt bvFrame 0) = some .status ∧ expectedLength bvFrame .status = some bvFrame.length
    ∧ (1 ≤ byteAt bvFrame 1 ∧ byteAt bvFrame 1 ≤ 15) ∧ FrameKind.ofCode 0 = none := by decide +kernel

/-- The header of `bvFrame`. -/
def bvHeader : Header := ⟨2, .bv, 0, 0⟩

/-- A full table of unprotected and of protected entries. -/
def table (guarded : Bool) : List Entry := (List.range 12).map fun n => ⟨n + 3, some .mn, guarded, .present, 0, none⟩

/-- Events that cannot occur at PU in IDLE, and a pulse at MN. -/
theorem test_met_EveryCommandAnswers : CannotOccur (pu .idle) (.resetInOff 1 1) ∧ CannotOccur (pu .idle) .joinWindowEnd
    ∧ CannotOccur (pu .idle) .echoTimeout ∧ CannotOccur (pu .idle) .attempt ∧ CannotOccur (pu .idle) .rosterTakeFrame
    ∧ CannotOccur (pu .idle) (.silenceLimit 2) ∧ CannotOccur (pu .idle) (.removalLimit 2)
    ∧ CannotOccur (pu .idle) .reportSent ∧ CannotOccur (pu .idle) (.valveSwitchChange .n4 .shutSw false)
    ∧ CannotOccur (pu .idle) (.cadenceToggle .beacon) ∧ CannotOccur (pu .idle) (.qualificationExpiry (.overfill .n4))
    ∧ CannotOccur (mn .idle) .meterPulse ∧ CannotOccur (pu .idle) .settleWindowExpiry :=
  ⟨(by decide : SeqStep.frozen ≠ .hold), (by decide : StationState.running ≠ .joining), rfl,
    .inr (.inr (.inr ⟨rfl, rfl, rfl, rfl⟩)), .inr rfl, .inr (.inl rfl),
    .inr (fun _ h => nomatch h), rfl, rfl, .inl rfl, rfl, .inl (by decide), .inl (by decide)⟩

/-- An entry found, none with room, a full table with and without an unprotected entry, JOINING and RUNNING. -/
theorem test_met_StatusEntersRoster : readFrame bvFrame = some ⟨.status, bvHeader, .status (shows .idle (.valve .shut 50 true))⟩
    ∧ [pu .idle, joining (pu .idle), withPeers (pu .idle) [peer 2 .bv (shows .idle .mn)], withPeers (pu .idle) (table false),
        withPeers (pu .idle) (table true)].all (fun s => s.listening && !s.isClash bvHeader)
    ∧ (withPeers (pu .idle) [peer 2 .bv (shows .idle .mn)]).sr.find 2 = some (peer 2 .bv (shows .idle .mn))
    ∧ (pu .idle).sr.find 2 = none ∧ (withPeers (pu .idle) (table false)).sr.find 2 = none
    ∧ 12 ≤ (table false).length ∧ ((table false).reverse.find? fun e => !e.protected') = some ⟨14, some .mn, false, .present, 0, none⟩
    ∧ ∀ e ∈ table true, e.protected' = true := by decide +kernel

/-- PU with BV's frame in the delivery slot and a FULL assembly slot. -/
def fullSlots (check : Option (List Byte)) (damaged : Bool) : State :=
  { withFrame (pu .idle) bvFrame with lc := { (withFrame (pu .idle) bvFrame).lc with
      check := check, assembly := ⟨.full, false, bvFrame, damaged, false⟩ } }

/-- R168: the slots move on, with the check slot empty and with a frame in it, and a frame discarded. -/
theorem test_met_StatusEntersRoster_full :
    judge false false bvFrame = .good ∧ judge false true bvFrame = .discard .character
      ∧ (after .rosterTakeFrame (fullSlots none false)).lc.delivery = some bvFrame
      ∧ (after .rosterTakeFrame (fullSlots none false)).lc.check = none
      ∧ (after .rosterTakeFrame (fullSlots (some [1]) false)).lc.delivery = some [1]
      ∧ (after .rosterTakeFrame (fullSlots (some [1]) false)).lc.check = some bvFrame
      ∧ (after .rosterTakeFrame (fullSlots (some [1]) true)).lc.check = none
      ∧ (after .rosterTakeFrame (fullSlots none true)).pp.queue.length < 8 := by decide +kernel

theorem test_met_ClashTaken : (joining (bv .idle)).pc.station = .joining ∧ (joining (bv .idle)).role = some .bv
    ∧ (joining (bv .idle)).number = 2
    ∧ readFrame bvFrame = some ⟨.status, bvHeader, .status (shows .idle (.valve .shut 50 true))⟩ := by decide +kernel

/-- RUNNING, with PHASE not latched and latched, and a peer of the same number or of the same role. -/
theorem test_met_ClashTaken_running :
    let latched := { bv .tripped with tu := { (bv .tripped).tu with latched := [⟨.phase, none⟩] } }
    (bv .idle).running = true ∧ (bv .idle).number = 2 ∧ (bv .idle).hasLatched .phase = false
      ∧ latched.running = true ∧ latched.hasLatched .phase = true ∧ latched.pc.phase = .tripped
      ∧ (withPeers (pu .idle) [peer 4 .bv (shows .idle .mn)]).running = true
      ∧ ∃ e ∈ (withPeers (pu .idle) [peer 4 .bv (shows .idle .mn)]).sr.entries, e.role = some .bv ∧ e.number ≠ 2 :=
  ⟨by decide, by decide, by decide, by decide, by decide, by decide, by decide, _, List.mem_singleton_self _, by decide⟩

/-- A TRIP of SV. -/
def tripFrame : List Byte := withCheck (tripBytes ⟨3, .sv, 0, 0⟩ (some .leak) 3)

/-- Under the generation held, and under another. -/
theorem test_met_RemoteTripHonoured : readFrame tripFrame = some ⟨.trip, ⟨3, .sv, 0, 0⟩, .trip (some .leak) 3⟩
    ∧ [pu .pumping, bv .pumping].all (fun s => s.running && !s.isClash ⟨3, .sv, 0, 0⟩)
    ∧ (bv .pumping).pc.gen = 0 ∧ ({ bv .pumping with pc := { (bv .pumping).pc with gen := 1 } }).pc.gen ≠ 0
    ∧ (bv .pumping).hasRole .pu = false ∧ (bv .pumping).pc.order = none ∧ (bv .pumping).tu.firstOut = none := by
  decide +kernel

/-- A STATUS of PU stands in the delivery slot of a station of another role. -/
def waits (s : State) (st : Status) : Bool :=
  s.running && !s.hasRole .pu && s.role.isSome && !s.isClash ⟨1, .pu, st.transfer, st.gen⟩
    && readFrame (withCheck (statusBytes 1 .pu st)) == some ⟨.status, ⟨1, .pu, st.transfer, st.gen⟩, .status st⟩

/-- The station with that STATUS in its delivery slot. -/
def withPu (s : State) (st : Status) : State := withFrame s (withCheck (statusBytes 1 .pu st))

theorem puStatusWaits_of {s : State} {st : Status} (h : waits s st = true) : PuStatusWaits (withPu s st) 1 st := by
  simp only [waits, Bool.and_eq_true, Bool.not_eq_true', beq_iff_eq] at h
  obtain ⟨⟨⟨⟨hr, hn⟩, hs⟩, hc⟩, hf⟩ := h
  obtain ⟨r, h⟩ := Option.isSome_iff_exists.1 hs
  refine ⟨hr, ⟨r, h, fun he => ?_⟩, _, st.transfer, rfl, hf, hc⟩
  subst he
  have : s.hasRole .pu = true := by rw [State.hasRole, h]; rfl
  simp [this] at hn

/-- Nothing hands a cause at a station that holds no entry. -/
theorem quietEntry_of {s : State} {n : Nat} {st : Status} (h : s.sr.entries = [])
    (hf : ∀ c : Ch, (s.hw.chans.get c).fault = false) (hs : s.inputs.sep = false) (hr : s.mr.record.state = .empty) :
    QuietEntry s n st :=
  ⟨fun e he => by rw [h] at he; simp at he, fun c _ => hf c, fun _ => hs, .inr (.inl hr)⟩

theorem quiet_station (r : Role) (n : BitVec 4) (p : Phase) (st : Status) : QuietEntry (withPu (station r n p) st) 1 st :=
  quietEntry_of rfl (fun c => by cases c <;> rfl) rfl rfl

theorem noValveFault_station (r : Role) (n : BitVec 4) (p : Phase) (st : Status) : NoValveFault (withPu (station r n p) st) :=
  fun c _ => by cases c <;> exact (by decide : Channel.start.state ≠ .fault)

/-- A STATUS of PU in a phase, under a generation, with a transfer number. -/
def puShows (p : Phase) (g x : BitVec 8) : Status := { shows p (puBody .stopped) with gen := g, transfer := x }

/-- For each clause its phases and generations: a step on, the phase held, another number, not a step on, TRIPPED, and the
same under another generation. -/
theorem test_met_FollowerFollows : waits (bv .idle) (puShows .lineup 0 1) = true ∧ waits (sv .pumping) (puShows .pumping 0 0) = true
    ∧ waits (sv .pumping) (puShows .closing 0 0) = true ∧ waits (sv .pumping) (puShows .tripped 0 0) = true
    ∧ waits (mn .tripped) (puShows .pumping 0 0) = true ∧ waits (sv .pumping) (puShows .tripped 1 0) = true
    ∧ waits (mn .tripped) (puShows .ended 1 0) = true ∧ waits (mn .tripped) (puShows .tripped 1 0) = true
    ∧ waits (sv .pumping) (puShows .ended 1 0) = true ∧ Phase.pumping.stepsTo .closing = false
    ∧ (sv .pumping).hasLatched .phase = false ∧ (sv .pumping).pc.order = none ∧ (mn .tripped).tu.latched = [] := by
  decide +kernel

/-- A record open under transfer number 1, and PU at number 2; MANUAL latched with ESD_IN on. -/
theorem test_met_FollowerFollows_held :
    let s := { sv .pumping with
        pc := { (sv .pumping).pc with transfer := 1 }
        mr := { (sv .pumping).mr with record := { Record.empty with state := .opened, transfer := 1 } } }
    let u := { mn .tripped with
        inputs := { (mn .tripped).inputs with esd := true }, tu := { (mn .tripped).tu with latched := [⟨.manual, none⟩] } }
    waits s (puShows .pumping 0 2) = true ∧ s.mr.record.state ≠ .empty ∧ s.hasLatched .phase = false
      ∧ waits u (puShows .ended 1 0) = true ∧ u.causeActive .manual = true
      ∧ ({ u with inputs := (mn .tripped).inputs }).causeActive .manual = false := by decide +kernel

/-- TW in LINEUP with tank 1 ASSIGNED and its channel in a state. -/
def assignedAt (v : ValveState) : State :=
  { tw .lineup with
    vp := { (tw .lineup).vp with channels := ⟨{ Channel.start with state := v }, .start, .start, .start⟩ }
    ow := { (tw .lineup).ow with tanks := ⟨{ Tank.start with state := .assigned }, .start, .start, .start⟩ } }

/-- The adoption of OPENING at TW with tank 1 SHUT. -/
theorem test_met_EntryActions_tanks : waits (assignedAt .shut) (puShows .opening 0 0) = true
    ∧ QuietEntry (withPu (assignedAt .shut) (puShows .opening 0 0)) 1 (puShows .opening 0 0)
    ∧ NoValveFault (withPu (assignedAt .shut) (puShows .opening 0 0)) ∧ (assignedAt .shut).vp.holdOff ≠ .holding
    ∧ (assignedAt .shut).tankUsed .n1 = true ∧ (assignedAt .shut).ow.tanks.n2.state ≠ .assigned :=
  ⟨by decide +kernel, quietEntry_of rfl (fun c => by cases c <;> rfl) rfl rfl, fun c _ => by cases c <;> decide, by decide,
    by decide, by decide⟩

/-- TW in LINEUP whose ASSIGNED tank 1 has its channel in FAULT, with scan channel 2 in sensor fault and SV SILENT. -/
def refusing : State :=
  { withPeers (assignedAt .fault) [{ peer 3 .sv (shows .lineup .mn) with presence := .silent }] with
    hw := { (tw .lineup).hw with chans := ⟨(tw .lineup).hw.chans.n1, ⟨true, 2500, none, none, true, 3, 0⟩, .start, .start⟩ } }

/-- BV in LINEUP with VC1 in FAULT and SEP_IN on, while SV shows its valve OPEN. -/
def parted : State :=
  { withPeers (bv .lineup) [peer 3 .sv (shows .lineup (.valve .opened 50 true))] with
    inputs := { (bv .lineup).inputs with sep := true }
    vp := { (bv .lineup).vp with channels := ⟨{ Channel.start with state := .fault }, .start, .start, .start⟩ } }

/-- Every cause handed at the adoption of OPENING is in one state or the other. -/
theorem test_met_EntryActions_handed : waits refusing (puShows .opening 0 0) = true
    ∧ waits parted (puShows .opening 0 0) = true ∧ HandedAtOpening refusing 1 .valve
    ∧ HandedAtOpening refusing 1 .linkloss ∧ HandedAtOpening refusing 1 .sensor ∧ HandedAtOpening parted 1 .separation
    ∧ OrderHolds parted .openVc1 ∧ parted.vp.channels.n1.state = .fault
    ∧ Cause.all.all (fun c => !refusing.hasLatched c && !parted.hasLatched c) = true :=
  ⟨by decide +kernel, by decide +kernel, ⟨by decide, .n1, by decide⟩,
    ⟨_, List.mem_singleton_self _, by decide, by decide, by decide, by decide, fun x hx _ => List.mem_singleton.1 hx⟩,
    ⟨by decide, .n2, by decide⟩, ⟨by decide, by decide⟩, ⟨_, rfl, _, rfl, rfl, _, _, rfl⟩, by decide, by decide⟩

/-- R84: VALVE of the refused open latches first, and LINKLOSS and SENSOR join the set. -/
theorem test_openRefused : (after .rosterTakeFrame (withPu refusing (puShows .opening 0 0))).tu.latched
    = [⟨.valve, some 1⟩, ⟨.linkloss, some 3⟩, ⟨.sensor, some 2⟩] := by decide +kernel

/-- R21, R84: VC1 refuses the standing order due at the entry, before SEPARATION is handed. -/
theorem test_orderRefused : (after .rosterTakeFrame (withPu parted (puShows .opening 0 0))).tu.latched
    = [⟨.valve, some 1⟩, ⟨.separation, none⟩] := by decide +kernel

/-- The adoptions of IDLE, OPENING and CLOSING. -/
theorem test_met_EntryActions : waits (tw .ended) (puShows .idle 0 0) = true ∧ waits (bv .lineup) (puShows .idle 0 0) = true
    ∧ waits (bv .lineup) (puShows .opening 0 0) = true ∧ waits (sv .opening) (puShows .closing 0 0) = true
    ∧ waits (tw .stopping) (puShows .closing 0 0) = true ∧ waits (bv .stopping) (puShows .closing 0 0) = true
    ∧ (bv .lineup).valveRole = true ∧ (sv .opening).hasRole .sv = true ∧ (bv .stopping).vp.holdOff ≠ .holding := by
  decide +kernel

/-- A standing order that holds and one that does not, with VC1 SHUT and in FAULT; the last tank's open switch. -/
theorem test_met_EntryActions_orders :
    let s := fun v => { bv .opening with
        pc := { (bv .opening).pc with order := some .openVc1 }
        vp := { (bv .opening).vp with channels := ⟨{ Channel.start with state := v }, .start, .start, .start⟩ } }
    let t := { tw .opening with
        vp := { (tw .opening).vp with channels := ⟨⟨.opening, .opened, false, .opened, .stopped, .fromZero⟩, .start, .start, .start⟩ } }
    let f := withCheck (statusBytes 3 .sv (shows .opening (.valve .opened 50 true)))
    readFrame f = some ⟨.status, ⟨3, .sv, 0, 0⟩, .status (shows .opening (.valve .opened 50 true))⟩
      ∧ [s .shut, s .fault].all (fun u => u.running && !u.hasRole .pu && u.role.isSome && !u.isClash ⟨3, .sv, 0, 0⟩
          && u.vp.holdOff != .holding && u.pc.order == some .openVc1 && !u.hasLatched .valve && u.pc.phase.active)
      ∧ t.running = true ∧ t.hasRole .tw = true ∧ t.tankUsed .n1 = true ∧ t.openOn .n1 = false ∧ t.shutOn .n1 = false := by
  decide +kernel

/-- The order is due once the table shows SV's valve OPEN, and not before. -/
theorem test_met_EntryActions_due : OrderHolds (withPeers (bv .opening) [peer 3 .sv (shows .opening (.valve .opened 50 true))]) .openVc1
    ∧ ¬ OrderHolds (bv .opening) .openVc1 := by
  constructor
  · exact ⟨_, rfl, _, rfl, rfl, _, _, rfl⟩
  · rintro ⟨e, he, -⟩
    cases he

/-- A follower with its record OPEN, and with it SAMPLED. -/
def recording (s : State) (x : RecordState) : State :=
  { s with
    pc := { s.pc with transfer := 1 }, ow := { s.ow with receipt := .allfull }
    mr := { s.mr with record := { Record.empty with state := x, transfer := 1, externalEnd := false } } }

/-- The adoption of LINEUP; PU's figures at an OPEN record, under its number and under 0; PU stopped; a SAMPLED record. -/
theorem test_met_RecordAtFollowers : waits (bv .idle) (puShows .lineup 0 1) = true
    ∧ waits (recording (tw .pumping) .opened) (puShows .pumping 0 1) = true
    ∧ waits (recording (tw .pumping) .opened) (puShows .pumping 0 0) = true
    ∧ waits (recording (tw .closing) .opened) (puShows .closing 0 1) = true
    ∧ waits (recording (bv .ended) .sampled) (puShows .ended 0 1) = true := by decide +kernel

/-- A table of unprotected and protected entries, twelve with one that may be evicted, and twelve that are all protected. -/
def crowd (n : Nat) : List Entry := (List.range 12).map fun i => ⟨i + 2, none, decide (i < n), .present, 0, none⟩

/-- The table takes PU in: it is known, there is room, or an entry may go; with twelve protected entries it does not. -/
theorem test_met_RecordAtFollowers_table : TableTakes (withPeers (tw .closing) [peer 1 .pu (puShows .closing 0 1)]) 1
    ∧ TableTakes (withPeers (tw .closing) ((crowd 8).take 11)) 1 ∧ TableTakes (withPeers (tw .closing) (crowd 8)) 1
    ∧ TableTakes (withPeers (tw .closing) (crowd 11)) 1 ∧ ¬ TableTakes (withPeers (tw .closing) (crowd 12)) 1
    ∧ [crowd 8, crowd 12].all (fun l => waits (withPeers (recording (tw .closing) .opened) l) (puShows .closing 0 1)) := by
  refine ⟨.inl (by decide), .inr (.inl (by decide)), .inr (.inr (by decide)), .inr (.inr (by decide)), ?_, by decide +kernel⟩
  rintro (h | h | h) <;> revert h <;> decide

/-- With room for it PU's STATUS sets the external end, and in a table of twelve protected entries it does not. -/
theorem test_externalEnd_table : (after .rosterTakeFrame
      (withPu (withPeers (recording (tw .closing) .opened) (crowd 8)) (puShows .closing 0 1))).mr.record.externalEnd = true
    ∧ (after .rosterTakeFrame
      (withPu (withPeers (recording (tw .closing) .opened) (crowd 12)) (puShows .closing 0 1))).mr.record.externalEnd = false := by
  decide +kernel

/-- A STATUS of a TW at PU with the external end, and at a follower without it. -/
theorem test_met_RecordAtFollowers_received :
    let f := withCheck (statusBytes 5 .tw (shows .closing (twBody .complete .full)))
    let s := recording (bv .closing) .opened
    let u := { s with mr := { s.mr with record := { s.mr.record with externalEnd := true } } }
    readFrame f = some ⟨.status, ⟨5, .tw, 0, 0⟩, .status (shows .closing (twBody .complete .full))⟩
      ∧ s.running = true ∧ s.isClash ⟨5, .tw, 0, 0⟩ = false ∧ s.pc.order = none ∧ s.mr.record.state = .opened
      ∧ s.sr.entries = [] ∧ u.mr.record.externalEnd = true ∧ s.hasRole .pu = false := by decide +kernel

/-- Protected and unprotected, PUMPING and JOINING. -/
theorem test_met_SilenceAndRemoval :
    let e : Entry := peer 3 .sv (shows .pumping .mn)
    let u : Entry := { e with protected' := false }
    (withPeers (bv .pumping) [e]).listening = true ∧ (withPeers (bv .pumping) [e]).sr.find 3 = some e
      ∧ e.presence ≠ .silent ∧ (bv .pumping).running = true ∧ (bv .pumping).hasRole .pu = false
      ∧ (bv .pumping).pc.phase.active = true ∧ (bv .pumping).pc.order = none ∧ (bv .pumping).hasLatched .linkloss = false
      ∧ (joining (bv .idle)).listening = true ∧ (withPeers (bv .pumping) [u]).sr.find 3 = some u
      ∧ u.age ≤ (bv .pumping).sl.setup.silence := by decide

/-- PU in PAUSED, where no step and no sample is due whatever the table shows. -/
theorem test_met_SilenceAndRemoval_pu :
    let s := withPeers (pu .paused) [peer 3 .sv (shows .paused .mn)]
    s.runningPu = true ∧ s.pc.order = none ∧ s.pc.phase.active = true ∧ s.hasLatched .linkloss = false
      ∧ ∀ r, NoStepDue { s with sr := r } ∧ ¬ SampleDue { s with sr := r } :=
  ⟨by decide, by decide, by decide, by decide, fun _ =>
    ⟨.inr (.inl (.inr (.inr (.inl rfl)))), fun h => absurd (show RecordState.empty = .opened from h.1) (by decide)⟩⟩

/-- The station with a request outstanding. -/
def asking (s : State) : State := { s with rh := ⟨4, some ⟨.start, 3, 0, 0, .fromZero⟩⟩ }

/-- Not RUNNING, one outstanding, no live PU, and a live PU. -/
theorem test_met_RequestsAtFollower :
    let live := withPeers (bv .idle) [peer 1 .pu (shows .idle (puBody .stopped))]
    (bv .idle).lineFits = true ∧ (bv .idle).pp.queue.length ≤ 8 ∧ (joining (bv .idle)).running = false
      ∧ (asking (bv .idle)).rh.outstanding.isSome = true ∧ (asking (bv .idle)).lineFits = true
      ∧ (bv .idle).rh.outstanding = none ∧ (bv .idle).puLive = false ∧ live.puLive = true ∧ live.lineFits = true
      ∧ live.running = true ∧ live.role = some .bv := by decide

theorem test_met_RequestsAtFollower_ends : (asking (bv .idle)).rh.outstanding = some ⟨.start, 3, 0, 0, .fromZero⟩
    ∧ (asking (bv .idle)).pp.queue.length < 8 := by decide

theorem test_met_StepTimesOut : (withHand (pu .opening) .opening).runningPu = true
    ∧ (withHand (pu .opening) .opening).pc.inHand = some ⟨.opening, 0, .fromZero⟩
    ∧ (withHand (pu .opening) .opening).hasLatched .phase = false
    ∧ (withHand (pu .tripped) .tripped).pc.phase = .tripped := by decide

/-- PU in TRIPPED with MANUAL latched and standing. -/
def standing : State :=
  { pu .tripped with
    inputs := { (pu .tripped).inputs with esd := true }
    tu := { (pu .tripped).tu with latched := [⟨.manual, none⟩] } }

/-- BUSY, a wrong phase for each kind, BADARG at 0 and 10,000,000 L and at 999 and 3,000,001 L/h, and the three NOTREADY
and CAUSEACTIVE cases. -/
theorem test_met_RequestsTurnedAway : (pu .idle).lineFits = true ∧ (pu .idle).runningPu = true
    ∧ (withHand (pu .idle) .idle).pc.inHand.isSome = true ∧ (pu .idle).pc.inHand = none
    ∧ (0 < 1 ∧ 9999999 < 10000000 ∧ 999 < 1000 ∧ 3000000 < 3000001)
    ∧ (pu .paused).vp.pump ≠ .stopped ∧ (pu .lineup).pc.ready = false ∧ standing.firstActiveCause = some .manual
    ∧ standing.pc.phase = .tripped ∧ (pu .tripped).firstActiveCause = none ∧ (pu .tripped).vp.pump ≠ .stopped := by
  decide

/-- A peer that shows IDLE under generation 0, CLOSED. -/
def bvPeer : Entry := peer 2 .bv { shows .idle (.valve .shut 0 true) with closed := true }

theorem test_met_RequestsTaken_nominate : (withPeers (pu .idle) [bvPeer]).lineFits = true ∧ (withPeers (pu .idle) [bvPeer]).runningPu = true
    ∧ (withPeers (pu .idle) [bvPeer]).pc.inHand = none ∧ bvPeer.protected' = true ∧ bvPeer.presence = .present
    ∧ (bvPeer.shows 0 fun st => st.phase == .lineup) = false ∧ (1 ≤ 9999999 ∧ 1000 ≤ 3000000) := by decide

/-- The peers of a line-up ready set. -/
def readySet : List Entry :=
  [peer 2 .bv { shows .lineup (.valve .shut 0 true) with ready := true },
   peer 3 .sv { shows .lineup (.valve .shut 0 true) with ready := true },
   peer 5 .tw { shows .lineup (twBody .none .assigned) with ready := true }]

/-- START with READY clear and the set ready; with READY set and BV not ready; RESET with a peer that is not CLOSED. -/
theorem test_met_RequestsTurnedAway_peers :
    (withPeers (pu .lineup) readySet).lineupReadySet = true ∧ (withPeers (pu .lineup) readySet).pc.ready = false
      ∧ (withPeers (pu .lineup) [bvPeer]).lineupReadySet = false ∧ conf.lineup = [] ++ 2 :: [3, 5, 6, 9, 0, 0, 0]
      ∧ ((withPeers (pu .lineup) [bvPeer]).sr.entries.find? fun x => x.protected' && x.number == 2) = some bvPeer
      ∧ ¬ (bvPeer.presence = .present ∧ Showing (pu .lineup) bvPeer fun st => st.phase = .lineup ∧ st.ready = true)
      ∧ (withPeers { pu .tripped with vp := { (pu .tripped).vp with pump := .stopped } } readySet).firstActiveCause = none
      ∧ ¬ ((peer 2 .bv (shows .lineup .mn)).presence = .present
          ∧ Showing (pu .tripped) (peer 2 .bv (shows .lineup .mn)) fun st => st.cause = false ∧ st.closed = true) := by
  refine ⟨by decide, by decide, by decide, rfl, by decide, ?_, by decide, ?_⟩ <;>
    (rintro ⟨-, st, h, -, h1, h2⟩; cases h; first | exact absurd h1 (by decide) | exact absurd h2 (by decide))

/-- Every entry of the list ready but none held for station 6: START names no station. -/
theorem test_met_RequestsTurnedAway_noName : (withPeers (pu .lineup) []).lineupReadySet = false
    ∧ ∀ n ∈ conf.lineup, ((withPeers (pu .lineup) []).sr.entries.find? fun x => x.protected' && x.number == n) = none := by
  decide

/-- START, RESUME, RESET and the others. -/
theorem test_met_RequestsTaken :
    (let s := withPeers { pu .lineup with pc := { (pu .lineup).pc with ready := true } } readySet
     s.lineupReadySet = true ∧ s.pc.ready = true ∧ s.someSilent = false ∧ s.hw.chans.n1.fault = false ∧ s.lineFits = true
       ∧ s.runningPu = true ∧ s.pc.inHand = none ∧ (∀ e ∈ s.sr.entries, (e.shows 0 fun st => st.phase == .opening) = false))
    ∧ (let s := withPeers { pu .tripped with vp := { (pu .tripped).vp with pump := .stopped } } [bvPeer]
       s.tu.latched = [] ∧ s.vp.pump = .stopped ∧ s.peersResettable = true
         ∧ (bvPeer.shows 1 fun st => st.phase == .ended) = false)
    ∧ (withPeers (pu .pumping) [bvPeer]).pc.phase = .pumping
    ∧ (bvPeer.shows 0 fun st => st.phase == .paused) = false := by decide +kernel

theorem test_met_ManualTrips : (sv .pumping).running = true ∧ (sv .pumping).hasLatched .manual = false
    ∧ (sv .pumping).lineFits = true ∧ (sv .pumping).inputs.esd = false ∧ (pu .pumping).hasRole .pu = true
    ∧ (sv .pumping).closingRole = true := by decide

/-- MANUAL latched, with ESD_IN off. -/
theorem test_met_ManualTrips_latched :
    let s := { standing with inputs := (pu .tripped).inputs }
    s.running = true ∧ s.hasLatched .manual = true ∧ s.lineFits = true ∧ s.inputs.esd = false := by decide

theorem test_met_ManualTrips_released : standing.inputs.esd = true ∧ standing.tu.latched = [⟨.manual, none⟩] := by decide

theorem test_met_Acknowledge : (mn .idle).inputs.ack = false ∧ (mn .idle).lineFits = true ∧ (mn .idle).pc.station ≠ .startup
    ∧ State.reset.pc.station = .startup ∧ State.reset.lineFits = true
    ∧ ({ mn .idle with inputs := { (mn .idle).inputs with ack := true } }).inputs.ack = true := by decide

theorem test_met_CadenceToggles : hornCadence [⟨.trip, .activeNew⟩] = .fast ∧ hornCadence [⟨.ratecap, .activeNew⟩] = .slow
    ∧ beaconCadence [⟨.trip, .activeAcked⟩] = .steady ∧ beaconCadence [] = .off := by decide

/-- The qualification timers about to run out. -/
def qualified (s : State) : State :=
  { s with tu := { s.tu with
      overfill := .fill ⟨true, ⟨true, 1000⟩⟩, surge := ⟨true, ⟨true, 500⟩⟩, leak := ⟨true, ⟨true, 2000⟩⟩ } }

/-- OVERFILL at TW in IDLE; SURGE and LEAK in PUMPING; SURGE disabled with AN1 above the threshold. -/
theorem test_met_QualificationExpires : (qualified (tw .idle)).running = true ∧ (qualified (tw .idle)).hasRole .tw = true
    ∧ ((qualified (tw .idle)).tu.overfill.get .n4).timer.running = true ∧ (qualified (tw .idle)).hasLatched .overfill = false
    ∧ (qualified (sv .pumping)).tu.mask.surge = true ∧ (qualified (sv .pumping)).tu.mask.leak = true
    ∧ (let s := { qualified (bv .pumping) with
          tu := { (qualified (bv .pumping)).tu with mask := ⟨false, true, true, true⟩ }
          hw := { (bv .pumping).hw with chans := { (bv .pumping).hw.chans with n1 := ⟨true, 2500, none, some 1501, false, 0, 0⟩ } } }
       s.aboveThreshold = true ∧ s.hasRole .pu = false ∧ alarmEntry s.an.set .surge = none
         ∧ s.tu.surge.timer.running = true) := by decide

/-- The station with SURGE and LEAK disabled, their timers about to run out, and AN1 at a value. -/
def disabledAt (s : State) (v : Nat) : State :=
  { qualified s with
    tu := { (qualified s).tu with mask := ⟨false, false, true, true⟩ }
    hw := { s.hw with chans := { s.hw.chans with n1 := ⟨true, 2500, none, some v, false, 0, 0⟩ } } }

/-- LEAK disabled at SV in TOPPING: BV 101 kPa above it leaks past the band of 100, and 100 does not; the alarm stands. -/
theorem test_met_QualificationExpires_leak :
    let at' := fun p : Nat =>
      (withPeers (disabledAt (sv .topping) 50) [peer 2 .bv (shows .topping (.valve .opened p true))]).watchLeak
    (at' 151).hw.leakCond = true ∧ (at' 150).hw.leakCond = false ∧ alarmEntry (at' 151).an.set .leak = none
      ∧ (at' 151).tu.leak.timer.running = true
      ∧ (after (.qualificationExpiry .leak) (at' 151)).an.set = [⟨.leak, .activeNew⟩]
      ∧ (after (.qualificationExpiry .leak) (at' 151)).pc.phase = .topping := by decide

/-- TW in a phase with tank 1's channel SHUT and its level at 10,999 mm. -/
def tankReady (p : Phase) : State :=
  { tw p with
    vp := { (tw p).vp with channels := .fill ⟨.shut, .none, false, .off, .stopped, .stopped⟩ }
    ow := { (tw p).ow with tanks := .fill { Tank.start with level := some 10999, levelValid := true } } }

/-- IDLE and LINEUP; topping level and one less; a valve not SHUT; the other roles, states and phases; tank 3 of two. -/
theorem test_met_TankCommands : [tankReady .idle, tankReady .lineup].all (fun s => s.lineFits && s.running && s.hasRole .tw
      && (s.vp.channels.get .n2).state == .shut && (s.ow.tanks.get .n2).levelValid
      && (s.ow.tanks.get .n2).level == some 10999 && decide (10999 < (s.sl.setup.tanks.get .n2).topping))
    ∧ Ch.n2.num ≤ conf.tankCount ∧ conf.tankCount < Ch.n3.num ∧ (tw .idle).vp.channels.n1.state ≠ .shut
    ∧ (tw .idle).ow.tanks.n1.levelValid = false ∧ (mn .idle).hasRole .tw = false
    ∧ (joining (tw .idle)).running = false ∧ (tw .opening).pc.phase ≠ .idle := by decide

/-- R19: READY at TW follows ASSIGN and UNASSIGN in LINEUP. -/
theorem test_met_TankCommands_ready : ((tankReady .lineup).ow.tanks.get .n2).state = .excluded
    ∧ ((after (.assign 2) (tankReady .lineup)).ow.tanks.get .n2).state = .assigned
    ∧ (after (.assign 2) (tankReady .lineup)).pc.ready = true
    ∧ (after (.unassign 2) (after (.assign 2) (tankReady .lineup))).pc.ready = false := by decide +kernel

theorem test_met_ReportMask : (mn .idle).lineFits = true ∧ (mn .idle).pp.queue.length < 8
    ∧ ClassMask.start.has (Event.strayAnswer 0 .taken).cls = false
    ∧ exec .silence (mn .idle) = .next (after .silence (mn .idle)) := ⟨by decide, by decide, by decide, rfl⟩

/-- A full queue that holds events in which a line fits: MASK takes the newest EVENT's place, and not that of the one being
sent. -/
theorem test_met_ReportMask_full :
    let e := fun n : Nat => Queued.mk (.event (.entryCreated n)) false
    let d := Queued.mk (.data .nothing) false
    let s := { mn .idle with pp := { (mn .idle).pp with queue := [e 1, e 2, d, d, d, d, d, d] } }
    let u := { mn .idle with pp := { (mn .idle).pp with queue := [e 1, e 2, e 3, d, d, d, d, d] } }
    s.lineFits = true ∧ u.lineFits = true
      ∧ HoldsWaitingEvent s.pp ∧ s.pp.queue.length = 8
      ∧ (after (.mask .all) u).pp.queue
          = [e 1, e 2, d, d, d, d, d, ⟨.answer (some .mask) none (.decided .taken) .none, false⟩] := by
  exact ⟨by decide, by decide, ⟨_, [], _, _, rfl, rfl, by decide⟩, rfl, by decide⟩

theorem test_met_ReadsOfEveryStation : (pu .idle).lineFits = true ∧ (pu .idle).hasRole .pu = true ∧ (mn .idle).hasRole .pu = false := by
  decide

theorem test_met_ReadsOfTheField : [pu .idle, bv .idle, sv .idle, tw .idle, mn .idle].all (fun s => s.lineFits && s.role.isSome)
    ∧ (4 < 5) ∧ (tw .idle).role = some .tw := by decide

theorem test_met_ReadsOfTheRoster :
    let s := withPeers (pu .idle) [bvPeer, peer 15 .mn (shows .idle .mn)]
    s.lineFits = true ∧ s.sr.entries = [bvPeer] ++ peer 15 .mn (shows .idle .mn) :: []
      ∧ (∀ x ∈ [bvPeer], x.number ≠ 15) ∧ ∀ e ∈ s.sr.entries, e.number ≠ 1 := by decide

/-- A station whose report queue is full of DATA reports. -/
def fullQueue : State := { mn .idle with pp := { (mn .idle).pp with queue := List.replicate 8 ⟨.data .nothing, false⟩ } }

theorem test_met_EveryLineIsAnswered : isPanelLine .readPanel = true ∧ fullQueue.pp.queue.length ≤ 8 ∧ fullQueue.lineFits = false
    ∧ (mn .idle).lineFits = true := by decide

theorem test_met_CharactersTyped : (0x20 : Byte).toNat = 0x20 ∧ (0x7E : Byte).toNat ≤ 0x7E ∧ (mn .idle).pp.buffer.length < 40
    ∧ 40 ≤ (List.replicate 40 (0x41 : Byte)).length ∧ (∀ x ∈ ([0x20] : List Byte), x = 0x20)
    ∧ (mn .idle).pp.overlong = false ∧ (mn .idle).lineFits = true ∧ (0x7F : Byte) ≠ 0x0D := by decide

/-- A typed line splits into its words, whatever its case and its spaces. -/
theorem typed_start : Typed [ReqKind.start.text] (word [' ', 's', 't', 'A', 'r', 't', ' ']) :=
  .word [0x20] (word ['s', 't', 'A', 'r', 't']) [0x20] [] (by decide) (by decide) (by decide) (by decide)
    (.blank [0x20] (by decide))

/-- A line of one command, one of no command, a blank one, and an overlong one with no room. -/
theorem test_met_CharactersTyped_lines : Typed [ReqKind.start.text] (word [' ', 's', 't', 'A', 'r', 't', ' '])
    ∧ Fits .start [ReqKind.start.text] ∧ Typed [word ['X']] (word ['x']) ∧ (∀ i, ¬ Fits i [word ['X']])
    ∧ Typed [] (word [' ']) ∧ fullQueue.lineFits = false := by
  refine ⟨typed_start, rfl, .word [] (word ['x']) [] [] (by decide) (by decide) (by decide) (by decide)
    (.blank [] (by decide)), fun i h => ?_, .blank _ (by decide), by decide⟩
  have hx : ∀ w, (∃ rest, [word ['X']] = w :: rest) → w = word ['X'] := fun w ⟨_, h⟩ => (List.cons.inj h).1.symm
  have hn : ∀ c : CommandWord, c.text ≠ word ['X'] := by
    intro c
    cases c with
    | request k => cases k <;> decide
    | _ => decide
  have hc : ∃ (c : CommandWord) (rest : _), [word ['X']] = c.text :: rest := by
    cases i <;>
      first
        | exact ⟨.request .nominate, _, h.choose_spec.choose_spec.1⟩
        | exact ⟨.request .start, _, h⟩
        | exact ⟨.request .pause, _, h⟩
        | exact ⟨.request .resume, _, h⟩
        | exact ⟨.request .stop, _, h⟩
        | exact ⟨.request .reset, _, h⟩
        | exact ⟨.request .endack, _, h⟩
        | exact ⟨.trip, _, h⟩
        | exact ⟨.silence, _, h⟩
        | exact ⟨.assign, _, h.choose_spec.1⟩
        | exact ⟨.unassign, _, h.choose_spec.1⟩
        | exact ⟨.read, _, h.choose_spec.1⟩
        | (rename_i m; cases m <;> exact ⟨.mask, _, h⟩)
  obtain ⟨c, rest, h⟩ := hc
  exact hn c (hx _ ⟨rest, h⟩)

theorem test_met_ReportLeaves : (∃ q q' rest, fullQueue.pp.queue = q :: q' :: rest) ∧ (mn .idle).pp.queue = []
    ∧ DataBody.notInRoster ≠ .nothing :=
  ⟨⟨_, _, _, rfl⟩, rfl, by decide⟩

/-- R199: an ANSWER that ends a request made over the link, with the LOST mark. -/
theorem test_text_answer :
    Queued.text ⟨.answer (some (.request .start)) (some 70) (.decided .notready) (.station 3), true⟩
      = word ['L', 'O', 'S', 'T', ' ', 'A', 'N', 'S', 'W', 'E', 'R', ' ', 'S', 'T', 'A', 'R', 'T', ' ', '7', '0', ' ', 'N',
          'O', 'T', 'R', 'E', 'A', 'D', 'Y', ' ', '3'] ++ [0x0D, 0x0A] := by decide +kernel

/-- R199, R203: the three lines of NOT IN ROSTER, and the line NONE. -/
theorem test_text_data :
    Queued.text ⟨.data .notInRoster, false⟩
      = word ['D', 'A', 'T', 'A', ' ', 'R', 'O', 'S', 'T', 'E', 'R'] ++ [0x0D, 0x0A]
        ++ word ['N', 'O', 'T', ' ', 'I', 'N', ' ', 'R', 'O', 'S', 'T', 'E', 'R'] ++ [0x0D, 0x0A]
        ++ word ['E', 'N', 'D'] ++ [0x0D, 0x0A]
      ∧ Queued.text ⟨.data .nothing, false⟩ = word ['N', 'O', 'N', 'E'] ++ [0x0D, 0x0A] := by decide +kernel

/-- BV in PUMPING and IDLE with SEP_IN off, on; a tank in use and one that is not. -/
theorem test_met_SeparationAndHighHigh : (bv .pumping).running = true ∧ (bv .pumping).valveRole = true ∧ (bv .pumping).inputs.sep = false
    ∧ (bv .pumping).hasLatched .separation = false ∧ (bv .idle).valveRole = true ∧ (mn .idle).valveRole = false
    ∧ (let s := { bv .tripped with
          inputs := { (bv .tripped).inputs with sep := true }, tu := { (bv .tripped).tu with latched := [⟨.separation, none⟩] } }
       s.running = true ∧ s.inputs.sep = true ∧ s.tu.latched = [⟨.separation, none⟩])
    ∧ (tw .idle).listening = true ∧ (tw .idle).tankUsed .n2 = true ∧ (tw .idle).inputs.hh.get .n2 ≠ true
    ∧ ((tw .idle).tu.overfill.get .n2).armed = false ∧ (tw .idle).tankUsed .n3 = false := by decide

/-- A station with VC1 as given, and its switches. -/
def valveAt (s : State) (c : Channel) (os cs : Bool) : State :=
  { s with
    inputs := { s.inputs with openSw := s.inputs.openSw.set .n1 os, shutSw := s.inputs.shutSw.set .n1 cs }
    vp := { s.vp with channels := s.vp.channels.set .n1 c } }

/-- A channel at rest in a state. -/
def resting (st : ValveState) : Channel := ⟨st, .none, false, .off, .stopped, .stopped⟩

/-- Arrivals, the four ways into FAULT, following, and FAULT left while HOLDING. -/
theorem test_met_ValveSwitches :
    let opening : Channel := ⟨.opening, .opened, false, .opened, .stopped, .fromZero⟩
    let closing : Channel := ⟨.closing, .close, false, .close, .stopped, .fromZero⟩
    (valveAt (bv .opening) opening false false).running = true
      ∧ (valveAt (bv .opening) opening false false).channelUsed .n1 = true
      ∧ (valveAt (bv .opening) opening false false).inputs.openSw.get .n1 ≠ true
      ∧ opening.state ≠ .fault ∧ closing.command = .close
      ∧ (valveAt (bv .closing) closing false false).inputs.shutSw.get .n1 ≠ true
      ∧ (valveAt (bv .opening) (resting .shut) false true).inputs.shutSw.get .n1 ≠ false
      ∧ (bv .opening).pc.phase.active = true ∧ (bv .opening).hasLatched .valve = false
      ∧ (bv .idle).pc.phase.active = false ∧ (resting .shut).command = .none ∧ (resting .shut).pending = false
      ∧ ({ valveAt (bv .tripped) (resting .fault) false true with
            vp := { (valveAt (bv .tripped) (resting .fault) false true).vp with holdOff := .holding } }).vp.holdOff = .holding
      ∧ (mn .idle).channelUsed .n1 = false ∧ (joining (bv .idle)).running = false := by decide

/-- FAULT in TRIPPED once RELEASED, FAULT in an active phase, and both switches on. -/
theorem test_met_ValveSwitches_fault :
    let s := valveAt (bv .tripped) (resting .fault) false false
    let u := { s with vp := { s.vp with holdOff := .released } }
    u.running = true ∧ u.channelUsed .n1 = true ∧ u.inputs.openSw.get .n1 ≠ true ∧ u.vp.holdOff = .released
      ∧ (resting .fault).pending = false ∧ (resting .fault).dwell.running = false ∧ (resting .fault).drive = .off
      ∧ (valveAt (bv .opening) (resting .fault) false false).pc.phase.active = true
      ∧ (valveAt (bv .tripped) (resting .fault) true false).inputs.shutSw.get .n1 ≠ true := by decide

/-- R17, R19: VC1 of SV seen SHUT in LINEUP sets READY and CLOSED. -/
theorem test_met_ValveSwitches_ready :
    let s := valveAt (sv .lineup) (resting .stopped) false false
    s.running = true ∧ s.channelUsed .n1 = true ∧ s.inputs.shutSw.get .n1 ≠ true
      ∧ (after (.valveSwitchChange .n1 .shutSw true) s).pc.ready = true
      ∧ (after (.valveSwitchChange .n1 .shutSw true) s).pc.closed = true := by decide +kernel

/-- A waiting drive each way with AN1 valid, a travel limit, a HOLDING station with a pending channel. -/
theorem test_met_ValveTimers :
    let s := valveAt (bv .opening) ⟨.opening, .opened, false, .off, .fromZero, .stopped⟩ false true
    let c := valveAt (bv .tripped) ⟨.opened, .close, true, .off, .stopped, .stopped⟩ true false
    (s.vp.channels.get .n1).dwell.running = true ∧ (s.vp.channels.get .n1).command = .opened
      ∧ s.openOn .n1 = false ∧ s.pressure = some 50 ∧ s.hw.excursion = .none ∧ s.valveRole = true
      ∧ (⟨.closing, .close, false, .close, .stopped, .fromZero⟩ : Channel).travel.running = true
      ∧ ({ c with vp := { c.vp with holdOff := .holding } }).vp.holdOff = .holding ∧ c.channelUsed .n1 = true
      ∧ (c.vp.channels.get .n1).pending = true ∧ (c.vp.channels.get .n1).dwell.running = false
      ∧ (c.vp.channels.get .n1).drive = .off ∧ c.shutOn .n1 = false ∧ (mn .idle).vp.holdOff ≠ .holding := by decide

/-- PU with a pump state and PUMP_FB. -/
def pumpAt (p : Phase) (st : PumpState) (run fb : Bool) : State :=
  { pu p with
    inputs := { (pu p).inputs with pumpFb := fb }
    vp := { (pu p).vp with pump := st, pumpRun := run, feedback := .fromZero, stopTimer := .fromZero } }

/-- A peer that has not confirmed a step. -/
theorem unconfirmed_of_peer (s : State) (p : Phase) (h : (bvPeer.shows s.pc.gen fun st => st.phase == p) = false) :
    Unconfirmed (withHand (withPeers s [bvPeer]) p) :=
  ⟨_, bvPeer, rfl, List.mem_singleton_self _, rfl, rfl, h⟩

/-- With no trigger of its phase holding PC has no step to take. -/
theorem noDue_of {s : State} (h : s.trigger = none) (p : Phase) (k : EndKind) : ¬ Due s p k := fun hd => by
  rw [(s.trigger_iff p k).2 hd] at h
  cases h

/-- Feedback on at STARTING and at STOPPED, off at RUNNING and at STOPPING, with the settle fact at 99 kPa and without it
at 100 kPa. -/
theorem test_met_PumpWatched : (pumpAt .starting .starting true false).hasRole .pu = true
    ∧ (pumpAt .starting .starting true false).listening = true
    ∧ NoStepDue (withHand (withPeers (pumpAt .starting .running true false) [bvPeer]) .starting)
    ∧ (pumpAt .paused .stopped false false).pc.phase.active = true ∧ (pumpAt .idle .stopped false false).pc.phase.active = false
    ∧ (pumpAt .pumping .running true true).vp.pumpRun = true ∧ (pumpAt .pumping .running true true).hasLatched .pump = false
    ∧ (pumpAt .tripped .stopping false true).pressure = some 50 ∧ 50 < (pumpAt .tripped .stopping false true).hw.settleLevel
    ∧ NoStepDue (pumpAt .tripped .stopped false true) ∧ NoStepDue (pumpAt .idle .stopping false true)
    ∧ (mn .idle).hasRole .pu = false :=
  ⟨by decide, by decide, .inr (.inr (.inl (unconfirmed_of_peer _ _ (by decide)))), by decide, by decide, by decide, by decide,
    by decide, by decide, .inr (.inl (by decide)), .inr (.inl (by decide)), by decide⟩

theorem test_met_PumpWatched_timers : (pumpAt .starting .starting true false).vp.feedback.running = true
    ∧ (pumpAt .starting .starting true false).running = true ∧ (pumpAt .starting .starting true false).hasLatched .pump = false
    ∧ (pumpAt .stopping .stopping false true).vp.stopTimer.running = true
    ∧ (pumpAt .stopping .stopping false true).pc.phase.active = true
    ∧ NoStepDue (pumpAt .idle .stopping false true) ∧ (pumpAt .idle .stopping false true).pc.phase.pumpOn = false :=
  ⟨by decide, by decide, by decide, by decide, by decide, .inr (.inl (by decide)), by decide⟩

/-- R17, R19: the stop proved in LINEUP at PU sets READY and CLOSED; both timers running. -/
theorem test_met_PumpWatched_flags :
    let s := pumpAt .lineup .stopping false true
    s.hasRole .pu = true ∧ s.listening = true ∧ s.inputs.pumpFb = true ∧ s.vp.feedback.running = true
      ∧ s.vp.stopTimer.running = true ∧ (after (.pumpFbChange (!s.inputs.pumpFb)) s).pc.ready = true
      ∧ (after (.pumpFbChange (!s.inputs.pumpFb)) s).pc.closed = true := by decide +kernel

/-- PU in a phase with a record. -/
def metering (p : Phase) (r : Record) : State :=
  { pu p with mr := { (pu p).mr with record := r, window := .fromZero, startLimit := .fromZero } }

/-- EMPTY, OPEN with and without counting, at 99,999,998 L and at the ceiling, SAMPLED; PUMPING with a step in hand. -/
theorem test_met_MeterPulses : (metering .idle .empty).hasRole .pu = true ∧ (metering .idle .empty).listening = true
    ∧ 0 < conf.meterK ∧ ((metering .idle .empty).mr.residual + 10) / conf.meterK = 1 ∧ NoStepDue (metering .idle .empty)
    ∧ NoStepDue (withHand (withPeers (metering .pumping { Record.empty with state := .opened, counting := true, delivered := 99999998 })
        [bvPeer]) .pumping)
    ∧ ({ Record.empty with state := .sampled, afterFlow := 99999999 }).afterFlow ≤ 99999999
    ∧ (metering .idle .empty).mr.windowLitres + 1 ≤ 99999999 ∧ (mn .idle).hasRole .pu = false :=
  ⟨by decide, by decide, by decide, by decide, .inr (.inl (by decide)),
    .inr (.inr (.inl (unconfirmed_of_peer _ _ (by decide)))), by decide, by decide, by decide⟩

/-- PUMPING with its step confirmed, far from its nomination, as a litre or a window leaves it. -/
theorem test_met_MeterPulses_confirmed : NoStepDue (metering .pumping { Record.empty with
      state := .opened, counting := true, nomination := 400000, maxRate := 300000, delivered := 100 })
    ∧ (metering .pumping Record.empty).running = true :=
  ⟨.inr (.inr (.inr (noDue_of (by decide)))), by decide⟩

/-- PU in PUMPING with its step not confirmed, a record, and a window of some litres. -/
def window (litres zeros below : Nat) (cap : Bool) : State :=
  withHand (withPeers { pu .pumping with mr := { (pu .pumping).mr with
    window := ⟨true, 10000⟩, windowLitres := litres, zeroCount := zeros, belowCount := below, cap := cap
    record := { Record.empty with state := .opened, counting := true, maxRate := 300000 } } } [bvPeer]) .pumping

/-- Empty windows, the cap passed at 834 L and not at 833 L, its clearing below 750 L, and the start limit. -/
theorem test_met_RateWindows : (window 0 0 0 false).runningPu = true ∧ (window 0 1 0 false).mr.window.running = true
    ∧ NoStepDue (window 0 0 0 false) ∧ (window 0 1 0 false).hasLatched .noflow = false
    ∧ (window 0 1 0 false).tu.mask.noflow = true ∧ 300000 < 834 * 360 ∧ ¬ 300000 < 833 * 360
    ∧ 749 * 360 < 300000 * 90 / 100 ∧ 300000 * 90 / 100 ≤ 750 * 360
    ∧ (metering .starting .empty).mr.startLimit.running = true ∧ (metering .starting .empty).pc.phase = .starting
    ∧ NoStepDue (metering .idle .empty) ∧ (mn .idle).mr.window.running = false ∧ (mn .idle).mr.startLimit.running = false :=
  ⟨by decide, by decide, .inr (.inr (.inl (unconfirmed_of_peer _ _ (by decide)))), by decide, by decide, by decide, by decide,
    by decide, by decide, by decide, by decide, .inr (.inl (by decide)), by decide, by decide⟩

/-- A window in a confirmed PUMPING, and one in STARTING that proves the flow while the step waits. -/
theorem test_met_RateWindows_confirmed :
    NoStepDue (metering .pumping { Record.empty with
      state := .opened, counting := true, nomination := 400000, maxRate := 300000, delivered := 100 })
      ∧ (let s := withHand (withPeers (metering .starting { Record.empty with state := .opened, maxRate := 1000 }) [bvPeer]) .starting
         NoStepDue { s with mr := { s.mr with startFlow := true } }) :=
  ⟨.inr (.inr (.inr (noDue_of (by decide)))), .inr (.inr (.inl (unconfirmed_of_peer _ _ (by decide))))⟩

/-- A start limit in a STARTING whose step waits, with NOFLOW disabled. -/
theorem test_met_RateWindows_disabled :
    let s := withHand (withPeers (metering .starting .empty) [bvPeer]) .starting
    let u := { s with tu := { s.tu with mask := { s.tu.mask with noflow := false } } }
    u.mr.startLimit.running = true ∧ u.running = true ∧ u.pc.phase = .starting ∧ NoStepDue u :=
  ⟨by decide, by decide, by decide, .inr (.inr (.inl (unconfirmed_of_peer _ _ (by decide))))⟩

/-- A station reading AN1, with the channel as given. -/
def readingAt (s : State) (c : ScanChannel) : State :=
  { s with hw := { s.hw with slot := some .n1, chans := { s.hw.chans with n1 := c } } }

/-- Raw 40 and 41, 4054 and 4055; counts 1 and 2; the next channel of TW, and none after. -/
theorem test_met_ReadingsCompleted : (readingAt (tw .pumping) ⟨true, 2500, none, none, false, 2, 0⟩).listening = true
    ∧ (readingAt (tw .pumping) ⟨true, 2500, none, none, false, 2, 0⟩).hw.slot = some .n1
    ∧ (readingAt (tw .pumping) ⟨true, 2500, none, none, true, 0, 2⟩).hw.chans.n1.fault = true
    ∧ (40 : BitVec 12).toNat ≤ 40 ∧ ¬ (41 : BitVec 12).toNat ≤ 40 ∧ 4055 ≤ (4055 : BitVec 12).toNat
    ∧ (tw .pumping).tankUsed .n1 = true ∧ (tw .pumping).pressureRole = false ∧ (tw .pumping).tu.mask.sensor = true
    ∧ ((tw .pumping).hw.chans.get .n2).enabled = true ∧ (tw .pumping).hw.slot = none
    ∧ (∀ n, ((mn .idle).hw.chans.get n).enabled = false) := by
  refine ⟨by decide, by decide, by decide, by decide, by decide, by decide, by decide, by decide, by decide, by decide,
    by decide, ?_⟩
  intro n
  cases n <;> rfl

/-- AN1 at 1,650 and 1,651 kPa of a span of 4,095, the excursion states, the settle level, and the two timers. -/
theorem test_met_PressureWatched :
    let s := readingAt (sv .pumping) ⟨true, 4095, none, some 50, false, 0, 0⟩
    let p := readingAt (pumpAt .idle .stopping false false) ⟨true, 4095, none, some 500, false, 0, 0⟩
    s.running = true ∧ s.pressureRole = true ∧ (1651 : BitVec 12).toNat * 4095 / 4095 = 1651 ∧ s.hw.hardLimit < 1651
      ∧ 1650 ≤ s.hw.hardLimit ∧ s.valveRole = true ∧ p.hasRole .pu = true ∧ p.inputs.pumpFb = false
      ∧ 99 < p.hw.settleLevel ∧ NoStepDue { p with vp := { p.vp with pump := .stopped } } ∧ (mn .idle).hw.allowance.running = false ∧ (mn .idle).hw.relax.running = false
      ∧ ({ s with hw := { s.hw with allowance := ⟨true, 2000⟩, excursion := .excursion } }).hasLatched .surge = false :=
  ⟨by decide, by decide, by decide, by decide, by decide, by decide, by decide, by decide, by decide,
    .inr (.inl (by decide)), by decide, by decide, by decide⟩

/-- SURGE disabled at a PU in TRIPPED, and in PUMPING with a step that a peer has not confirmed. -/
theorem test_met_QualificationExpires_surgeAtPu :
    NoStepDue (disabledAt (pu .tripped) 1501)
      ∧ NoStepDue (withHand (withPeers (disabledAt (pu .pumping) 1501) [bvPeer]) .pumping)
      ∧ (disabledAt (pu .tripped) 1501).aboveThreshold = true ∧ alarmEntry (disabledAt (pu .tripped) 1501).an.set .surge = none :=
  ⟨.inr (.inl (by decide)), .inr (.inr (.inl (unconfirmed_of_peer _ _ (by decide)))), by decide, by decide⟩

/-- AN1's third bad reading, in RELAX, in EXCURSION and in JOINING, at raw 4055 and 40. -/
theorem test_met_PressureWatched_fault :
    let s := fun (u : State) (e : Excursion) =>
      { readingAt u ⟨true, 2500, none, some 1700, false, 2, 0⟩ with
        hw := { (readingAt u ⟨true, 2500, none, some 1700, false, 2, 0⟩).hw with
          excursion := e, allowance := .fromZero, relax := .fromZero, hardCount := 2, surgeCond := true } }
    [(s (sv .pumping) .relax, 4055#12), (s (pu .idle) .excursion, 40#12), (s (joining (bv .idle)) .allowed, 0#12)].all
      (fun p => p.1.listening && p.1.pressureRole && p.1.hw.slot == some .n1 && !p.1.hw.chans.n1.fault
        && decide (2 ≤ p.1.hw.chans.n1.badCount)
        && (after (.scanReading p.2) p.1).hw.excursion == .none
        && (after (.scanReading p.2) p.1).hw.relax == .stopped
        && (after (.scanReading p.2) p.1).hw.hardCount == 0) = true := by decide +kernel

/-- SV with AN1 at 50 kPa and its next reading 50 kPa, and a STATUS of BV at a pressure in the delivery slot. -/
def leaking (s : State) (p : Nat) : State :=
  readingAt (withFrame s (withCheck (statusBytes 2 .bv (shows .idle (.valve .shut p true)))))
    ⟨true, 4095, none, some 50, false, 0, 0⟩

/-- R113 with the band of 100 kPa of the setup: at BV's STATUS in RUNNING 150 kPa does not leak and 151 does, and a peer
that falls silent leaves no leak. -/
theorem test_met_StatusEntersRoster_leak :
    (after .rosterTakeFrame (leaking (sv .idle) 150)).hw.leakCond = false
      ∧ (after .rosterTakeFrame (leaking (sv .idle) 151)).hw.leakCond = true
      ∧ (after (.silenceLimit 2) (withPeers { sv .idle with hw := { (sv .idle).hw with leakCond := true } }
          [peer 2 .bv (shows .idle (.valve .shut 151 true))])).hw.leakCond = false := by decide +kernel

/-- R29: in JOINING the frame is entered and no block is told of it; the next good reading of AN1 (R113) finds the table
as it then stands, and so does the entry into RUNNING (log 25). -/
theorem test_met_PressureWatched_leak :
    let s := after .rosterTakeFrame (leaking (joining (sv .idle)) 151)
    s.bvPressure = some 151 ∧ s.hw.leakCond = false ∧ s.listening = true ∧ s.pressureRole = true
      ∧ (after (.scanReading 50) s).hw.leakCond = true ∧ (after (.scanReading 51) s).hw.leakCond = false
      ∧ (after .joinWindowEnd s).hw.leakCond = true := by decide +kernel

/-- A tank's channel goes into fault in LINEUP: the SENSOR alarm and no latch. -/
theorem test_met_ReadingsCompleted_alarm :
    let s := readingAt (tw .lineup) ⟨true, 2500, none, some 50, false, 2, 0⟩
    s.running = true ∧ s.hw.chans.n1.enabled = true ∧ s.pc.phase.active = false ∧ alarmEntry s.an.set (.sensor .n1) = none
      ∧ (after (.scanReading 0) s).an.set = [⟨.sensor .n1, .activeNew⟩] := by decide +kernel

/-- TW reading tank 1 in a state, with its receipt state. -/
def tankAt (p : Phase) (x : TankState) (r : ReceiptState) : State :=
  readingAt { tw p with ow := { (tw p).ow with receipt := r, tanks := .fill { Tank.start with state := x, takingPart := true } } }
    ⟨true, 12600, none, none, false, 0, 0⟩

/-- Levels at each bound of the setup, the states of the level steps, another tank open and none, and the receipt states. -/
theorem test_met_TankReadings : [tankAt .topping .topping .receiving, tankAt .pumping .opened .receiving,
      tankAt .closing .full .settling, tankAt .idle .excluded .none].all (fun s => s.running && s.hasRole .tw
        && s.hw.slot == some .n1 && s.tankUsed .n1 && !(s.hw.chans.get .n1).fault)
    ∧ [(3575, 11000), (3770, 11600), (3884, 11950), (3900, 12000), (4030, 12400)].all (fun p : Nat × Nat =>
        decide (40 < p.1 ∧ p.1 < 4055 ∧ p.1 * 12600 / 4095 = p.2))
    ∧ (tankAt .topping .topping .receiving).pc.phase.active = true
    ∧ (tankAt .topping .topping .receiving).ow.claim.waiting = false
    ∧ (tankAt .topping .topping .receiving).peerRoute = false
    ∧ (withPeers (tankAt .topping .topping .receiving) [peer 6 .tw (shows .topping (twBody .receiving .topping))]).peerRoute = true
    ∧ (tankAt .idle .excluded .none).pc.phase.active = false := by decide

/-- TW in TOPPING waiting with a claim for T1, and a peer as given. -/
def claiming (e : Entry) : State :=
  withPeers { tw .topping with ow := { (tw .topping).ow with claim := ⟨true, some .n1, ⟨true, 500⟩⟩ } } [e]

/-- A peer with an open route; a lower peer that claims, with one and without. -/
theorem test_met_ClaimDecided :
    let route := peer 6 .tw (shows .topping (twBody .receiving .topping))
    let below := peer 4 .tw { shows .topping (twBody .receiving .topping) with claim := true }
    (claiming route).ow.claim.waiting = true ∧ (claiming route).ow.claim.tank = some .n1
      ∧ (claiming route).peerClaimBelow = false ∧ (claiming route).peerRoute = true
      ∧ (claiming below).peerClaimBelow = true ∧ (claiming below).peerRoute = false
      ∧ (withPeers (claiming route) [route, below]).peerClaimBelow = true
      ∧ (withPeers (claiming route) [route, below]).peerRoute = true ∧ (claiming route).runningTw = true
      ∧ (claiming route).pc.phase.active = true ∧ (claiming route).tankUsed .n1 = true := by decide

/-- SETTLING with both timers running and a record with both ends. -/
theorem test_met_SettlingEnds :
    let s := { tw .closing with
        ow := { (tw .closing).ow with receipt := .settling, settleWindow := ⟨true, 20000⟩, settleLimit := ⟨true, 120000⟩ }
        mr := { (tw .closing).mr with record := { Record.empty with state := .opened, externalEnd := true, internalEnd := true } } }
    s.ow.receipt = .settling ∧ s.ow.settleWindow.running = true ∧ s.ow.settleLimit.running = true ∧ s.hasRole .tw = true
      ∧ s.mr.record.state = .opened ∧ s.sr.entries = [] ∧ (mn .idle).ow.receipt ≠ .settling := by decide

/-! ## PC's automatic steps and the frames of the Request Handler -/

/-- A STATUS of BV with its valve OPEN. -/
def openBv : Status := shows .opening (.valve .opened 50 true)

/-- A STATUS of BV at PU in OPENING; a peer falling silent in CLOSING; a litre, a window, the pump's feedback, and a reading
below the settle level, in the phases whose triggers they feed. -/
theorem test_met_AutomaticSteps :
    let f := withCheck (statusBytes 2 .bv openBv)
    let p := readingAt (pumpAt .stopping .stopping false false) ⟨true, 4095, none, some 500, false, 0, 0⟩
    readFrame f = some ⟨.status, bvHeader, .status openBv⟩ ∧ (pu .opening).runningPu = true
      ∧ (pu .opening).isClash bvHeader = false ∧ (pu .opening).pc.order = none
      ∧ (withPeers (pu .closing) [bvPeer]).sr.find 2 = some bvPeer ∧ (pu .closing).pc.phase.active = true
      ∧ (pu .ended).pc.phase.active = false ∧ ((metering .pumping .empty).mr.residual + 10) / conf.meterK = 1
      ∧ (window 1 0 0 false).mr.window.running = true ∧ 0 < (window 1 0 0 false).mr.windowLitres
      ∧ (pumpAt .starting .starting true false).inputs.pumpFb = false
      ∧ (pumpAt .stopping .stopping false true).pressure = some 50
      ∧ p.runningPu = true ∧ p.hw.slot = some .n1 ∧ (99 : BitVec 12).toNat * 4095 / 4095 < p.hw.settleLevel := by
  decide +kernel

/-- The triggers: BV OPEN, METERED before RECEIVERFULL, RECEIVERFULL, the topping margin, the pump stopped, every station
CLOSED. -/
theorem test_met_AutomaticSteps_due : Due (withPeers (pu .opening) [peer 2 .bv openBv]) .starting .none
    ∧ Due (withPeers (metering .pumping { Record.empty with nomination := 5, delivered := 5 })
        [peer 5 .tw (shows .pumping (twBody .allfull .full))]) .stopping .metered
    ∧ Due (withPeers (metering .pumping { Record.empty with nomination := 5, delivered := 4 })
        [peer 5 .tw (shows .pumping (twBody .allfull .full))]) .stopping .receiverfull
    ∧ Due (metering .pumping { Record.empty with nomination := 20004, delivered := 4 }) .topping .none
    ∧ ¬ Due (metering .pumping { Record.empty with nomination := 20005, delivered := 4 }) .topping .none
    ∧ Due (pumpAt .stopping .stopped false false) .closing .none
    ∧ Due (withPeers (metering .closing { Record.empty with state := .sampled }) [bvPeer]) .ended .none := by
  refine ⟨?_, ?_, ?_, ?_, noDue_of (by decide) _ _, ?_, ?_⟩ <;> exact (State.trigger_iff _ _ _).1 (by decide)

/-- At the sample: the record OPEN with its external end and every TW COMPLETE. -/
theorem test_met_AutomaticSteps_sample : SampleDue (withPeers (metering .closing { Record.empty with
      state := .opened, externalEnd := true }) [peer 5 .tw (shows .closing (twBody .complete .full))]) :=
  ⟨rfl, rfl, ⟨_, List.mem_singleton_self _, rfl, rfl⟩, fun e he _ _ => by
    cases List.mem_singleton.1 he
    exact ⟨_, rfl, rfl, _, _, rfl⟩⟩

/-- A NOMINATE of BV, a REQUEST of a code outside the seven, an ANSWER to BV, and a STATUS of BV that is unusable. -/
theorem test_met_RequestFrames_read :
    readFrame (withCheck (heldBytes (.request bvHeader .nominate 3 400000 300000)))
        = some ⟨.request, bvHeader, .request 1 3 400000 300000⟩
      ∧ (match (readFrame (withCheck ((heldBytes (.request bvHeader .stop 3 0 0)).set 5 77))).map Received.contents with
         | some (.request code number _ _) => code == 77 && ReqKind.ofCode code == none && number == 3
         | _ => false) = true
      ∧ readFrame (withCheck (heldBytes (.answer ⟨1, .pu, 0, 0⟩ 2 3 .taken))) = some ⟨.answer, ⟨1, .pu, 0, 0⟩, .answer 2 3 .taken⟩
      ∧ readFrame (withCheck ((statusBytes 2 .bv openBv).set 5 0xFF)) = some ⟨.status, bvHeader, .unusable false none 0⟩ := by
  decide +kernel

/-- R53, R182: a REQUEST of code 77 met by an occupied ANSWER place is named with that code. -/
theorem test_undecided :
    let s := withFrame { withPeers (pu .idle) [bvPeer] with
        lc := (pu .idle).lc.hold .answer (.answer ⟨1, .pu, 0, 0⟩ 2 3 .taken)
        pp := { PanelPort.start with mask := ⟨true, true, true, true, true, true⟩ } }
      (withCheck ((heldBytes (.request bvHeader .stop 3 0 0)).set 5 77))
    (after .rosterTakeFrame s).pp.queue.getLast? = some ⟨.event (.undecided 2 77 3), false⟩ := by decide +kernel

/-- PU with BV in its table: the ANSWER place occupied, a step in hand, STOP turned away in IDLE and taken in PUMPING; and BV
with an outstanding request. -/
theorem test_met_RequestFrames :
    let s := withPeers (pu .idle) [bvPeer]
    let u := { s with sr := s.sr.heard bvPeer .bv }
    let p := withPeers (metering .pumping { Record.empty with state := .opened, nomination := 400000 }) [bvPeer]
    s.runningPu = true ∧ s.isClash bvHeader = false ∧ s.sr.find 2 = some bvPeer ∧ s.hw.leakCond = false
      ∧ NoStepDue { u with pc := { u.pc with ready := u.readyNow } } ∧ ¬ SampleDue u
      ∧ ({ s with lc := s.lc.hold .answer (.answer ⟨1, .pu, 0, 0⟩ 2 3 .taken) }).lc.answer.isSome = true
      ∧ Unconfirmed (withHand (withPeers (pu .opening) [bvPeer]) .opening)
      ∧ TurnedAway s (some .stop) 0 0 .wrongphase ∧ TurnedAway s none 0 0 .wrongphase
      ∧ TurnedAway s (some .nominate) 0 1000 .badarg ∧ requestStep .stop .pumping = some .stopping
      ∧ (∀ o, ¬ RequestFails p .stop 0 0 o) ∧ (bvPeer.shows 0 fun st => st.phase == .stopping) = false
      ∧ (∀ x k, ¬ Due p x k) ∧ (asking (bv .idle)).rh.outstanding = some ⟨.start, 3, 0, 0, .fromZero⟩
      ∧ (bv .idle).number = 2 ∧ (bv .idle).pp.owed + 1 ≤ 8 ∧ (bv .idle).lc.assembly.condition ≠ .full :=
  ⟨by decide, by decide, by decide, by decide, .inr (.inl (by decide)), fun h => absurd h.1 (by decide), by decide,
    unconfirmed_of_peer _ _ (by decide), rfl, rfl, ⟨by decide, rfl⟩, rfl, fun _ h => h, by decide, noDue_of (by decide),
    rfl, by decide, by decide, by decide⟩

theorem pu_sound : Sound (pu .idle) where
  queue := by decide
  counts := ⟨by simp [pu, station, LinkController.start], by simp [pu, station, LinkController.start],
    by simp [pu, station, LinkController.start], by simp [pu, station, LinkController.start]⟩
  alarms := by simp [alarmsDistinct, pu, station, State.reset, Annunciator.start]
  channels n := by cases n <;> exact ⟨by decide, by decide, by decide, by decide, by decide, by decide⟩

theorem test_met_ShapeKept : (Sound (pu .idle) ∧ RosterOk (pu .idle) ∧ BuffersOk (pu .idle)) ∧ step (pu .idle) = .next (pu .idle).tick :=
  ⟨⟨pu_sound, ⟨by decide, by decide⟩, ⟨by decide, by decide⟩⟩, rfl⟩

theorem pu_sequence (p : Phase) : SequenceOk (pu p) where
  startup := by simp [pu, station]
  frozen _ := rfl
  role _ := by cases p <;> decide
  idle h := by simp [pu, station, State.running] at h

theorem test_met_SequenceKept : SequenceOk (pu .pumping) ∧ QuietOutsideRunning (pu .pumping)
    ∧ step (pu .pumping) = .next (pu .pumping).tick :=
  ⟨pu_sequence _, fun h => by simp [pu, station, State.running] at h, rfl⟩

/-- PUMPING with PUMP_RUN on and a step in hand; TRIPPED with a cause latched. -/
theorem test_met_TripAndPumpKept : LatchedMeansTripped standing ∧ RunMeansPumping (withHand (pumpAt .pumping .running true true) .pumping)
    ∧ InHandAtPu (withHand (pumpAt .pumping .running true true) .pumping) ∧ standing.tu.latched ≠ []
    ∧ (withHand (pumpAt .pumping .running true true) .pumping).vp.pumpRun = true :=
  ⟨fun _ => by decide, fun _ => by decide, fun _ => by decide, by decide, by decide⟩

theorem test_met_SoundersAndResidualKept : SoundersFollow (pu .idle) ∧ ResidualBelowK (pu .idle) ∧ step (pu .idle) = .next (pu .idle).tick :=
  ⟨⟨by decide, by decide⟩, by unfold ResidualBelowK; decide, rfl⟩

end Sys2Proof.Tests
end

section
/-! SUPPORT. O2: what a millisecond does to each timer, each age and the idle time. -/

namespace Sys2Proof.Machine

/-- Log 7: a timer is held at its limit. -/
theorem Timer.tick_advanced (limit : Nat) (t : Timer) : Advanced limit t (t.tick limit) := by
  unfold Advanced Timer.tick
  cases hr : t.running
  · simp [hr]
  · simp only [↓reduceIte, Bool.true_eq_false, false_imp_iff, forall_const, true_and]
    split <;> omega

/-- R35, R37: the age of an entry after a millisecond. -/
theorem Entry.tick_older (limit : Nat) (e : Entry) : Older limit e (e.tick limit).age := by
  unfold Older Entry.tick
  cases e.protected'
  · simp only [Bool.false_eq_true, ↓reduceIte]
    split_ifs <;> omega
  · simp only [↓reduceIte]
    split_ifs <;> omega

/-- A millisecond touches nothing of an entry but its age. -/
theorem Entry.tick_sameButAge (limit : Nat) (e : Entry) : { e.tick limit with age := 0 } = { e with age := 0 } := by
  unfold Entry.tick
  split <;> rfl

theorem QualTimer.tick_advanced (limit : Nat) (q : QualTimer) :
    (q.tick limit).armed = q.armed ∧ Advanced limit q.timer (q.tick limit).timer :=
  ⟨rfl, q.timer.tick_advanced limit⟩

/-- R83, R87: the timers of a channel after a millisecond, and the rest of its record. -/
theorem Channel.tick_advanced (limit : Nat) (c : Channel) :
    c.tick limit = { c with dwell := (c.tick limit).dwell, travel := (c.tick limit).travel }
      ∧ Advanced 500 c.dwell (c.tick limit).dwell ∧ Advanced (1000 * limit) c.travel (c.tick limit).travel :=
  ⟨rfl, c.dwell.tick_advanced 500, c.travel.tick_advanced (1000 * limit)⟩

/-- The four channels tick each with its own travel limit. -/
theorem ValvePump.tick_channel (c : Setup) (v : ValvePump) (n : Ch) :
    (v.tick c).channels.get n = (v.channels.get n).tick (c.travel.get n) := by cases n <;> rfl

/-- R79: the half of a cadence that a sounding output counts. -/
theorem Sounding.tick_advanced (o : Sounding) :
    Advanced (if o.cadence = .fast then 250 else 1000) o.half o.tick.half := by
  have hc : o.cadence.half = if o.cadence = .fast then 250 else 1000 := by cases o.cadence <;> rfl
  exact hc ▸ o.half.tick_advanced o.cadence.half

/-- R9: the step in hand after a millisecond. -/
theorem State.tick_inHand (s : State) (h : StepInHand) (hs : s.pc.inHand = some h) :
    ∃ x, s.tick.pc.inHand = some { h with timer := x } ∧ Advanced 5000 h.timer x :=
  ⟨h.timer.tick 5000, by simp [State.tick, hs], h.timer.tick_advanced 5000⟩

/-- R48: the outstanding request after a millisecond. -/
theorem State.tick_outstanding (s : State) (o : Outstanding) (hs : s.rh.outstanding = some o) :
    ∃ x, s.tick.rh.outstanding = some { o with timer := x } ∧ Advanced 1000 o.timer x :=
  ⟨o.timer.tick 1000, by simp [State.tick, hs], o.timer.tick_advanced 1000⟩

/-- R35, R159: outside JOINING and RUNNING neither the ages nor the idle time move. -/
theorem State.tick_deaf (s : State) (h : s.listening = false) :
    s.tick.sr.entries = s.sr.entries ∧ s.tick.lc.idle = s.lc.idle := by
  simp [State.tick, h]

/-- R35, R37, R159: the ages and the idle time of a station that listens. -/
theorem State.tick_listening (s : State) (h : s.listening = true) :
    s.tick.sr.entries.map (fun e => { e with age := 0 }) = s.sr.entries.map (fun e => { e with age := 0 })
      ∧ (∀ (i : Nat) (e e' : Entry), s.sr.entries[i]? = some e → s.tick.sr.entries[i]? = some e' →
          Older s.sl.setup.silence e e'.age)
      ∧ s.tick.lc.idle = s.lc.idle + (if s.sl.setup.fastLink = true then 384 else 192) := by
  have he : s.tick.sr.entries = s.sr.entries.map (Entry.tick s.sl.setup.silence) := by simp [State.tick, h]
  refine ⟨?_, ?_, by simp [State.tick, h, charHundredths]⟩
  · rw [he, List.map_map]
    exact List.map_congr_left fun e _ => e.tick_sameButAge _
  · intro i e e' hi hi'
    rw [he, List.getElem?_map, hi] at hi'
    obtain rfl : e.tick s.sl.setup.silence = e' := by simpa using hi'
    exact e.tick_older _

/-- R62: the qualification timers of the tanks tick alike. -/
theorem State.tick_overfill (s : State) (n : Ch) :
    s.tick.tu.overfill.get n = (s.tu.overfill.get n).tick 1000 := Quad.get_map _ _ n

end Sys2Proof.Machine

open Sys2Proof Sys2Proof.Machine

/-- Settles O2: the step is `State.tick`, whose fields the lemmas above give one by one. -/
theorem idleStepMovesTimersOnly : Obligations.IdleStepMovesTimersOnly := by
  intro s hp
  refine ⟨s.tick, by simp [Sys2Proof.Machine.step, hp], rfl, s.sl.joinWindow.tick_advanced _,
    fun h => by simp [State.tick, h], s.tick_inHand,
    fun h => by simp [State.tick, h], s.tick_outstanding, s.tick_deaf, s.tick_listening,
    fun n => ?overfill, rfl, s.tu.surge.timer.tick_advanced _, rfl, s.tu.leak.timer.tick_advanced _,
    s.an.horn.tick_advanced, s.an.beacon.tick_advanced, fun n => ?channel, s.vp.holdOffTimer.tick_advanced _,
    s.vp.feedback.tick_advanced _, s.vp.stopTimer.tick_advanced _, s.hw.setTimer.tick_advanced _,
    s.hw.allowance.tick_advanced _, s.hw.relax.tick_advanced _, s.ow.claim.timer.tick_advanced _,
    s.ow.settleWindow.tick_advanced _, s.ow.settleLimit.tick_advanced _, s.mr.window.tick_advanced _,
    s.mr.startLimit.tick_advanced _, s.lc.heartbeat.tick_advanced _⟩
  case overfill =>
    rw [s.tick_overfill n]
    exact QualTimer.tick_advanced 1000 _
  case channel =>
    have hn : s.tick.vp.channels.get n = (s.vp.channels.get n).tick (s.sl.setup.travel.get n) :=
      s.vp.tick_channel s.sl.setup n
    exact ⟨_, _, hn, Channel.tick_advanced _ _ |>.2⟩
end

section
/-! SUPPORT. `Onward`: what no operation of a cascade takes back, and that each of them keeps it. -/

namespace Sys2Proof.Machine

/-- What no operation of a cascade takes back: a STATUS asked for stays asked for, the report queue stays within its limit
(R202), the trip record only grows (R65, R66), the TRIP place changes with a latch alone, and the hard limit count is
the pressure watch's own. The clearing of the trip record (R71) is not among these operations. -/
structure Onward (s t : State) : Prop where
  status : s.lc.status.isSome = true → t.lc.status.isSome = true
  queue : s.pp.queue.length ≤ 8 → t.pp.queue.length ≤ 8
  latched : s.tu.latched <+: t.tu.latched
  firstOut : ∀ f, s.tu.firstOut = some f → t.tu.firstOut = some f
  trip : t.lc.trip = s.lc.trip ∨ (t.lc.trip.isSome = true ∧ t.tu.latched ≠ [])
  hardCount : t.hw.hardCount = s.hw.hardCount

/-! ## How such facts compose -/

theorem Onward.refl (s : State) : Onward s s := ⟨id, id, List.prefix_rfl, fun _ => id, .inl rfl, rfl⟩

theorem Onward.trans {s t u : State} (h : Onward s t) (k : Onward t u) : Onward s u where
  status a := k.status (h.status a)
  queue a := k.queue (h.queue a)
  latched := h.latched.trans k.latched
  firstOut f a := k.firstOut f (h.firstOut f a)
  trip := by
    rcases k.trip with hk | hk
    · rcases h.trip with hh | ⟨hs, hl⟩
      · exact .inl (hk.trans hh)
      · exact .inr ⟨hk ▸ hs, fun hn => hl (List.prefix_nil.1 (hn ▸ k.latched))⟩
    · exact .inr hk
  hardCount := k.hardCount.trans h.hardCount

theorem Onward.ite {s t u : State} {c : Prop} [Decidable c] (h : Onward s t) (k : Onward s u) :
    Onward s (if c then t else u) := by
  split
  · exact h
  · exact k

theorem Onward.iteSelf {s t : State} {c : Prop} [Decidable c] (h : Onward s t) : Onward s (if c then t else s) :=
  h.ite (.refl s)

theorem Onward.foldl {α : Type} {f : State → α → State} (h : ∀ s a, Onward s (f s a)) (l : List α) (s : State) :
    Onward s (l.foldl f s) := by
  induction l generalizing s with
  | nil => exact .refl s
  | cons a l ih => exact (h s a).trans (ih (f s a))

/-- A change of other parts of the state. -/
theorem Onward.pure {s t : State} (hlc : t.lc = s.lc) (hpp : t.pp = s.pp) (hl : t.tu.latched = s.tu.latched)
    (hf : t.tu.firstOut = s.tu.firstOut) (hh : t.hw.hardCount = s.hw.hardCount) : Onward s t :=
  ⟨hlc ▸ id, hpp ▸ id, hl ▸ List.prefix_rfl, hf ▸ fun _ => id, .inl (hlc ▸ rfl), hh⟩

/-! ## Reports and frames -/

theorem State.emit_onward (s : State) (e : Event) : Onward s (s.emit e) :=
  ⟨id, (s.pp.placeEvent_spec e).2.1, List.prefix_rfl, fun _ => id, .inl rfl, rfl⟩

theorem State.emitAll_onward (s : State) (l : List Event) : Onward s (s.emitAll l) :=
  s.emitAll_eq l ▸ Onward.foldl State.emit_onward l s

theorem LinkController.ask_status (l : LinkController) (k : FrameKind) (h : l.status.isSome = true ∨ k = .status) :
    (l.ask k).status.isSome = true := by
  obtain ⟨q, hq, -, -⟩ := l.ask_place k
  rw [hq]
  cases k <;> simp_all [LinkController.setPlace]

theorem LinkController.ask_trip (l : LinkController) (k : FrameKind) :
    (k = .trip ∧ (l.ask k).trip.isSome = true) ∨ (l.ask k).trip = l.trip := by
  obtain ⟨q, hq, -, -⟩ := l.ask_place k
  rw [hq]
  cases k <;> simp [LinkController.setPlace]

/-- Asking for a TRIP is onward where a cause is latched. -/
theorem State.ask_onward (s : State) (k : FrameKind) (hk : k = .trip → s.tu.latched ≠ []) : Onward s (s.ask k) := by
  unfold State.ask
  split
  · refine ⟨fun h => s.lc.ask_status k (.inl h), id, List.prefix_rfl, fun _ => id, ?_, rfl⟩
    rcases s.lc.ask_trip k with ⟨hkt, ht⟩ | ht
    · exact .inr ⟨ht, hk hkt⟩
    · exact .inl ht
  · exact .refl s

theorem State.askStatus_onward (s : State) : Onward s s.askStatus := s.ask_onward .status (by simp)

theorem State.askStatusIf_onward (s : State) (b : Bool) : Onward s (s.askStatusIf b) := s.askStatus_onward.iteSelf

/-- R162: at a RUNNING station a STATUS asked for is placed. -/
theorem State.askStatus_placed {s : State} (h : s.running = true) : s.askStatus.lc.status.isSome = true := by
  rw [State.askStatus, State.ask, if_pos h]
  exact s.lc.ask_status .status (.inr rfl)

theorem State.ask_trip_placed {s : State} (h : s.running = true) : (s.ask .trip).lc.trip.isSome = true := by
  obtain ⟨q, hq, -, -⟩ := s.lc.ask_place .trip
  rw [State.ask, if_pos h, hq]
  rfl

/-! ## Watching levels -/

theorem State.watchFlags_onward (s : State) : Onward s s.watchFlags :=
  (Onward.pure (s := s) (t := { s with pc := { s.pc with ready := s.readyNow, path := s.pathNow, closed := s.closedNow } })
    rfl rfl rfl rfl rfl).trans (State.askStatusIf_onward _ _)

theorem State.watchCause_onward (s : State) : Onward s s.watchCause :=
  (Onward.pure (s := s) (t := { s with tu := { s.tu with cause := s.causeFlag } }) rfl rfl rfl rfl rfl).trans
    (State.askStatusIf_onward _ _)

theorem State.drive_onward (s : State) (set : List AlarmEntry) (l : List Event) :
    Onward s ({ s with an := s.an.drive set }.emitAll l) :=
  (Onward.pure (s := s) (t := { s with an := s.an.drive set }) rfl rfl rfl rfl rfl).trans (State.emitAll_onward _ _)

theorem State.watch_onward (s : State) : Onward s s.watch :=
  (((Onward.pure (s := s) (t := s.watchTimers) rfl rfl rfl rfl rfl).trans (State.watchFlags_onward _)).trans
    (State.watchCause_onward _)).trans (State.drive_onward _ _ _)

theorem State.watchLeak_onward (s : State) : Onward s s.watchLeak := Onward.pure rfl rfl rfl rfl rfl

/-! ## The plant -/

theorem HoseWatch.openAllowance_hardCount (h : HoseWatch) : h.openAllowance.hardCount = h.hardCount := by
  unfold HoseWatch.openAllowance
  split
  · rfl
  · split <;> rfl

theorem State.movementIf_onward (s : State) (b : Bool) : Onward s (s.movementIf b) :=
  Onward.iteSelf (Onward.iteSelf (Onward.pure rfl rfl rfl rfl s.hw.openAllowance_hardCount))

theorem State.putChannel_onward (s : State) (n : Ch) (c : Channel) : Onward s (s.putChannel n c) :=
  ((Onward.pure (s := s) (t := { s with vp := { s.vp with channels := s.vp.channels.set n c } }) rfl rfl rfl rfl rfl).trans
    (State.askStatusIf_onward _ _)).trans (State.movementIf_onward _ _)

theorem State.followChannel_onward (s : State) (n : Ch) : Onward s (s.followChannel n) :=
  (s.putChannel_onward n _).iteSelf

theorem State.followAll_onward (s : State) : Onward s s.followAll :=
  (Onward.foldl State.followChannel_onward _ s).iteSelf

theorem State.putHoldOff_onward (s : State) (h : HoldOff) (t : Timer) :
    Onward s { s with vp := { s.vp with holdOff := h, holdOffTimer := t } } := Onward.pure rfl rfl rfl rfl rfl

theorem State.releaseAll_onward (s : State) (r : ReleaseReason) : Onward s (s.releaseAll r) :=
  ((s.putHoldOff_onward .released .stopped).trans
    (Onward.foldl (fun u n => u.putChannel_onward n _) _ _)).trans (State.emit_onward _ _)

theorem State.releaseIfStopped_onward (s : State) : Onward s s.releaseIfStopped := (s.releaseAll_onward _).iteSelf

theorem State.leaveHoldOff_onward (s : State) : Onward s s.leaveHoldOff :=
  (Onward.iteSelf (s.releaseAll_onward _)).trans (State.putHoldOff_onward _ _ _)

theorem State.pendAll_onward (s : State) : Onward s s.pendAll :=
  ((Onward.foldl (fun u n => u.putChannel_onward n _) _ s).trans (State.putHoldOff_onward _ _ _)).trans
    (State.releaseIfStopped_onward _)

theorem State.putPump_onward (s : State) (v : ValvePump) : Onward s (s.putPump v) :=
  (Onward.pure (s := s) (t := { s with vp := v }) rfl rfl rfl rfl rfl).trans (State.askStatusIf_onward _ _)

theorem State.startPump_onward (s : State) : Onward s s.startPump :=
  (s.putPump_onward _).trans (State.movementIf_onward _ _)

theorem State.stopPump_onward (s : State) : Onward s s.stopPump :=
  (s.putPump_onward _).trans (State.movementIf_onward _ _)

/-! ## The record and the tanks -/

theorem State.putMeter_onward (s : State) (m : MeterRecord) : Onward s { s with mr := m } :=
  Onward.pure rfl rfl rfl rfl rfl

theorem State.putTanks_onward (s : State) (o : OverflowWatch) : Onward s { s with ow := o } :=
  Onward.pure rfl rfl rfl rfl rfl

theorem State.mapRecord_onward (s : State) (f : Record → Record) : Onward s (s.mapRecord f) := s.putMeter_onward _

theorem State.openRecord_onward (s : State) (n r : Nat) : Onward s (s.openRecord n r) :=
  (s.putMeter_onward _).trans (State.emit_onward _ _)

theorem State.handEndKind_onward (s : State) (k : EndKind) : Onward s (s.handEndKind k) :=
  Onward.iteSelf ((s.mapRecord_onward _).trans (State.emit_onward _ _))

theorem State.clearRecord_onward (s : State) : Onward s s.clearRecord :=
  (s.putMeter_onward _).trans (State.emit_onward _ _)

theorem State.sample_onward (s : State) (k : SampleKind) : Onward s (s.sample k) :=
  (s.mapRecord_onward _).trans (State.emit_onward _ _)

theorem State.judgeEnds_onward (s : State) : Onward s s.judgeEnds :=
  (Onward.iteSelf ((s.mapRecord_onward _).trans (State.emit_onward _ _))).trans (State.sample_onward _ _).iteSelf

theorem State.setReceipt_onward (s : State) (r : ReceiptState) : Onward s (s.setReceipt r) := by
  unfold State.setReceipt
  split
  · exact .refl s
  · exact ((s.putTanks_onward _).trans (State.askStatus_onward _)).trans (State.emit_onward _ _)

theorem State.setExternalEnd_onward (s : State) : Onward s s.setExternalEnd := by
  have settle (u : State) : Onward u u.settle :=
    Onward.iteSelf ((u.putTanks_onward _).trans (State.setReceipt_onward _ _))
  exact Onward.iteSelf ((((s.mapRecord_onward _).trans (State.emit_onward _ _)).trans (settle _)).trans
    (State.judgeEnds_onward _))

theorem State.takeReceived_onward (s : State) : Onward s s.takeReceived := (s.mapRecord_onward _).iteSelf

theorem State.setClaim_onward (s : State) (c : Claim) (n : Ch) (e : ClaimEvent) : Onward s (s.setClaim c n e) :=
  ((s.putTanks_onward _).trans (State.askStatus_onward _)).trans (State.emit_onward _ _)

theorem State.endClaim_onward (s : State) : Onward s s.endClaim := by
  unfold State.endClaim
  split
  · exact s.setClaim_onward _ _ _
  · exact .refl s

theorem State.setTank_onward (s : State) (n : Ch) (st : TankState) : Onward s (s.setTank n st) := by
  unfold State.setTank
  split
  · exact .refl s
  · exact ((s.putTanks_onward _).trans (State.askStatus_onward _)).trans (State.emit_onward _ _)

theorem State.excludeTanks_onward (s : State) : Onward s s.excludeTanks :=
  (((Onward.foldl (fun u n => (u.setTank_onward n .excluded).trans (State.putTanks_onward _ _)) _ s).trans
    (State.endClaim_onward _)).trans (State.setReceipt_onward _ _)).trans (State.putTanks_onward _ _)

theorem State.beginTank_onward (s : State) (n : Ch) : Onward s (s.beginTank n) :=
  Onward.iteSelf ((s.setTank_onward n .opened).trans (State.putTanks_onward _ _))

theorem State.beginReceipt_onward (s : State) : Onward s s.beginReceipt :=
  ((Onward.foldl State.beginTank_onward _ s).trans (State.setReceipt_onward _ _)).trans (State.putTanks_onward _ _)

/-! ## Phase changes -/

theorem State.leavePhase_onward (s : State) (old : Phase) : Onward s (s.leavePhase old) := by
  have h : Onward s { s with mr := s.mr.changePhase old s.pc.phase } := s.putMeter_onward _
  have h2 := h.trans (Onward.iteSelf (c := old = .tripped ∧ s.pc.phase ≠ .tripped) (State.leaveHoldOff_onward _))
  exact Onward.ite h2 (h2.trans (State.endClaim_onward _))

theorem State.entryActions_onward (s : State) (old : Phase) (n r : Nat) : Onward s (s.entryActions old n r) := by
  unfold State.entryActions
  split
  · exact Onward.ite (s.clearRecord_onward.trans (State.excludeTanks_onward _)) s.clearRecord_onward
  · exact s.openRecord_onward n r
  · refine Onward.ite (Onward.iteSelf (s.mapRecord_onward _)) (Onward.iteSelf ?_)
    exact s.beginReceipt_onward.trans (Onward.foldl (fun u n => u.putChannel_onward n _) _ _)
  · exact Onward.iteSelf ((s.putMeter_onward _).trans (State.startPump_onward _))
  · exact Onward.iteSelf (Onward.pure rfl rfl rfl rfl rfl)
  · exact Onward.iteSelf (Onward.pure rfl rfl rfl rfl rfl)
  · exact Onward.iteSelf s.stopPump_onward
  · exact Onward.iteSelf (Onward.ite (s.stopPump_onward.trans (State.setExternalEnd_onward _)) s.stopPump_onward)
  · have h : Onward s (if old = .opening then s.setExternalEnd else s) := Onward.iteSelf s.setExternalEnd_onward
    exact h.trans (Onward.iteSelf (State.putChannel_onward _ _ _))
  · exact Onward.iteSelf (s.sample_onward _)
  · have h1 : Onward s s.tripField := Onward.ite s.stopPump_onward (Onward.iteSelf s.pendAll_onward)
    have mark (u : State) : Onward u u.markTrip := Onward.iteSelf (u.mapRecord_onward _)
    have h2 (u : State) : Onward u (u.tripRecord old) :=
      Onward.ite ((mark u).trans (State.handEndKind_onward _ _)) (mark u)
    exact (h1.trans (h2 _)).trans (Onward.iteSelf (State.setExternalEnd_onward _))

theorem State.changePhase_onward (s : State) (p : Phase) (n r : Nat) : Onward s (s.changePhase p n r) :=
  ((((Onward.pure (s := s) (t := s.setPhase p) rfl rfl rfl rfl rfl).trans (State.leavePhase_onward _ _)).trans
    (State.entryActions_onward _ _ _ _)).trans (State.askStatus_onward _)).trans (State.emit_onward _ _)

/-- R4: a phase change at a RUNNING station asks for a STATUS. -/
theorem State.changePhase_status {s : State} (p : Phase) (n r : Nat) (h : s.running = true) :
    (s.changePhase p n r).lc.status.isSome = true := by
  have hk : Keeps phaseParts s (((s.setPhase p).leavePhase s.pc.phase).entryActions s.pc.phase n r) :=
    ((s.setPhase_keeps p).mono (by decide)).trans
      (((State.leavePhase_keeps _ _).trans (State.entryActions_keeps _ _ _ _)).mono (by decide))
  refine (State.emit_onward _ _).status (State.askStatus_placed ?_)
  have hs : _ = s.pc.station := hk.part .station (by decide)
  simpa only [State.running, hs] using h

/-! ## Trips -/

theorem State.addCause_onward (s : State) (c : Cause) (d : Option Nat) : Onward s (s.addCause c d) := by
  refine Onward.trans (t := { s with tu := { s.tu with
      latched := s.tu.latched ++ [Latched.mk c d]
      firstOut := some (s.tu.firstOut.getD (FirstOut.mk (some c) .localOrigin s.number d)) } })
    ⟨id, id, List.prefix_append _ _, fun f hf => ?_, .inl rfl, rfl⟩ (State.askStatusIf_onward _ _)
  simp [hf]

theorem State.announce_onward (s : State) (c : Cause) (d : Option Nat) (b f : Bool) (h : s.tu.latched ≠ []) :
    Onward s (s.announce c d b f) :=
  Onward.ite ((s.ask_onward .trip fun _ => h).trans (State.emit_onward _ _)) (s.emit_onward _)

theorem State.enterTripped_onward (s : State) : Onward s s.enterTripped := by
  unfold State.enterTripped
  split
  · exact .refl s
  · exact s.changePhase_onward _ _ _

theorem State.confirm_onward (s : State) : Onward s s.confirm := Onward.iteSelf (Onward.pure rfl rfl rfl rfl rfl)

theorem State.addCause_latched_ne (s : State) (c : Cause) (d : Option Nat) : (s.addCause c d).tu.latched ≠ [] := by
  rw [(s.addCause_trip c d).1]
  simp

theorem State.joinSeparation_onward (s : State) : Onward s s.joinSeparation := by
  unfold State.joinSeparation
  split
  · exact .refl s
  · exact (s.addCause_onward _ _).trans (State.announce_onward _ _ _ _ _ (s.addCause_latched_ne _ _))

theorem State.afterTrip_onward (s : State) : Onward s s.afterTrip := by
  have h := s.followAll_onward
  refine Onward.trans (Onward.ite ?_ h) (State.confirm_onward _)
  exact (h.trans (State.putChannel_onward _ _ _)).trans (State.joinSeparation_onward _)

/-- R65: a new cause is added first, and the rest of the latch goes on from there. -/
theorem State.latch_onward_added {s : State} {c : Cause} (d : Option Nat) (h : s.hasLatched c = false) :
    Onward (s.addCause c d) (s.latch c d) := by
  have hl : (s.addCause c d).enterTripped.tu.latched ≠ [] := by
    rw [((s.addCause c d).enterTripped_keeps.part .tripRecord (by decide)).2.1]
    exact s.addCause_latched_ne c d
  have h1 := ((s.addCause c d).enterTripped_onward).trans
    (State.announce_onward _ c d s.tu.latched.isEmpty s.tu.firstOut.isNone hl)
  unfold State.latch
  rw [if_neg (by simp [h])]
  exact (Onward.ite h1 (h1.trans (State.afterTrip_onward _))).trans (State.watch_onward _)

theorem State.latch_onward (s : State) (c : Cause) (d : Option Nat) : Onward s (s.latch c d) := by
  cases h : s.hasLatched c
  · exact (s.addCause_onward c d).trans (State.latch_onward_added d h)
  · rw [State.latch, if_pos h]
    exact .refl s

/-- R65: the first-out asks for a STATUS. -/
theorem State.latch_status {s : State} {c : Cause} (d : Option Nat) (h : s.hasLatched c = false)
    (hr : s.running = true) (hf : s.tu.firstOut = none) : (s.latch c d).lc.status.isSome = true := by
  refine (State.latch_onward_added d h).status ?_
  rw [State.addCause, hf]
  exact State.askStatus_placed hr

theorem State.alarmInstead_onward (s : State) (c : Cause) : Onward s (s.alarmInstead c) := by
  unfold State.alarmInstead
  split
  · exact (Onward.pure (s := s) (t := { s with tu := { s.tu with surgeQualified := true } }) rfl rfl rfl rfl rfl).trans
      (State.watch_onward _)
  · exact (Onward.pure (s := s) (t := { s with tu := { s.tu with leakQualified := true } }) rfl rfl rfl rfl rfl).trans
      (State.watch_onward _)
  · exact s.drive_onward _ _
  · exact .refl s

theorem State.hand_onward (s : State) (c : Cause) (d : Option Nat) (b : Bool) : Onward s (s.hand c d b) :=
  Onward.iteSelf (Onward.ite (s.latch_onward c d) (s.alarmInstead_onward c))

theorem State.handCause_onward (s : State) (c : Cause) (d : Option Nat) : Onward s (s.handCause c d) :=
  s.hand_onward _ _ _

theorem State.handSeparation_onward (s : State) : Onward s s.handSeparation :=
  (s.putChannel_onward _ _).trans (State.handCause_onward _ _ _)

theorem State.handEach_onward (s : State) (c : Cause) (p : Phase) (l : List Nat) : Onward s (s.handEach c p l) :=
  Onward.foldl (fun t d => t.hand_onward c (some d) _) l s

/-! ## Steps and roster changes -/

theorem State.handAtEntry_onward (s : State) (old p : Phase) (silent faults : List Nat) :
    Onward s (s.handAtEntry old p silent faults) :=
  ((Onward.iteSelf (s.handEach_onward _ _ _)).trans (Onward.iteSelf (State.handEach_onward _ _ _ _))).trans
    (Onward.iteSelf (State.handSeparation_onward _))

theorem State.runOrder_onward (s : State) : Onward s s.runOrder := by
  have h : Onward s { s with pc := { s.pc with order := none } } := Onward.pure rfl rfl rfl rfl rfl
  unfold State.runOrder
  split
  · dsimp only
    split
    · exact h.trans (Onward.ite (State.handCause_onward _ _ _) (State.putChannel_onward _ _ _))
    · exact h.trans (State.putChannel_onward _ _ _)
    · exact h.trans (Onward.foldl (fun u n => u.putChannel_onward n _) _ _)
    · exact .refl s
  · exact .refl s

theorem State.scanAtPhase_onward (s : State) (old : Phase) : Onward s (s.scanAtPhase old) := by
  refine Onward.iteSelf (Onward.pure rfl rfl rfl rfl ?_)
  unfold HoseWatch.startSet
  split <;> rfl

theorem State.react_onward (s : State) (old : Phase) : Onward s (s.react old) :=
  ((((((s.scanAtPhase_onward old).trans (State.followAll_onward _)).trans (State.watch_onward _)).trans
    (Onward.iteSelf (State.handEach_onward _ _ _ _))).trans (State.runOrder_onward _)).trans
    (State.handAtEntry_onward _ _ _ _ _)).trans (State.watch_onward _)

theorem State.stepTo_onward (s : State) (p : Phase) (n r : Nat) : Onward s (s.stepTo p n r) :=
  (s.changePhase_onward p n r).trans (State.react_onward _ _)

theorem State.puSteps_onward (n : Nat) (s : State) : Onward s (State.puSteps n s) := by
  induction n generalizing s with
  | zero => exact .refl s
  | succ n ih =>
    unfold State.puSteps
    dsimp only
    split
    · exact s.confirm_onward
    · split
      · exact ((s.confirm_onward.trans (State.handEndKind_onward _ _)).trans (State.stepTo_onward _ _ _ _)).trans (ih _)
      · exact s.confirm_onward

theorem State.puEval_onward (s : State) : Onward s s.puEval := (State.puSteps_onward 8 s).iteSelf

theorem State.readRoute_onward (s : State) : Onward s s.readRoute := by
  have h : Onward s { s with ow := { s.ow with routeSeen := s.runningTw && s.peerRoute } } := s.putTanks_onward _
  unfold State.readRoute
  dsimp only
  split
  · exact h
  · split
    · exact h.trans (State.setClaim_onward _ _ _ _)
    · exact h

theorem State.rosterChanged_onward (s : State) : Onward s s.rosterChanged :=
  Onward.iteSelf ((((((((s.runOrder_onward.trans (State.releaseIfStopped_onward _)).trans
    (State.readRoute_onward _)).trans (State.takeReceived_onward _)).trans
    (Onward.iteSelf (State.setExternalEnd_onward _))).trans (State.judgeEnds_onward _)).trans
    (State.watchLeak_onward _)).trans (State.watch_onward _)).trans (State.puEval_onward _))

/-! ## A frame taken -/

theorem State.enterFrame_onward (s : State) (r : Received) : Onward s (s.enterFrame r) :=
  (Onward.pure (s := s) (t := { s with sr := ((s.sr.takeIn r.header.sender).1.takeFrame r.header.sender r.header.role
    r.contents.status?).1 }) rfl rfl rfl rfl rfl).trans (State.emitAll_onward _ _)

theorem State.adoptGen_onward (s : State) (g : BitVec 8) : Onward s (s.adoptGen g) :=
  (Onward.pure (s := s) (t := { s with pc := { s.pc with gen := g } }) rfl rfl rfl rfl rfl).trans (State.askStatus_onward _)

theorem State.compareTransfer_onward (s : State) (st : Status) : Onward s (s.compareTransfer st) :=
  (s.handCause_onward _ _).iteSelf

theorem State.takePuStatus_onward (s : State) (e : Option Entry) (st : Status) : Onward s (s.takePuStatus e st) := by
  refine (s.movementIf_onward (s.valveRole && pumpBegins e st)).trans ?_
  change Onward _ (State.takePuFigures _ st)
  unfold State.takePuFigures
  split
  · exact Onward.iteSelf ((State.mapRecord_onward _ _).trans (State.handEndKind_onward _ _))
  · exact .refl _

/-- The slots moved on after a frame is taken. -/
theorem State.moveSlots_onward (s : State) : Onward s s.moveSlots := by
  have h : Onward s { s with lc := s.lc.toDelivery.toCheck.1.toDelivery } := by
    obtain ⟨-, -, a1, -, -, a2, -, -⟩ := s.lc.toDelivery.toCheck.1.toDelivery_same
    obtain ⟨-, -, b1, -, -, b2, -, -⟩ := s.lc.toDelivery.toCheck_same
    obtain ⟨-, -, c1, -, -, c2, -, -⟩ := s.lc.toDelivery_same
    exact ⟨by simp [a2, b2, c2], id, List.prefix_rfl, fun _ => id, .inl (by simp [a1, b1, c1]), rfl⟩
  exact h.trans (State.emitAll_onward _ _)

end Sys2Proof.Machine
end

section
/-! SUPPORT. What every operation that keeps the setup and the station state leaves of the role; causes handed where they do
not latch; `Trips`: how a station comes to TRIPPED and stays there. -/

namespace Sys2Proof.Machine

/-! ## The station and its role -/

theorem Keeps.running {T : List Part} {s t : State} (h : Keeps T s t) (hT : decide (Part.station ∉ T) = true) :
    t.running = s.running := by
  have hs : t.pc.station = s.pc.station := h.part .station hT
  simp only [State.running, hs]

theorem Keeps.role {T : List Part} {s t : State} (h : Keeps T s t) (hT : decide (Part.setup ∉ T) = true) :
    t.role = s.role := by
  have hs : t.sl = s.sl := h.part .setup hT
  simp only [State.role, hs]

theorem Keeps.hasRole {T : List Part} {s t : State} (h : Keeps T s t) (hT : decide (Part.setup ∉ T) = true)
    (r : Role) : t.hasRole r = s.hasRole r := by
  simp only [State.hasRole, h.role hT]

theorem Keeps.valveRole {T : List Part} {s t : State} (h : Keeps T s t) (hT : decide (Part.setup ∉ T) = true) :
    t.valveRole = s.valveRole := by
  simp only [State.valveRole, h.hasRole hT]

theorem Keeps.runningPu {T : List Part} {s t : State} (h : Keeps T s t)
    (hT : decide (Part.station ∉ T ∧ Part.setup ∉ T) = true) : t.runningPu = s.runningPu := by
  have hp := of_decide_eq_true hT
  simp only [State.runningPu, h.running (decide_eq_true hp.1), h.hasRole (decide_eq_true hp.2)]

/-- SEP_IN and the roles that read it stay. -/
theorem Keeps.separated {T : List Part} {s t : State} (h : Keeps T s t)
    (hT : decide (Part.setup ∉ T ∧ Part.inputs ∉ T) = true) :
    (t.valveRole && t.inputs.sep) = (s.valveRole && s.inputs.sep) := by
  have hp := of_decide_eq_true hT
  have hi : t.inputs = s.inputs := h.part .inputs (decide_eq_true hp.2)
  rw [h.valveRole (decide_eq_true hp.1), hi]

theorem State.hasRole_iff (s : State) (r : Role) : s.hasRole r = true ↔ s.role = some r := by simp [State.hasRole]

/-- R81: PU has no channel in use. -/
theorem State.channelsUsed_pu {s : State} (h : s.hasRole .pu = true) : s.channelsUsed = [] := by
  rw [State.hasRole_iff] at h
  simp [State.channelsUsed, State.channelUsed, h]

/-! ## Nothing to confirm, nothing to step -/

theorem State.confirm_none {s : State} (h : s.pc.inHand = none) : s.confirm = s := by simp [State.confirm, h]

/-- R7: without a step in hand, PC has nothing to do in a phase that has no trigger. -/
theorem State.puEval_still {s : State} (h : s.pc.inHand = none) (hp : s.pc.phase = .idle ∨ s.pc.phase = .lineup
    ∨ s.pc.phase = .paused ∨ s.pc.phase = .ended ∨ s.pc.phase = .tripped) : s.puEval = s := by
  rcases State.puEval_noStep (s := s) (.inr (.inl hp)) with he | he
  · exact he
  · rw [he, State.confirm_none h]

/-- R7: PC at a station that is not a RUNNING PU. -/
theorem State.puEval_follower {s : State} (h : s.runningPu = false) : s.puEval = s := by simp [State.puEval, h]

/-- R10: an evaluation in TRIPPED does no more than confirm. -/
theorem State.puEval_tripped {s : State} (h : s.pc.phase = .tripped) : s.puEval = s ∨ s.puEval = s.confirm :=
  State.puEval_noStep (.inr (.inl (by simp [h])))

/-! ## Causes handed where they do not latch -/

theorem State.handCause_unlisted {s : State} {c : Cause} (d : Option Nat) (h : c.latchesIn s.pc.phase = false) :
    s.handCause c d = s := by rw [State.handCause, h, State.hand_unlisted]

theorem State.handEach_nil (s : State) (c : Cause) (p : Phase) : s.handEach c p [] = s := rfl

theorem State.handEach_unlisted (s : State) {c : Cause} {p : Phase} (l : List Nat) (h : c.latchesIn p = false) :
    s.handEach c p l = s := by
  induction l with
  | nil => rfl
  | cons d l ih =>
    change State.handEach (s.hand c (some d) (c.latchesIn p)) c p l = s
    rw [h, State.hand_unlisted, ih]

/-- R115: SEPARATION handed in IDLE or ENDED closes VC1 and latches nothing. -/
theorem State.handSeparation_unlisted {s : State} (h : s.pc.phase = .idle ∨ s.pc.phase = .ended) :
    s.handSeparation = s.closeChannel .n1 := by
  refine State.handCause_unlisted none ?_
  rw [((s.closeChannel_keeps .n1).part .phase (by decide)).1]
  rcases h with h | h <;> rw [h] <;> rfl

/-! ## The standing order (R18) -/

/-- The state with no standing order. -/
def State.dropOrder (s : State) : State := { s with pc := { s.pc with order := none } }

/-- R21, R24: what a standing order carries out. -/
def State.carryOrder (s : State) : Order → State
  | .openVc1 => s.openVc1
  | .closeVc1 => s.closeChannel .n1
  | .closeTanks => s.eachChannel State.closeChannel s.channelsUsed

/-- R18: a standing order that is due is dropped and carried out, and nothing else is done. -/
theorem State.runOrder_cases (s : State) :
    (s.orderDue = false ∧ s.runOrder = s)
      ∨ ∃ o, s.orderDue = true ∧ s.pc.order = some o ∧ s.runOrder = s.dropOrder.carryOrder o := by
  cases hd : s.orderDue
  · exact .inl ⟨rfl, by simp [State.runOrder, hd]⟩
  · cases ho : s.pc.order with
    | none => simp [State.orderDue, ho] at hd
    | some o => exact .inr ⟨o, rfl, rfl, by cases o <;> simp only [State.runOrder, hd, ho, if_true] <;> rfl⟩

theorem State.runOrder_notDue {s : State} (h : s.orderDue = false) : s.runOrder = s := by simp [State.runOrder, h]

theorem State.orderDue_none {s : State} (h : s.pc.order = none) : s.orderDue = false := by simp [State.orderDue, h]

/-! ## Into TRIPPED -/

/-- What an operation that is no step of its own does: it leaves the phase and the latched set as they are, or the station
is in TRIPPED after it. -/
structure Trips (s t : State) : Prop where
  same_or_tripped : (t.pc.phase = s.pc.phase ∧ t.tu.latched = s.tu.latched) ∨ t.pc.phase = .tripped

theorem Trips.stays {s t : State} (h : Trips s t) (hs : s.pc.phase = .tripped) : t.pc.phase = .tripped :=
  h.same_or_tripped.elim (fun k => k.1.trans hs) id

theorem Trips.of_same {s t : State} (hp : t.pc.phase = s.pc.phase) (hl : t.tu.latched = s.tu.latched) : Trips s t :=
  ⟨.inl ⟨hp, hl⟩⟩

theorem Trips.refl (s : State) : Trips s s := .of_same rfl rfl

theorem Trips.of_keeps {T : List Part} {s t : State} (h : Keeps T s t)
    (hT : decide (Part.phase ∉ T ∧ Part.tripRecord ∉ T) = true) : Trips s t := by
  have hp := of_decide_eq_true hT
  exact .of_same (h.part .phase (decide_eq_true hp.1)).1 (h.part .tripRecord (decide_eq_true hp.2)).2.1

theorem Trips.trans {s t u : State} (h : Trips s t) (k : Trips t u) : Trips s u where
  same_or_tripped := by
    rcases h.same_or_tripped with ⟨hp, hl⟩ | ht
    · exact k.same_or_tripped.imp_left fun hk => ⟨hk.1.trans hp, hk.2.trans hl⟩
    · exact .inr (k.stays ht)

theorem Trips.ite {s t u : State} {c : Prop} [Decidable c] (h : Trips s t) (k : Trips s u) :
    Trips s (if c then t else u) := by
  split
  · exact h
  · exact k

theorem Trips.iteSelf {s t : State} {c : Prop} [Decidable c] (h : Trips s t) : Trips s (if c then t else s) :=
  h.ite (.refl s)

theorem Trips.foldl {α : Type} {f : State → α → State} (h : ∀ s a, Trips s (f s a)) (l : List α) (s : State) :
    Trips s (l.foldl f s) := by
  induction l generalizing s with
  | nil => exact .refl s
  | cons a l ih => exact (h s a).trans (ih (f s a))

/-- A cause that the set did not hold and holds now has tripped the station. -/
theorem Trips.tripped {s t : State} {c : Cause} (h : Trips s t) (hs : s.hasLatched c = false)
    (ht : t.hasLatched c = true) : t.pc.phase = .tripped := by
  rcases h.same_or_tripped with ⟨-, hl⟩ | hp
  · have : t.hasLatched c = s.hasLatched c := by simp only [State.hasLatched, hl]
    simp [this, hs] at ht
  · exact hp

theorem State.watch_trips (s : State) : Trips s s.watch := .of_keeps s.watch_keeps (by decide)

theorem State.hand_trips (s : State) (c : Cause) (d : Option Nat) (b : Bool) : Trips s (s.hand c d b) := by
  refine Trips.iteSelf (Trips.ite ?_ (.of_keeps (s.alarmInstead_keeps c) (by decide)))
  cases h : s.hasLatched c
  · exact ⟨.inr (State.latch_new d h).1⟩
  · rw [State.latch, if_pos h]
    exact .refl s

theorem State.handCause_trips (s : State) (c : Cause) (d : Option Nat) : Trips s (s.handCause c d) :=
  s.hand_trips _ _ _

theorem State.handSeparation_trips (s : State) : Trips s s.handSeparation :=
  (Trips.of_keeps (s.closeChannel_keeps .n1) (by decide)).trans (State.handCause_trips _ _ _)

theorem State.handEach_trips (s : State) (c : Cause) (p : Phase) (l : List Nat) : Trips s (s.handEach c p l) :=
  Trips.foldl (fun t d => t.hand_trips c (some d) _) l s

theorem State.handAtEntry_trips (s : State) (old p : Phase) (silent faults : List Nat) :
    Trips s (s.handAtEntry old p silent faults) :=
  ((Trips.iteSelf (s.handEach_trips _ _ _)).trans (Trips.iteSelf (State.handEach_trips _ _ _ _))).trans
    (Trips.iteSelf (State.handSeparation_trips _))

theorem State.handStanding_trips (s : State) : Trips s s.handStanding :=
  (((s.handEach_trips _ _ _).trans (Trips.iteSelf (State.handSeparation_trips _))).trans (State.watch_trips _)).trans
    (Trips.iteSelf (State.handCause_trips _ _ _))

theorem State.runOrder_trips (s : State) : Trips s s.runOrder := by
  rcases s.runOrder_cases with ⟨-, h⟩ | ⟨o, -, -, h⟩ <;> rw [h]
  · exact .refl s
  · have hd : Trips s s.dropOrder := .of_same rfl rfl
    cases o with
    | openVc1 => exact hd.trans (Trips.ite (State.handCause_trips _ _ _) (.of_keeps (State.openChannel_keeps _ _) (by decide)))
    | closeVc1 => exact hd.trans (.of_keeps (State.closeChannel_keeps _ _) (by decide))
    | closeTanks => exact hd.trans (.of_keeps (State.eachChannel_keeps State.closeChannel_keeps _ _) (by decide))

theorem State.react_trips (s : State) (old : Phase) : Trips s (s.react old) := by
  have h : Trips s ((s.scanAtPhase old).followAll) :=
    (Trips.of_keeps (s.scanAtPhase_keeps old) (by decide)).trans (.of_keeps (State.followAll_keeps _) (by decide))
  exact ((((h.trans (State.watch_trips _)).trans (Trips.iteSelf (State.handEach_trips _ _ _ _))).trans
    (State.runOrder_trips _)).trans (State.handAtEntry_trips _ _ _ _ _)).trans (State.watch_trips _)

theorem State.compareTransfer_trips (s : State) (st : Status) : Trips s (s.compareTransfer st) :=
  (s.handCause_trips _ _).iteSelf

end Sys2Proof.Machine
end

section
/-! SUPPORT. The end of the join window (R3, R195) and the step that is not confirmed (R10). -/

namespace Sys2Proof.Machine

/-! ## Joining -/

/-- The parts the entry into RUNNING writes itself. -/
def runParts : List Part :=
  [.station, .setup, .generation, .transfer, .roster, .heartbeat, .pressure, .leak, .meter]

theorem State.beginRunning_frame (s : State) : Frame runParts s s.beginRunning := by
  intro p hp
  cases p <;> first | exact absurd (by decide) hp | (simp [Part.same, State.beginRunning, HoseWatch.run] <;> split <;> simp)

theorem State.beginRunning_running (s : State) : s.beginRunning.running = true := rfl

/-- R195: in IDLE with ESD_IN off the causes that stand latch nothing, and SEP_IN closes VC1. -/
theorem State.handStanding_idle {s : State} (hp : s.pc.phase = .idle) (he : s.inputs.esd = false) :
    s.handStanding = (if s.valveRole && s.inputs.sep then s.closeChannel .n1 else s).watch := by
  have hk : Keeps (watchParts ++ [.channels, .pressure]) s
      (if s.valveRole && s.inputs.sep then s.closeChannel .n1 else s).watch :=
    (Keeps.iteSelf ((s.closeChannel_keeps .n1).mono (by decide))).trans ((State.watch_keeps _).mono (by decide))
  have hi : _ = s.inputs := hk.part .inputs (by decide)
  unfold State.handStanding
  rw [hp, State.handEach_unlisted s _ rfl]
  dsimp only
  rw [State.handSeparation_unlisted (.inl hp), hi, he]
  rfl

/-- What the causes handed at the entry into RUNNING leave in IDLE. -/
theorem State.handStanding_idle_keeps {s : State} (hp : s.pc.phase = .idle) (he : s.inputs.esd = false) :
    Keeps (watchParts ++ [.channels, .pressure]) s s.handStanding ∧ Onward s s.handStanding := by
  rw [State.handStanding_idle hp he]
  exact ⟨(Keeps.iteSelf ((s.closeChannel_keeps .n1).mono (by decide))).trans ((State.watch_keeps _).mono (by decide)),
    (Onward.iteSelf (State.putChannel_onward _ _ _)).trans (State.watch_onward _)⟩

theorem State.handStanding_keeps (s : State) : Keeps cascadeParts s s.handStanding := by
  have h1 := s.handEach_keeps .sensor s.pc.phase s.faultChannels
  have h2 (t : State) : Keeps cascadeParts t (if t.valveRole && t.inputs.sep then t.handSeparation else t) :=
    Keeps.iteSelf (State.handSeparation_keeps _)
  have h3 (t : State) : Keeps cascadeParts t t.watch := t.watch_keeps.mono (by decide)
  have h4 (t : State) : Keeps cascadeParts t (if t.inputs.esd then t.handCause .manual none else t) :=
    Keeps.iteSelf (State.handCause_keeps _ _ _)
  exact ((h1.trans (h2 _)).trans (h3 _)).trans (h4 _)

theorem State.handStanding_onward (s : State) : Onward s s.handStanding :=
  (((s.handEach_onward _ _ _).trans (Onward.iteSelf (State.handSeparation_onward _))).trans
    (State.watch_onward _)).trans (Onward.iteSelf (State.handCause_onward _ _ _))

theorem State.execJoinWindowEnd_joining {s : State} (h : s.pc.station = .joining) :
    exec .joinWindowEnd s
      = .next ((((s.beginRunning).enterPhase s.sr.join.heard).handStanding.watch).puEval) := by
  change execJoinWindowEnd s = _
  simp [execJoinWindowEnd, h]

theorem JoinSummary.gen_eq (j : JoinSummary) :
    j.gen = (match j.genPu, j.genAny with
      | some g, _ => g
      | none, some g => g
      | none, none => 0) := by
  unfold JoinSummary.gen
  cases j.genPu <;> cases j.genAny <;> rfl

theorem JoinSummary.transfer_eq (j : JoinSummary) (b : Bool) :
    j.transfer b = if b then j.transferAny.getD 0 else j.transferPu.getD 0 := by cases b <;> rfl

theorem State.enterPhase_heard (s : State) : s.enterPhase true = s.latch .phase none := by simp [State.enterPhase]

/-- R3: the entry into RUNNING in IDLE, up to the causes that stand. -/
theorem State.enterPhase_idle_keeps (s : State) :
    Keeps (watchParts ++ [.channels, .pressure]) s (s.enterPhase false) ∧ Onward s (s.enterPhase false) := by
  refine ⟨?_, ((s.askStatus_onward.trans (State.emit_onward _ _)).trans (State.followAll_onward _)).trans
    (State.watch_onward _)⟩
  exact (((s.askStatus_keeps.mono (by decide)).trans ((State.emit_keeps _ _).mono (by decide))).trans
    ((State.followAll_keeps _).mono (by decide))).trans ((State.watch_keeps _).mono (by decide))

theorem State.enterPhase_idle_status {s : State} (h : s.running = true) :
    (s.enterPhase false).lc.status.isSome = true :=
  (((State.emit_onward _ _).trans (State.followAll_onward _)).trans (State.watch_onward _)).status
    (State.askStatus_placed h)

end Sys2Proof.Machine

open Sys2Proof Sys2Proof.Machine

/-- Settles O10: in IDLE no cause that stands latches, and PC has no step to take. -/
theorem joinEndsInIdle : Obligations.JoinEndsInIdle := by
  intro s hst hp hi ho hh he
  have hb := s.beginRunning_frame
  obtain ⟨hk1, hu1⟩ := s.beginRunning.enterPhase_idle_keeps
  have hp1 : (s.beginRunning.enterPhase false).pc.phase = .idle := (hk1.part .phase (by decide)).1.trans hp
  have he1 : (s.beginRunning.enterPhase false).inputs.esd = false := by
    have : _ = s.inputs := hk1.part .inputs (by decide)
    rw [this, he]
  obtain ⟨hk2, hu2⟩ := State.handStanding_idle_keeps hp1 he1
  have hk := (hk1.trans hk2).trans ((State.watch_keeps _).mono (by decide))
  have hu := (hu1.trans hu2).trans (State.watch_onward _)
  obtain ⟨kp, ki, ko⟩ := hk.part .phase (by decide)
  refine ⟨_, State.execJoinWindowEnd_joining hst, ?_⟩
  rw [hh, State.puEval_still (ki.trans hi) (.inl (kp.trans hp))]
  have kr : _ = s.beginRunning.sr := hk.part .roster (by decide)
  refine ⟨hk.running (by decide), kp.trans hp, ki.trans hi, ?_, ?_, by rw [kr]; rfl, by rw [kr]; rfl,
    (hk.part .tripRecord (by decide)).2.1, ?_, hk.part .heartbeat (by decide), hu.hardCount, ?_⟩
  · exact (hk.part .generation (by decide)).trans s.sr.join.gen_eq
  · exact (hk.part .transfer (by decide)).trans (s.sr.join.transfer_eq _)
  · exact (hu2.trans (State.watch_onward _)).status (State.enterPhase_idle_status s.beginRunning_running)
  · exact (hb.mono (by decide)).trans (hk.frame.mono (by decide))

/-- Settles O11: the latch of PHASE trips the station, and the causes that stand only join it. -/
theorem joinEndsInTripped : Obligations.JoinEndsInTripped := by
  intro s hst hp hh hl hf
  have hn : s.beginRunning.hasLatched .phase = false := by simp [State.hasLatched, State.beginRunning, hl]
  obtain ⟨tp, tl, tf⟩ := State.latch_new none hn
  have ts := State.latch_status none hn s.beginRunning_running hf
  have hk1 := s.beginRunning.latch_keeps .phase none
  refine ⟨_, State.execJoinWindowEnd_joining hst, ?_⟩
  rw [hh, State.enterPhase_heard]
  generalize s.beginRunning.latch .phase none = u at *
  have tp2 := (u.handStanding_trips.trans (State.watch_trips _)).stays tp
  obtain ⟨he, hep, -⟩ := State.puEval_noStep_keeps (s := u.handStanding.watch) (.inr (.inl (by simp [tp2])))
  have hk := ((hk1.trans u.handStanding_keeps).trans (u.handStanding.watch_keeps.mono (by decide))).trans
    (he.mono (by decide))
  have hu := (u.handStanding_onward.trans (State.watch_onward _)).trans (State.puEval_onward _)
  have kr : _ = s.beginRunning.sr := hk.part .roster (by decide)
  refine ⟨hk.running (by decide), hep.trans tp2, ?_, ?_, ?_, ?_, by rw [kr]; rfl,
    by rw [kr]; rfl, hu.status ts, ?_⟩
  · obtain ⟨rest, hrest⟩ := tl.trans hu.latched
    have hb : s.beginRunning.tu.latched = [] := hl
    rw [hb] at hrest
    exact hrest ▸ rfl
  · have hb : s.beginRunning.tu.firstOut = none := hf
    rw [hb] at tf
    exact hu.firstOut _ tf
  · exact (hk.part .generation (by decide)).trans s.sr.join.gen_eq
  · exact (hk.part .transfer (by decide)).trans (s.sr.join.transfer_eq _)
  · exact (s.beginRunning_frame.mono (by decide)).trans (hk.frame.mono (by decide))
end

section
/-! SUPPORT. What a phase change does to the pump, the meter and the record (R22, R23, R26, R142 to R155). -/

namespace Sys2Proof.Machine

/-! ## The ends of the record -/

/-- What the external end, the internal end and the sample leave of a record: its figures and its end kind stay, an end
that is set stays set, and a record that is not OPEN stays as it is. -/
structure EndsOnly (r q : Record) : Prop where
  nomination : q.nomination = r.nomination
  delivered : q.delivered = r.delivered
  endKind : q.endKind = r.endKind
  externalEnd : r.externalEnd = true → q.externalEnd = true
  shut : r.state ≠ .opened → q = r

theorem EndsOnly.refl (r : Record) : EndsOnly r r := ⟨rfl, rfl, rfl, id, fun _ => rfl⟩

theorem EndsOnly.trans {r q p : Record} (h : EndsOnly r q) (k : EndsOnly q p) : EndsOnly r p where
  nomination := k.nomination.trans h.nomination
  delivered := k.delivered.trans h.delivered
  endKind := k.endKind.trans h.endKind
  externalEnd a := k.externalEnd (h.externalEnd a)
  shut a := by
    have hq := h.shut a
    exact (k.shut (by rw [hq]; exact a)).trans hq

theorem State.recordOpen_iff (s : State) : s.recordOpen = true ↔ s.mr.record.state = .opened := by
  simp [State.recordOpen]

theorem State.judgeInternalEnd_ends (s : State) : EndsOnly s.mr.record s.judgeInternalEnd.mr.record := by
  unfold State.judgeInternalEnd
  split
  · rename_i h
    simp only [Bool.and_eq_true, State.recordOpen_iff] at h
    exact ⟨rfl, rfl, rfl, id, fun hn => absurd h.1.1 hn⟩
  · exact .refl _

theorem State.sample_ends (s : State) (k : SampleKind) (h : s.recordOpen = true) :
    EndsOnly s.mr.record (s.sample k).mr.record :=
  ⟨rfl, rfl, rfl, id, fun hn => absurd (s.recordOpen_iff.1 h) hn⟩

theorem State.judgeEnds_ends (s : State) : EndsOnly s.mr.record s.judgeEnds.mr.record := by
  refine s.judgeInternalEnd_ends.trans ?_
  change EndsOnly _ (State.judgeSample _).mr.record
  unfold State.judgeSample
  split
  · rename_i h
    simp only [Bool.and_eq_true] at h
    exact State.sample_ends _ _ h.1.1.1
  · exact .refl _

theorem State.forceSample_ends (s : State) : EndsOnly s.mr.record s.forceSample.mr.record := by
  unfold State.forceSample
  split
  · rename_i h
    exact s.sample_ends _ h
  · exact .refl _

/-- R149: an OPEN record has its external end once it is set. -/
theorem State.setExternalEnd_ends (s : State) :
    EndsOnly s.mr.record s.setExternalEnd.mr.record
      ∧ (s.mr.record.state = .opened → s.setExternalEnd.mr.record.externalEnd = true) := by
  unfold State.setExternalEnd
  split
  · rename_i h
    simp only [Bool.and_eq_true, State.recordOpen_iff, Bool.not_eq_true'] at h
    have h1 : EndsOnly s.mr.record { s.mr.record with externalEnd := true } :=
      ⟨rfl, rfl, rfl, fun _ => rfl, fun hn => absurd h.1 hn⟩
    have h2 : (((s.mapRecord fun r => { r with externalEnd := true }).emit .externalEnd).settle).mr.record
        = { s.mr.record with externalEnd := true } := (State.settle_keeps _).part .record (by decide)
    have h3 := State.judgeEnds_ends (((s.mapRecord fun r => { r with externalEnd := true }).emit .externalEnd).settle)
    rw [h2] at h3
    exact ⟨h1.trans h3, fun _ => h3.externalEnd rfl⟩
  · rename_i h
    refine ⟨.refl _, fun ho => ?_⟩
    simpa [State.recordOpen, ho] using h

theorem State.setExternalEnd_shut {s : State} (h : s.mr.record.state ≠ .opened) : s.setExternalEnd = s := by
  simp [State.setExternalEnd, State.recordOpen, h]

theorem State.judgeEnds_shut {s : State} (h : s.mr.record.state ≠ .opened) : s.judgeEnds = s := by
  simp [State.judgeEnds, State.judgeInternalEnd, State.judgeSample, State.recordOpen, h]

theorem State.takeReceived_shut {s : State} (h : s.mr.record.state ≠ .opened) : s.takeReceived = s := by
  simp [State.takeReceived, State.recordOpen, h]

theorem State.handEndKind_shut {s : State} (k : EndKind) (h : s.mr.record.state ≠ .opened) : s.handEndKind k = s := by
  simp [State.handEndKind, State.recordOpen, h]

theorem State.forceSample_shut {s : State} (h : s.mr.record.state ≠ .opened) : s.forceSample = s := by
  simp [State.forceSample, State.recordOpen, h]

/-- R148: the end kind handed to an OPEN record that has none yet. -/
theorem State.handEndKind_record (s : State) (k : EndKind) :
    (s.handEndKind k).mr.record
      = if s.mr.record.state = .opened ∧ s.mr.record.endKind = .none then { s.mr.record with endKind := k }
        else s.mr.record := by
  unfold State.handEndKind State.recordOpen
  by_cases ho : s.mr.record.state = .opened <;> by_cases hn : s.mr.record.endKind = .none <;> by_cases hk : k = .none <;>
    simp [ho, hn, hk]
  rw [← hn, ← ho]

/-! ## The pump -/

theorem State.stopPump_from (s : State) : Keeps [.frames, .pressure] { s with vp := s.vp.stopPump } s.stopPump :=
  ((State.askStatusIf_keeps _ _).mono (by decide)).trans ((State.movementIf_keeps _ _).mono (by decide))

theorem State.startPump_from (s : State) :
    Keeps [.frames, .pressure] { s with vp := s.vp.startPump s.inputs.pumpFb } s.startPump :=
  ((State.askStatusIf_keeps _ _).mono (by decide)).trans ((State.movementIf_keeps _ _).mono (by decide))

/-- R96: after a stop command the outputs are off and the feedback timer is stopped. -/
theorem ValvePump.stopPump_off (v : ValvePump) :
    v.stopPump.pumpRun = false ∧ v.stopPump.rateLow = false ∧ v.stopPump.feedback = ⟨false, 0⟩ := by
  unfold ValvePump.stopPump
  split <;> exact ⟨rfl, rfl, rfl⟩

/-- R96: a pump that turns is STOPPING after a stop command, and the stop timer runs. -/
theorem ValvePump.stopPump_turning {v : ValvePump} (h : v.pump = .starting ∨ v.pump = .running) :
    v.stopPump.pump = .stopping ∧ v.stopPump.stopTimer = ⟨true, 0⟩ := by
  rcases h with h | h <;> simp [ValvePump.stopPump, h, Timer.fromZero]

/-- R95: a pump at rest is STARTING after a start command. -/
theorem ValvePump.startPump_stopped {v : ValvePump} (fb : Bool) (h : v.pump = .stopped) :
    v.startPump fb = { v with pump := .starting, feedback := ⟨true, 0⟩, pumpRun := true, rateLow := true } := by
  simp [ValvePump.startPump, h, Timer.fromZero]

/-! ## A phase change, from what it starts with -/

/-- The parts that leaving a phase touches beside the meter. -/
def leaveParts : List Part := [.channels, .frames, .pressure, .reports, .tanks]

/-- R90, R132: what leaving a phase does beside the meter. -/
theorem State.leavePhase_from (s : State) (old : Phase) :
    Keeps leaveParts { s with mr := s.mr.changePhase old s.pc.phase } (s.leavePhase old) := by
  have h : Keeps leaveParts { s with mr := s.mr.changePhase old s.pc.phase }
      (if old = .tripped ∧ s.pc.phase ≠ .tripped then
        State.leaveHoldOff { s with mr := s.mr.changePhase old s.pc.phase }
       else { s with mr := s.mr.changePhase old s.pc.phase }) :=
    Keeps.iteSelf ((State.leaveHoldOff_keeps _).mono (by decide))
  exact Keeps.ite h (h.trans ((State.endClaim_keeps _).mono (by decide)))

/-- The state in which the entry actions of a phase change start. -/
def State.left (s : State) (p : Phase) : State := (s.setPhase p).leavePhase s.pc.phase

theorem State.left_from (s : State) (p : Phase) :
    Keeps leaveParts { s.setPhase p with mr := s.mr.changePhase s.pc.phase p } (s.left p) :=
  State.leavePhase_from (s.setPhase p) s.pc.phase

theorem State.left_phase (s : State) (p : Phase) : (s.left p).pc.phase = p :=
  ((s.left_from p).part .phase (by decide)).1

theorem State.left_role (s : State) (p : Phase) : (s.left p).role = s.role := (s.left_from p).role (by decide)

theorem State.left_hasRole (s : State) (p : Phase) (r : Role) : (s.left p).hasRole r = s.hasRole r := by
  simp only [State.hasRole, s.left_role p]

theorem State.left_record (s : State) (p : Phase) : (s.left p).mr.record = s.mr.record :=
  (s.left_from p).part .record (by decide)

/-- R4: the STATUS and the PHASE event stand after the entry actions. -/
theorem State.changePhase_from (s : State) (p : Phase) (n r : Nat) :
    Keeps [.frames, .reports] ((s.left p).entryActions s.pc.phase n r) (s.changePhase p n r) :=
  ((State.askStatus_keeps _).mono (by decide)).trans ((State.emit_keeps _ _).mono (by decide))

/-! ## The entry actions, phase by phase -/

section
variable {s : State} {old : Phase} {n r : Nat}

theorem State.entryActions_idle (h : s.pc.phase = .idle) :
    s.entryActions old n r = if old = .ended ∧ s.hasRole .tw then s.clearRecord.excludeTanks else s.clearRecord := by
  simp only [State.entryActions, h]

theorem State.entryActions_lineup (h : s.pc.phase = .lineup) : s.entryActions old n r = s.openRecord n r := by
  simp only [State.entryActions, h]

theorem State.entryActions_opening (h : s.pc.phase = .opening) :
    s.entryActions old n r = if s.hasRole .pu then s.startCounting else if s.hasRole .tw then s.openTanks else s := by
  simp only [State.entryActions, h]

theorem State.entryActions_starting (h : s.pc.phase = .starting) :
    s.entryActions old n r = if s.hasRole .pu then s.enterStarting else s := by
  simp only [State.entryActions, h]

theorem State.entryActions_pumping (h : s.pc.phase = .pumping) :
    s.entryActions old n r = if s.hasRole .pu then s.setRateLow s.mr.cap else s := by
  simp only [State.entryActions, h]

theorem State.entryActions_topping (h : s.pc.phase = .topping) :
    s.entryActions old n r = if s.hasRole .pu then s.setRateLow true else s := by
  simp only [State.entryActions, h]

theorem State.entryActions_paused (h : s.pc.phase = .paused) :
    s.entryActions old n r = if s.hasRole .pu then s.stopPump else s := by
  simp only [State.entryActions, h]

theorem State.entryActions_stopping (h : s.pc.phase = .stopping) :
    s.entryActions old n r = if s.hasRole .pu then s.enterStopping else s := by
  simp only [State.entryActions, h]

theorem State.entryActions_ended (h : s.pc.phase = .ended) : s.entryActions old n r = s.forceSample := by
  simp only [State.entryActions, h]

theorem State.entryActions_closing (h : s.pc.phase = .closing) :
    s.entryActions old n r
      = if (if old = .opening then s.setExternalEnd else s).hasRole .bv then
          (if old = .opening then s.setExternalEnd else s).closeChannel .n1
        else (if old = .opening then s.setExternalEnd else s) := by
  simp only [State.entryActions, h]

theorem State.entryActions_tripped (h : s.pc.phase = .tripped) :
    s.entryActions old n r = (s.tripField.tripRecord old).tripExternal := by
  simp only [State.entryActions, h]

end

/-- R23: STOPPING entry beside the record and the tanks is the pump stop. -/
theorem State.enterStopping_from (s : State) :
    Keeps [.record, .tanks, .frames, .reports, .pressure] { s with vp := s.vp.stopPump } s.enterStopping := by
  have h : Keeps [.record, .tanks, .frames, .reports, .pressure] { s with vp := s.vp.stopPump } s.stopPump :=
    s.stopPump_from.mono (by decide)
  exact Keeps.ite (h.trans ((State.setExternalEnd_keeps _).mono (by decide))) h

theorem State.enterStopping_ends (s : State) : EndsOnly s.mr.record s.enterStopping.mr.record := by
  have h : s.stopPump.mr.record = s.mr.record := s.stopPump_from.part .record (by decide)
  unfold State.enterStopping
  split
  · exact h ▸ (State.setExternalEnd_ends s.stopPump).1
  · exact h ▸ .refl _

/-- R26: at PU TRIPPED entry stops the pump. -/
theorem State.changePhase_tripped_pump {s : State} (n r : Nat) (h : s.hasRole .pu = true) :
    (s.changePhase .tripped n r).vp.pumpRun = false := by
  have hp := s.left_phase .tripped
  have hr : (s.left .tripped).hasRole .pu = true := (s.left_hasRole _ _).trans h
  have k1 : Keeps [.record, .tanks, .frames, .reports, .pressure]
      { s.left .tripped with vp := (s.left .tripped).vp.stopPump }
      ((s.left .tripped).entryActions s.pc.phase n r) := by
    rw [State.entryActions_tripped hp]
    unfold State.tripField
    rw [if_pos hr]
    refine (Keeps.trans (State.stopPump_from _ |>.mono (by decide)) (Keeps.ite ?_ ?_)).trans
      (Keeps.iteSelf ((State.setExternalEnd_keeps _).mono (by decide)))
    · exact ((State.markTrip_keeps _).mono (by decide)).trans ((State.handEndKind_keeps _ _).mono (by decide))
    · exact (State.markTrip_keeps _).mono (by decide)
  have k2 := k1.trans ((s.changePhase_from .tripped n r).mono (by decide))
  exact (k2.part .pump (by decide)).2.2.2.1.trans (ValvePump.stopPump_off _).1

end Sys2Proof.Machine
end

section
/-! SUPPORT. O28: the step that is not confirmed (R10). -/

namespace Sys2Proof.Machine

theorem State.confirm_inHand (s : State) : s.confirm.pc.inHand = none ∨ s.confirm.pc.inHand = s.pc.inHand := by
  unfold State.confirm
  split
  · exact .inl rfl
  · exact .inr rfl

theorem State.afterTrip_inHand (s : State) :
    s.afterTrip.pc.inHand = none ∨ s.afterTrip.pc.inHand = s.pc.inHand := by
  have h : Keeps (afterParts.erase .phase) s
      (if s.followAll.valveRole && s.followAll.inputs.sep then (s.followAll.closeChannel .n1).joinSeparation
        else s.followAll) := by
    have h1 : Keeps (afterParts.erase .phase) s s.followAll := s.followAll_keeps.mono (by decide)
    exact h1.trans (Keeps.iteSelf (((State.closeChannel_keeps _ _).mono (by decide)).trans
      ((State.joinSeparation_keeps _).mono (by decide))))
  have hi := (h.part .phase (by decide)).2.1
  rw [← hi]
  exact State.confirm_inHand _

/-- R26, R65: a latch outside TRIPPED enters it first; what follows adds causes, closes valves, and may confirm the step
into TRIPPED. -/
theorem State.latch_from {s : State} {c : Cause} (d : Option Nat) (h : s.hasLatched c = false)
    (hp : s.pc.phase ≠ .tripped) :
    Keeps (watchParts ++ afterParts) ((s.addCause c d).changePhase .tripped 0 0) (s.latch c d)
      ∧ ((s.latch c d).pc.inHand = none
          ∨ (s.latch c d).pc.inHand = ((s.addCause c d).changePhase .tripped 0 0).pc.inHand) := by
  have hp' : (s.addCause c d).pc.phase ≠ .tripped := by
    rw [((s.addCause_keeps c d).part .phase (by decide)).1]
    exact hp
  have he : (s.addCause c d).enterTripped = (s.addCause c d).changePhase .tripped 0 0 := if_neg hp'
  unfold State.latch
  rw [if_neg (by simp [h])]
  dsimp only
  rw [if_neg hp, he]
  generalize (s.addCause c d).changePhase .tripped 0 0 = u
  have ha := u.announce_keeps c d s.tu.latched.isEmpty s.tu.firstOut.isNone
  refine ⟨((ha.mono (by decide)).trans ((State.afterTrip_keeps _).mono (by decide))).trans
    ((State.watch_keeps _).mono (by decide)), ?_⟩
  rw [((State.watch_keeps _).part .phase (by decide)).2.1, ← (ha.part .phase (by decide)).2.1]
  exact State.afterTrip_inHand _

/-- R10: a latch in TRIPPED leaves the step in hand. -/
theorem State.latch_inHand_tripped {s : State} (c : Cause) (d : Option Nat) (hp : s.pc.phase = .tripped) :
    (s.latch c d).pc.inHand = s.pc.inHand := by
  unfold State.latch
  split
  · rfl
  · have ha := (s.addCause_keeps c d).part .phase (by decide)
    have he : (s.addCause c d).enterTripped = s.addCause c d := if_pos (ha.1.trans hp)
    dsimp only
    rw [he, ((State.watch_keeps _).part .phase (by decide)).2.1,
      ((State.announce_keeps _ _ _ _ _).part .phase (by decide)).2.1]
    exact ha.2.1

/-- R61: PHASE latches in every phase, and no mask disables it. -/
theorem State.handCause_phase {s : State} (d : Option Nat) (h : s.running = true) :
    s.handCause .phase d = s.latch .phase d := by
  have hl : Cause.phase.latchesIn s.pc.phase = true := rfl
  simp [State.handCause, State.hand, h, hl, ProfileMask.enables]

/-- The state in which STEP_CONFIRMATION_TIMEOUT hands PHASE. -/
def State.timedOut (s : State) (h : StepInHand) : State :=
  ({ s with pc := { s.pc with inHand := none } }).emit (.stepTimeout h.target)

theorem State.timedOut_keeps (s : State) (h : StepInHand) : Keeps [.phase, .reports] s (s.timedOut h) :=
  ((s.putPhase_keeps s.pc.phase none s.pc.order).mono (by decide)).trans ((State.emit_keeps _ _).mono (by decide))

theorem State.execStepConfirmationTimeout_inHand {s : State} {h : StepInHand} (hr : s.running = true)
    (hi : s.pc.inHand = some h) :
    exec .stepConfirmationTimeout s = .next ((s.timedOut h).latch .phase none).puEval := by
  have hd : (s.timedOut h).running = true := hr
  change execStepConfirmationTimeout s = _
  rw [← State.handCause_phase none hd]
  simp only [execStepConfirmationTimeout, hr, hi]
  rfl

theorem State.runningPu_iff (s : State) : s.runningPu = true ↔ s.running = true ∧ s.hasRole .pu = true := by
  simp [State.runningPu]

end Sys2Proof.Machine

open Sys2Proof Sys2Proof.Machine

/-- Settles O28: PHASE latches, and the evaluation that follows in TRIPPED can do no more than confirm. -/
theorem stepTimesOut : Obligations.StepTimesOut := by
  intro s h hpu hi hn
  obtain ⟨hr, hrole⟩ := s.runningPu_iff.1 hpu
  have hk0 := s.timedOut_keeps h
  refine ⟨_, State.execStepConfirmationTimeout_inHand hr hi, ?_⟩
  have hi0 : (s.timedOut h).pc.inHand = none := rfl
  have hp0 : (s.timedOut h).pc.phase = s.pc.phase := rfl
  have hg0 : (s.timedOut h).pc.gen = s.pc.gen := rfl
  have hn0 : (s.timedOut h).hasLatched .phase = false := hn
  have hf0 : (s.timedOut h).tu.firstOut = s.tu.firstOut := rfl
  have hm0 : (s.timedOut h).number = s.number := rfl
  have hrole0 : (s.timedOut h).hasRole .pu = true := hrole
  generalize s.timedOut h = u at *
  obtain ⟨tp, tl, tf⟩ := State.latch_new none hn0
  have hk1 := u.latch_keeps .phase none
  obtain ⟨hk2, ep, -⟩ := State.puEval_noStep_keeps (s := u.latch .phase none) (.inr (.inl (by simp [tp])))
  have hu := (u.latch .phase none).puEval_onward
  have hand : (u.latch .phase none).puEval.pc.inHand = none
      ∨ (u.latch .phase none).puEval.pc.inHand = (u.latch .phase none).pc.inHand := by
    rcases State.puEval_tripped tp with he | he <;> rw [he]
    · exact .inr rfl
    · exact State.confirm_inHand _
  refine ⟨ep.trans tp, (tl.trans hu.latched).subset (by simp), fun hpt => ?_, fun hpn => ⟨?_, ?_⟩, fun hf => ?_, ?_⟩
  · rcases hand with he | he
    · exact he
    · rw [he, State.latch_inHand_tripped _ _ (hp0.trans hpt), hi0]
  · obtain ⟨hk3, -⟩ := State.latch_from none hn0 (hp0 ▸ hpn)
    rw [(hk2.part .pump (by decide)).2.2.2.1, (hk3.part .pump (by decide)).2.2.2.1]
    exact State.changePhase_tripped_pump 0 0 (((u.addCause_keeps _ _).hasRole (by decide) _).trans hrole0)
  · obtain ⟨-, hh⟩ := State.latch_from none hn0 (hp0 ▸ hpn)
    have hc : ((u.addCause .phase none).changePhase .tripped 0 0).pc.inHand = some ⟨.tripped, s.pc.gen, ⟨true, 0⟩⟩ := by
      have hg : (u.addCause .phase none).pc.gen = u.pc.gen := (u.addCause_keeps _ _).part .generation (by decide)
      rw [((u.addCause .phase none).changePhase_phase .tripped 0 0).2.2,
        (u.addCause_keeps _ _).hasRole (by decide), hrole0, hg, hg0]
      rfl
    rw [hc] at hh
    rcases hand with he | he
    · exact .inl he
    · rw [he]
      exact hh
  · rw [hf0, hf, hm0] at tf
    exact hu.firstOut _ tf
  · exact ((hk0.mono (by decide)).trans (hk1.trans (hk2.mono (by decide)))).frame
end

section
/-! SUPPORT. What follows a phase change where nothing hands a cause (R36, R104, R115), and the steps of PU (R7 to R10). -/

namespace Sys2Proof.Machine

/-! ## A phase change that hands no cause -/

/-- R115: SEPARATION handed where SEP_IN is on at BV or SV. -/
def State.separate (s : State) : State := if s.valveRole && s.inputs.sep then s.handSeparation else s

theorem State.separate_off {s : State} (h : (s.valveRole && s.inputs.sep) = false) : s.separate = s := by
  simp [State.separate, h]

/-- R36, R104: with no peer SILENT at OPENING entry and no sensor fault at an entry into the active phases, SEPARATION is all
that is handed. -/
theorem State.handAtEntry_separate {s : State} {old p : Phase} {silent faults : List Nat}
    (hs : p = .opening → silent = []) (hf : old.active = false → p.active = true → faults = []) :
    s.handAtEntry old p silent faults = s.separate := by
  have h1 : (if p = .opening then s.handEach .linkloss p silent else s) = s := by
    split
    · rename_i hp
      rw [hs hp, State.handEach_nil]
    · rfl
  have h2 : (if !old.active && p.active then s.handEach .sensor p faults else s) = s := by
    split
    · rename_i hp
      simp only [Bool.and_eq_true, Bool.not_eq_true'] at hp
      rw [hf hp.1 hp.2, State.handEach_nil]
    · rfl
  unfold State.handAtEntry
  dsimp only
  rw [h1, h2]
  rfl

/-- What follows a phase change before any cause is handed: the scan, the switches, the levels. -/
def State.settled (s : State) (old : Phase) : State := ((s.scanAtPhase old).followAll).watch

theorem State.settled_keeps (s : State) (old : Phase) :
    Keeps (watchParts ++ [.scan, .channels, .pressure]) s (s.settled old) :=
  (((s.scanAtPhase_keeps old).mono (by decide)).trans ((State.followAll_keeps _).mono (by decide))).trans
    ((State.watch_keeps _).mono (by decide))

/-- R20, R36, R84, R104: where no open command was refused, no peer is SILENT at OPENING entry, and no channel is in sensor
fault at an entry into the active phases, what follows a phase change is the standing order and SEPARATION. -/
theorem State.react_calm {s : State} {old : Phase}
    (hr : s.pc.phase = .opening → s.hasRole .tw = true → s.refusedChannels = [])
    (hs : s.pc.phase = .opening → s.silentNumbers = [])
    (hf : old.active = false → s.pc.phase.active = true → s.faultChannels = []) :
    s.react old = ((s.settled old).runOrder.separate).watch := by
  have hk := s.settled_keeps old
  have h1 : (s.settled old).handRefused s.refusedChannels = s.settled old := by
    unfold State.handRefused
    split
    · rename_i h
      rw [hr ((hk.part .phase (by decide)).1 ▸ h.1) (hk.hasRole (by decide) .tw ▸ h.2), State.handEach_nil]
    · rfl
  change ((((s.settled old).handRefused s.refusedChannels).runOrder).handAtEntry old s.pc.phase s.silentNumbers
    s.faultChannels).watch = _
  rw [h1, State.handAtEntry_separate hs hf]

/-! ## What the conditions of a phase entry read -/

theorem Keeps.silentNumbers {T : List Part} {s t : State} (h : Keeps T s t)
    (hT : decide (Part.setup ∉ T ∧ Part.roster ∉ T) = true) : t.silentNumbers = s.silentNumbers := by
  have hp := of_decide_eq_true hT
  have h1 : t.sl = s.sl := h.part .setup (decide_eq_true hp.1)
  have h2 : t.sr = s.sr := h.part .roster (decide_eq_true hp.2)
  simp only [State.silentNumbers, State.lineupEntries, h1, h2]

theorem Keeps.faultChannels {T : List Part} {s t : State} (h : Keeps T s t)
    (hT : decide (Part.readings ∉ T) = true) : t.faultChannels = s.faultChannels := by
  have h1 : t.hw.chans = s.hw.chans := h.part .readings hT
  simp only [State.faultChannels, h1]

/-- R36: no protected entry that is SILENT, none to hand. -/
theorem State.silentNumbers_nil {s : State} (h : ∀ e ∈ s.sr.entries, e.protected' = true → e.presence ≠ .silent) :
    s.silentNumbers = [] := by
  simp only [State.silentNumbers, List.map_eq_nil_iff, List.filter_eq_nil_iff]
  intro e he
  obtain ⟨n, -, hf⟩ := List.mem_filterMap.1 he
  have hm := List.mem_of_find?_eq_some hf
  simp only [Roster.guarded, List.mem_filter] at hm
  simpa using h e hm.1 hm.2

theorem State.someSilent_iff (s : State) :
    s.someSilent = false ↔ ∀ e ∈ s.sr.entries, e.protected' = true → e.presence ≠ .silent := by
  simp [State.someSilent, Roster.guarded]

/-- R104: no enabled channel in sensor fault, none to hand. -/
theorem State.faultChannels_nil {s : State}
    (h : ∀ n : Ch, (s.hw.chans.get n).enabled = true → (s.hw.chans.get n).fault = false) : s.faultChannels = [] := by
  simp only [State.faultChannels, List.map_eq_nil_iff, List.filter_eq_nil_iff]
  intro n _
  cases he : (s.hw.chans.get n).enabled
  · simp
  · simp [h n he]

/-! ## A step at PU -/

/-- R82: PU has no switch to follow. -/
theorem State.followAll_pu {s : State} (h : s.hasRole .pu = true) : s.followAll = s := by
  unfold State.followAll
  rw [State.channelsUsed_pu h]
  exact ite_self s

theorem State.valveRole_pu {s : State} (h : s.hasRole .pu = true) : s.valveRole = false := by
  rw [State.hasRole_iff] at h
  simp [State.valveRole, State.hasRole, h]

theorem orderOf_pu (p : Phase) : orderOf p (some .pu) = none := by cases p <;> rfl

/-- What follows a phase change at PU where no peer is SILENT at OPENING entry and no channel is in sensor fault at an
entry into the active phases: the scan and the levels. -/
theorem State.react_pu {s : State} {old : Phase} (h : s.hasRole .pu = true) (ho : s.pc.order = none)
    (hs : s.pc.phase = .opening → s.silentNumbers = [])
    (hf : old.active = false → s.pc.phase.active = true → s.faultChannels = []) :
    Keeps (watchParts ++ [.scan]) s (s.react old) := by
  have hk1 : Keeps (watchParts ++ [.scan]) s (s.scanAtPhase old) := (s.scanAtPhase_keeps old).mono (by decide)
  have hk : Keeps (watchParts ++ [.scan]) s (s.settled old) := by
    unfold State.settled
    rw [State.followAll_pu ((hk1.hasRole (by decide) _).trans h)]
    exact hk1.trans ((State.watch_keeps _).mono (by decide))
  have hw : s.hasRole .tw = false := by
    rw [State.hasRole_iff] at h
    simp [State.hasRole, h]
  rw [State.react_calm (fun _ ht => absurd ht (by simp [hw])) hs hf,
    State.runOrder_notDue (State.orderDue_none ((hk.part .phase (by decide)).2.2.trans ho)),
    State.separate_off (by rw [hk.valveRole (by decide), State.valveRole_pu h]; rfl)]
  exact hk.trans ((State.watch_keeps _).mono (by decide))

/-- A step at PU where nothing hands a cause: the phase change, the scan and the levels. -/
theorem State.stepTo_pu {s : State} {p : Phase} (n r : Nat) (h : s.hasRole .pu = true)
    (hs : p = .opening → s.silentNumbers = [])
    (hf : s.pc.phase.active = false → p.active = true → s.faultChannels = []) :
    Keeps (watchParts ++ [.scan]) (s.changePhase p n r) (s.stepTo p n r) := by
  have hk := s.changePhase_keeps p n r
  obtain ⟨hp, ho, -⟩ := s.changePhase_phase p n r
  have hrole := s.hasRole_iff .pu |>.1 h
  refine State.react_pu ((hk.hasRole (by decide) _).trans h) (by rw [ho, hrole, orderOf_pu]) (fun hp' => ?_)
    (fun ha hb => ?_)
  · rw [hk.silentNumbers (by decide)]
    exact hs (hp ▸ hp')
  · rw [hk.faultChannels (by decide)]
    exact hf ha (hp ▸ hb)

/-- R9: a step at PU is put in hand, and its STATUS is asked for. -/
theorem State.stepTo_pu_hand {s : State} {p : Phase} (n r : Nat) (hr : s.running = true) (h : s.hasRole .pu = true)
    (hs : p = .opening → s.silentNumbers = [])
    (hf : s.pc.phase.active = false → p.active = true → s.faultChannels = []) :
    (s.stepTo p n r).pc.phase = p ∧ (s.stepTo p n r).pc.inHand = some ⟨p, s.pc.gen, ⟨true, 0⟩⟩
      ∧ (s.stepTo p n r).lc.status.isSome = true := by
  have hk := State.stepTo_pu n r h hs hf
  obtain ⟨hp, -, hi⟩ := s.changePhase_phase p n r
  rw [h] at hi
  exact ⟨(hk.part .phase (by decide)).1.trans hp, (hk.part .phase (by decide)).2.1.trans hi,
    (State.react_onward _ _).status (State.changePhase_status p n r hr)⟩

/-! ## Confirmation -/

/-- R10: a step that waits stays in hand. -/
theorem State.confirm_unconfirmed {s : State} (h : Unconfirmed s) : s.confirm = s := by
  have hc := s.unconfirmed_iff.1 h
  unfold State.confirm at *
  split at hc
  · simp at hc
  · rename_i hn
    rw [if_neg hn]

/-- R10: a step that every peer shows leaves no step in hand. -/
theorem State.confirm_confirmed {s : State} (h : ¬ Unconfirmed s) : s.confirm.pc.inHand = none := by
  have hc := mt s.unconfirmed_iff.2 h
  simpa using hc

/-- R10: a step in hand waits for a PRESENT protected peer that does not show it. -/
theorem unconfirmed_of_entry {s : State} {p : Phase} {t : Timer} {e : Entry} (hi : s.pc.inHand = some ⟨p, s.pc.gen, t⟩)
    (he : e ∈ s.sr.entries) (hg : e.protected' = true) (hp : e.presence = .present)
    (hn : (e.shows s.pc.gen fun st => st.phase == p) = false) : Unconfirmed s :=
  ⟨_, e, hi, he, hg, hp, hn⟩

/-- R10: PC waits for a step that is not confirmed. -/
theorem State.puEval_unconfirmed {s : State} (h : Unconfirmed s) : s.puEval = s := by
  rcases State.puEval_noStep (s := s) (.inr (.inr (.inl h))) with he | he
  · exact he
  · rw [he, State.confirm_unconfirmed h]

/-! ## What the entry actions do at PU -/

theorem EntryAtPu.congr {u s t : State} {p : Phase} (h : EntryAtPu u s p) (hp : Part.same s t .pump)
    (hm : Part.same s t .meter) : EntryAtPu u t p := by
  obtain ⟨p1, p2, p3, p4, p5⟩ := hp
  obtain ⟨m1, m2, -, m4, m5, m6, m7, -⟩ := hm
  cases p <;> simp_all [EntryAtPu]

theorem MeterRecord.enterStarting_meter (m : MeterRecord) :
    m.enterStarting.startLimit = ⟨true, 0⟩ ∧ m.enterStarting.startFlow = false ∧ m.enterStarting.windowLitres = 0
      ∧ m.enterStarting.window = ⟨true, 0⟩ := ⟨rfl, rfl, rfl, rfl⟩

/-- R22: STARTING entry at PU. -/
theorem State.changePhase_starting {s : State} (n r : Nat) (h : s.hasRole .pu = true) :
    EntryAtPu s (s.changePhase .starting n r) .starting
      ∧ (s.changePhase .starting n r).mr.record = s.mr.record := by
  have hl := s.left_from .starting
  have hk : Keeps [.frames, .pressure, .reports] _ (s.changePhase .starting n r) :=
    (State.startPump_from { s.left .starting with mr := (s.left .starting).mr.enterStarting }).mono (by decide)
      |>.trans (by
        have := s.changePhase_from .starting n r
        rw [State.entryActions_starting (s.left_phase _), if_pos ((s.left_hasRole _ _).trans h)] at this
        exact this.mono (by decide))
  have hm := hk.part .meter (by decide)
  have hp := hk.part .pump (by decide)
  have hpump := hl.part .pump (by decide)
  refine ⟨EntryAtPu.congr ⟨fun hs => ?_, (MeterRecord.enterStarting_meter _)⟩ hp hm,
    (hk.part .record (by decide)).trans (s.left_record .starting)⟩
  have hs' : (s.left .starting).vp.pump = .stopped := hpump.1.trans hs
  rw [show ({ s.left .starting with mr := (s.left .starting).mr.enterStarting } : State).vp = (s.left .starting).vp from rfl,
    ValvePump.startPump_stopped _ hs']
  exact ⟨rfl, rfl, rfl, rfl⟩

/-- R98, R143: PUMPING entry at PU. -/
theorem State.changePhase_pumping {s : State} (n r : Nat) (h : s.hasRole .pu = true) :
    EntryAtPu s (s.changePhase .pumping n r) .pumping
      ∧ (s.changePhase .pumping n r).mr.record = s.mr.record := by
  have hk := s.changePhase_from .pumping n r
  rw [State.entryActions_pumping (s.left_phase _), if_pos ((s.left_hasRole _ _).trans h)] at hk
  have hz := ((s.left_from .pumping).part .meter (by decide)).2.2.2.2.2.1
  have hv : EntryAtPu s ((s.left .pumping).setRateLow (s.left .pumping).mr.cap) .pumping := ⟨rfl, hz⟩
  exact ⟨EntryAtPu.congr hv (hk.part .pump (by decide)) (hk.part .meter (by decide)),
    (hk.part .record (by decide)).trans (s.left_record .pumping)⟩

/-- R98: TOPPING entry at PU. -/
theorem State.changePhase_topping {s : State} (n r : Nat) (h : s.hasRole .pu = true) :
    EntryAtPu s (s.changePhase .topping n r) .topping
      ∧ (s.changePhase .topping n r).mr.record = s.mr.record := by
  have hk := s.changePhase_from .topping n r
  rw [State.entryActions_topping (s.left_phase _), if_pos ((s.left_hasRole _ _).trans h)] at hk
  have hv : EntryAtPu s ((s.left .topping).setRateLow true) .topping := Bool.and_true _
  exact ⟨EntryAtPu.congr hv (hk.part .pump (by decide)) (hk.part .meter (by decide)),
    (hk.part .record (by decide)).trans (s.left_record .topping)⟩

/-- The pump after a stop command at the entry into a phase. -/
def PumpStops (s t : State) : Prop :=
  t.vp.pumpRun = false ∧ t.vp.rateLow = false ∧ t.vp.feedback = ⟨false, 0⟩
    ∧ ((s.vp.pump = .starting ∨ s.vp.pump = .running) → t.vp.pump = .stopping ∧ t.vp.stopTimer = ⟨true, 0⟩)

theorem PumpStops.of_stopPump {s u t : State} (hs : Part.same s u .pump)
    (ht : Part.same { u with vp := u.vp.stopPump } t .pump) : PumpStops s t := by
  obtain ⟨h1, h2, h3⟩ := u.vp.stopPump_off
  obtain ⟨t1, t2, t3, t4, t5⟩ := ht
  refine ⟨t4.trans h1, t5.trans h2, t2.trans h3, fun hp => ?_⟩
  obtain ⟨g1, g2⟩ := ValvePump.stopPump_turning (v := u.vp) (by rw [hs.1]; exact hp)
  exact ⟨t1.trans g1, t3.trans g2⟩

/-- R23: STOPPING entry at PU. -/
theorem State.changePhase_stopping {s : State} (n r : Nat) (h : s.hasRole .pu = true) :
    PumpStops s (s.changePhase .stopping n r)
      ∧ EndsOnly s.mr.record (s.changePhase .stopping n r).mr.record := by
  have hk := s.changePhase_from .stopping n r
  rw [State.entryActions_stopping (s.left_phase _), if_pos ((s.left_hasRole _ _).trans h)] at hk
  have hp := ((s.left .stopping).enterStopping_from.part .pump (by decide))
  have he := (s.left .stopping).enterStopping_ends
  rw [s.left_record, ← (hk.part .record (by decide) : _ = _)] at he
  exact ⟨.of_stopPump ((s.left_from .stopping).part .pump (by decide)) (Part.same_trans hp (hk.part .pump (by decide))), he⟩

/-- PAUSED entry at PU. -/
theorem State.changePhase_paused {s : State} (n r : Nat) (h : s.hasRole .pu = true) :
    PumpStops s (s.changePhase .paused n r) ∧ (s.changePhase .paused n r).mr.record = s.mr.record := by
  have hk := s.changePhase_from .paused n r
  rw [State.entryActions_paused (s.left_phase _), if_pos ((s.left_hasRole _ _).trans h)] at hk
  have hf := (s.left .paused).stopPump_from
  have hr : _ = (s.left .paused).mr.record := hf.part .record (by decide)
  exact ⟨.of_stopPump ((s.left_from .paused).part .pump (by decide))
      (Part.same_trans (hf.part .pump (by decide)) (hk.part .pump (by decide))),
    (hk.part .record (by decide)).trans (hr.trans (s.left_record .paused))⟩

/-- CLOSING entry, where the external end is set from OPENING. -/
theorem State.changePhase_closing (s : State) (n r : Nat) :
    EndsOnly s.mr.record (s.changePhase .closing n r).mr.record
      ∧ (s.pc.phase = .opening → s.mr.record.state = .opened →
          (s.changePhase .closing n r).mr.record.externalEnd = true) := by
  have hk := s.changePhase_from .closing n r
  rw [State.entryActions_closing (s.left_phase _)] at hk
  have hc (u : State) : (if u.hasRole .bv then u.closeChannel .n1 else u).mr.record = u.mr.record :=
    (Keeps.iteSelf (u.closeChannel_keeps .n1)).part .record (by decide)
  have hr : (s.changePhase .closing n r).mr.record = _ := (hk.part .record (by decide)).trans (hc _)
  obtain ⟨he, hx⟩ := (s.left .closing).setExternalEnd_ends
  rw [s.left_record] at he hx
  rw [hr]
  split
  · exact ⟨he, fun _ => hx⟩
  · rename_i hn
    exact ⟨s.left_record .closing ▸ .refl _, fun hp => absurd hp hn⟩

/-- R152: ENDED entry. -/
theorem State.changePhase_ended (s : State) (n r : Nat) :
    (s.changePhase .ended n r).mr.record = (s.left .ended).forceSample.mr.record := by
  have hk := s.changePhase_from .ended n r
  rw [State.entryActions_ended (s.left_phase _)] at hk
  exact hk.part .record (by decide)

theorem State.changePhase_ended_ends (s : State) (n r : Nat) :
    EndsOnly s.mr.record (s.changePhase .ended n r).mr.record := by
  rw [s.changePhase_ended, ← s.left_record .ended]
  exact State.forceSample_ends _

/-- R152: the forced sample of an OPEN record at ENDED. -/
theorem State.changePhase_ended_sampled {s : State} (n r : Nat) (h : s.mr.record.state = .opened) :
    (s.changePhase .ended n r).mr.record.state = .sampled ∧ (s.changePhase .ended n r).mr.record.sampleKind = .forced
      ∧ (s.changePhase .ended n r).mr.record.counting = false := by
  rw [s.changePhase_ended, State.forceSample, if_pos]
  · exact ⟨rfl, rfl, rfl⟩
  · rw [State.recordOpen_iff, s.left_record]
    exact h

end Sys2Proof.Machine
end

section
/-! SUPPORT. PC's evaluation at PU (R7 to R10), and that it reads no more than its rules name. -/

namespace Sys2Proof.Machine

/-! ## The triggers -/

/-- R7: the steps that an automatic trigger takes. -/
theorem Due.step {s : State} {p : Phase} {k : EndKind} (h : Due s p k) :
    (s.pc.phase, p) ∈ ([(.opening, .starting), (.starting, .pumping), (.pumping, .topping), (.starting, .stopping),
      (.pumping, .stopping), (.topping, .stopping), (.stopping, .closing), (.closing, .ended)] : List (Phase × Phase)) := by
  rcases h with ⟨h, rfl, -⟩ | ⟨⟨h | h | h, -⟩, rfl, -⟩ | ⟨h, -, rfl, -⟩ | ⟨h, -, rfl, -⟩ | ⟨h, rfl, -⟩ | ⟨h, rfl, -⟩ <;>
    rw [h] <;> decide

theorem Due.active {s : State} {p : Phase} {k : EndKind} (h : Due s p k) : s.pc.phase.active = true := by
  have hs := h.step
  revert hs
  cases s.pc.phase <;> simp [Phase.active]

theorem Due.not_opening {s : State} {p : Phase} {k : EndKind} (h : Due s p k) : p ≠ .opening := by
  rintro rfl
  have hs := h.step
  revert hs
  cases s.pc.phase <;> simp

/-- R8: an end kind goes with the steps to STOPPING alone. -/
theorem Due.kind {s : State} {p : Phase} {k : EndKind} (h : Due s p k) :
    k = .none ∨ s.pc.phase = .starting ∨ s.pc.phase = .pumping ∨ s.pc.phase = .topping := by
  rcases h with ⟨-, -, h, -⟩ | ⟨⟨h, -⟩, -⟩ | ⟨-, -, -, h, -⟩ | ⟨-, -, -, h, -⟩ | ⟨-, -, h, -⟩ | ⟨-, -, h, -⟩
  all_goals first | exact .inl h | exact .inr h

/-- R7, R8: at most one trigger holds. -/
theorem Due.unique {s : State} {p q : Phase} {j k : EndKind} (h : Due s p j) (g : Due s q k) : p = q ∧ j = k := by
  have he := (s.trigger_iff p j).2 h
  rw [(s.trigger_iff q k).2 g] at he
  simp only [Option.some.injEq, Prod.mk.injEq] at he
  exact ⟨he.1.symm, he.2.symm⟩

/-- The phase change of an automatic step: the record's ends, and the entry actions at PU. -/
theorem State.changePhase_due {s u : State} {p : Phase} {k : EndKind} (h : s.hasRole .pu = true) (hd : Due u p k) :
    EntryAtPu s (s.changePhase p 0 0) p ∧ EndsOnly s.mr.record (s.changePhase p 0 0).mr.record := by
  have hs := hd.step
  have hp : p = .starting ∨ p = .pumping ∨ p = .topping ∨ p = .stopping ∨ p = .closing ∨ p = .ended := by
    revert hs
    cases p <;> simp
  rcases hp with rfl | rfl | rfl | rfl | rfl | rfl
  · obtain ⟨he, hr⟩ := State.changePhase_starting 0 0 h
    exact ⟨he, hr ▸ .refl _⟩
  · obtain ⟨he, hr⟩ := State.changePhase_pumping 0 0 h
    exact ⟨he, hr ▸ .refl _⟩
  · obtain ⟨he, hr⟩ := State.changePhase_topping 0 0 h
    exact ⟨he, hr ▸ .refl _⟩
  · exact State.changePhase_stopping 0 0 h
  · exact ⟨trivial, (s.changePhase_closing 0 0).1⟩
  · exact ⟨trivial, s.changePhase_ended_ends 0 0⟩

/-- R7, R9, R22, R23: an automatic step taken. -/
theorem State.takeTrigger_pu {s : State} {p : Phase} {k : EndKind} (hpu : s.runningPu = true) (hd : Due s p k) :
    (s.takeTrigger (p, k)).pc.phase = p
      ∧ (s.takeTrigger (p, k)).pc.inHand = some ⟨p, s.pc.gen, ⟨true, 0⟩⟩
      ∧ (s.takeTrigger (p, k)).lc.status.isSome = true
      ∧ EndsOnly (s.handEndKind k).mr.record (s.takeTrigger (p, k)).mr.record
      ∧ EntryAtPu s (s.takeTrigger (p, k)) p := by
  have hk := s.handEndKind_keeps k
  obtain ⟨hr, h⟩ := (s.handEndKind k).runningPu_iff.1 ((hk.runningPu (by decide)).trans hpu)
  have hph := (hk.part .phase (by decide)).1
  have hg : (s.handEndKind k).pc.gen = s.pc.gen := hk.part .generation (by decide)
  have hs : p = .opening → (s.handEndKind k).silentNumbers = [] := fun hp => absurd hp hd.not_opening
  have hf : (s.handEndKind k).pc.phase.active = false → p.active = true → (s.handEndKind k).faultChannels = [] :=
    fun ha => absurd hd.active (by rw [hph] at ha; simp [ha])
  have ht := State.stepTo_pu 0 0 h hs hf
  obtain ⟨h1, h2, h3⟩ := State.stepTo_pu_hand 0 0 hr h hs hf
  obtain ⟨he, hends⟩ := State.changePhase_due h hd
  have hrec : ((s.handEndKind k).stepTo p 0 0).mr.record = _ := ht.part .record (by decide)
  rw [hg] at h2
  refine ⟨h1, h2, h3, ?_, ?_⟩
  · change EndsOnly _ ((s.handEndKind k).stepTo p 0 0).mr.record
    rw [hrec]
    exact hends
  · have he' := he.congr (ht.part .pump (by decide)) (ht.part .meter (by decide))
    have hv := (hk.part .pump (by decide)).1
    change EntryAtPu s ((s.handEndKind k).stepTo p 0 0) p
    cases p <;> first | exact he' | (simp only [EntryAtPu, hv] at he' ⊢; exact he')

/-! ## The evaluation -/

/-- R10: what is left where no step waits. -/
theorem State.confirm_eq {s : State} (h : ¬ Unconfirmed s) : s.confirm = { s with pc := { s.pc with inHand := none } } := by
  have hi := State.confirm_confirmed h
  unfold State.confirm at *
  split
  · rfl
  · rename_i hn
    rw [if_neg hn] at hi
    rw [← hi]

theorem State.puEval_pu {s : State} (h : s.runningPu = true) : s.puEval = State.puSteps 8 s := if_pos h

/-- R7, R9, R10: PC's evaluation does what its rules say. -/
theorem State.puEval_evaluated {s : State} (h : s.runningPu = true) : PcEvaluated s s.puEval := by
  rw [State.puEval_pu h]
  rcases s.puSteps_cases 7 with ⟨hu, he⟩ | ⟨hu, hn, he⟩ | ⟨hu, p, k, hd, he⟩ <;> rw [he]
  · rw [State.confirm_unconfirmed hu]
    exact ⟨fun _ => ⟨rfl, rfl⟩, fun hn => absurd hu hn, fun hn => absurd hu hn, fun hn => absurd hu hn⟩
  · exact ⟨fun h => absurd h hu, fun _ _ => ⟨s.confirm_phase.1, State.confirm_confirmed hu⟩,
      fun _ p k hd => absurd hd (hn p k), fun _ k hd => absurd hd (hn _ k)⟩
  · have hc := State.confirm_eq hu
    have hdc : Due s.confirm p k := by
      rw [hc]
      exact (Due.congr rfl rfl rfl rfl rfl rfl rfl p k).2 hd
    have hpuc : s.confirm.runningPu = true := (s.confirm_keeps.runningPu (by decide)).trans h
    obtain ⟨t1, t2, t3, t4, t5⟩ := State.takeTrigger_pu hpuc hdc
    have hk := s.confirm.takeTrigger_keeps (p, k)
    have hg : (s.confirm.takeTrigger (p, k)).pc.gen = s.pc.gen := by
      rw [(hk.part .generation (by decide) : _ = _), hc]
    have hsr : (s.confirm.takeTrigger (p, k)).sr = s.sr := by
      rw [(hk.part .roster (by decide) : _ = _), hc]
    have hrec : (s.confirm.handEndKind k).mr.record = (s.handEndKind k).mr.record := by
      rw [State.handEndKind_record, State.handEndKind_record, hc]
    have hgc : s.confirm.pc.gen = s.pc.gen := by rw [hc]
    have hent : EntryAtPu s (s.confirm.takeTrigger (p, k)) p := by
      rw [hc] at t5 ⊢
      cases p <;> exact t5
    rw [hrec] at t4
    rw [hgc] at t2
    generalize s.confirm.takeTrigger (p, k) = v at *
    refine ⟨fun hn => absurd hn hu, fun _ hn => absurd hd (hn p k), fun _ q j hq => ?_, fun _ j hq hall => ?_⟩
    · obtain ⟨rfl, rfl⟩ := hd.unique hq
      rintro ⟨e, hem, hep, hpr, hns⟩
      have hw : Unconfirmed v := by
        refine unconfirmed_of_entry (t := ⟨true, 0⟩) (p := p) (e := e) (by rw [t2, hg]) (hsr ▸ hem) hep hpr ?_
        rw [hg, ← Bool.not_eq_true, Entry.shows_iff (tests_phase p)]
        exact hns
      have hv : State.puSteps 7 v = v := by
        rcases v.puSteps_cases 6 with ⟨-, he⟩ | ⟨hn, -⟩ | ⟨hn, -⟩
        · rw [he, State.confirm_unconfirmed hw]
        · exact absurd hw hn
        · exact absurd hw hn
      rw [hv]
      refine ⟨t1, t2, t3, fun hk => ?_, fun ho hn => ?_, hent⟩
      · rw [t4.endKind, State.handEndKind_record]
        split
        · rename_i hon
          rcases hk with hk | hk | hk
          · rw [hk, hon.2]
          · exact absurd hon.1 hk
          · exact absurd hon.2 hk
        · rfl
      · rw [t4.endKind, State.handEndKind_record, if_pos ⟨ho, hn⟩]
    · obtain ⟨rfl, rfl⟩ := hd.unique hq
      have hw : ¬ Unconfirmed v := by
        rintro ⟨x, e, hx, hem, hep, hpr, hns⟩
        rw [t2, Option.some.injEq] at hx
        subst hx
        have := (Entry.shows_iff (s := s) (tests_phase .ended)).2 (hall e (hsr ▸ hem) hep hpr)
        simp [this] at hns
      have hv : State.puSteps 7 v = v.confirm := by
        rcases v.puSteps_cases 6 with ⟨hn, -⟩ | ⟨-, -, he⟩ | ⟨-, q, j, hq, -⟩
        · exact absurd hn hw
        · exact he
        · exact absurd hq.active (by rw [t1]; decide)
      rw [hv]
      exact ⟨v.confirm_phase.1.trans t1, State.confirm_confirmed hw⟩

/-! ## What the evaluation reads -/

/-- Two states that PC evaluates alike: those that agree in what the triggers and the step in hand read. In STOPPING and
outside the active phases no trigger reads the record's state. -/
structure SameForPc (u s : State) : Prop where
  phase : s.pc.phase = u.pc.phase
  inHand : s.pc.inHand = u.pc.inHand
  gen : s.pc.gen = u.pc.gen
  entries : s.sr.entries = u.sr.entries
  pump : s.vp.pump = u.vp.pump
  startFlow : s.mr.startFlow = u.mr.startFlow
  setup : s.sl.setup.toppingMargin = u.sl.setup.toppingMargin
  nomination : s.mr.record.nomination = u.mr.record.nomination
  delivered : s.mr.record.delivered = u.mr.record.delivered
  endKind : s.mr.record.endKind = u.mr.record.endKind
  state : u.pc.phase = .stopping ∨ u.pc.phase.active = false ∨ s.mr.record.state = u.mr.record.state

theorem SameForPc.due {u s : State} (h : SameForPc u s) (p : Phase) (k : EndKind) : Due s p k ↔ Due u p k := by
  unfold Due RoleShowing EveryTwShows Roster.ofRole
  simp only [h.phase, h.entries, h.pump, h.startFlow, h.setup, h.nomination, h.delivered, Showing.congr h.gen]
  rcases h.state with hs | hs | hs
  · simp [hs]
  · cases hp : u.pc.phase <;> simp_all [Phase.active]
  · simp only [hs]

theorem SameForPc.unconfirmed {u s : State} (h : SameForPc u s) : Unconfirmed s ↔ Unconfirmed u := by
  simp only [Unconfirmed, h.inHand, h.entries]

/-- The parts that PC's evaluation is not judged by. -/
def beyondPc : List Part := [.receive, .reports, .scan]

/-- PC's evaluation is that of every state it evaluates alike, and stays so under what does not concern it. -/
theorem PcEvaluated.congr {u s t v : State} (h : PcEvaluated u t) (hs : SameForPc u s) (hk : Keeps beyondPc t v) :
    PcEvaluated s v := by
  obtain ⟨k1, k2, -⟩ := hk.part .phase (by decide)
  have kl : v.lc.status = t.lc.status := (hk.part .frames (by decide)).2.2.2.1
  have kr : v.mr.record = t.mr.record := hk.part .record (by decide)
  refine ⟨fun hu => ?_, fun hu hn => ?_, fun hu p k hd he => ?_, fun hu k hd he => ?_⟩
  · obtain ⟨h1, h2⟩ := h.waits (hs.unconfirmed.1 hu)
    exact ⟨k1.trans (h1.trans hs.phase.symm), k2.trans (h2.trans hs.inHand.symm)⟩
  · obtain ⟨h1, h2⟩ := h.confirms (mt hs.unconfirmed.2 hu) fun p k hd => hn p k ((hs.due p k).2 hd)
    exact ⟨k1.trans (h1.trans hs.phase.symm), k2.trans h2⟩
  · have hd' := (hs.due p k).1 hd
    obtain ⟨h1, h2, h3, h4, h5, h6⟩ := h.steps (mt hs.unconfirmed.2 hu) p k hd' (by
      obtain ⟨e, h1, h2, h3, h4⟩ := he
      exact ⟨e, hs.entries ▸ h1, h2, h3, fun hn => h4 ((Showing.congr hs.gen e _).2 hn)⟩)
    have hst : k = .none ∨ s.mr.record.state = u.mr.record.state := by
      rcases hd'.kind with hk | hp
      · exact .inl hk
      · rcases hs.state with h | h | h
        · rw [h] at hp
          simp at hp
        · rw [hd'.active] at h
          cases h
        · exact .inr h
    refine ⟨k1.trans h1, k2.trans (by rw [h2, hs.gen]), by rw [kl, h3], fun hx => ?_, fun ho hn => ?_, ?_⟩
    · rw [kr, hs.endKind]
      rcases hst with hk | hst
      · exact h4 (.inl hk)
      · rw [hst, hs.endKind] at hx
        exact h4 hx
    · rw [kr]
      rcases hst with hk | hst
      · rw [h4 (.inl hk), ← hs.endKind, hn, hk]
      · exact h5 (hst ▸ ho) (hs.endKind ▸ hn)
    · have h7 := h6.congr (hk.part .pump (by decide)) (hk.part .meter (by decide))
      have hv := hs.pump
      cases p <;> first | exact h7 | (simp only [EntryAtPu, hv] at h7 ⊢; exact h7)
  · obtain ⟨h1, h2⟩ := h.ends (mt hs.unconfirmed.2 hu) k ((hs.due _ k).1 hd) fun e h1 h2 h3 =>
      (Showing.congr hs.gen e _).1 (he e (hs.entries ▸ h1) h2 h3)
    exact ⟨k1.trans h1, k2.trans h2⟩

/-! ## A record that is not OPEN -/

theorem State.takeTrigger_runningPu {s : State} (t : Phase × EndKind) (h : s.runningPu = true) :
    (s.takeTrigger t).runningPu = true := ((s.takeTrigger_keeps t).runningPu (by decide)).trans h

/-- R140, R153: PC's steps leave a record that is not OPEN as it is. -/
theorem State.puSteps_shut (n : Nat) {s : State} (hpu : s.runningPu = true) (h : s.mr.record.state ≠ .opened) :
    (State.puSteps n s).mr.record = s.mr.record := by
  induction n generalizing s with
  | zero => rfl
  | succ n ih =>
    have hc : s.confirm.mr.record = s.mr.record := s.confirm_keeps.part .record (by decide)
    rcases s.puSteps_cases n with ⟨-, he⟩ | ⟨-, -, he⟩ | ⟨hu, p, k, hd, he⟩ <;> rw [he]
    · exact hc
    · exact hc
    · have hdc : Due s.confirm p k := by
        rw [State.confirm_eq hu]
        exact (Due.congr rfl rfl rfl rfl rfl rfl rfl p k).2 hd
      have hpuc : s.confirm.runningPu = true := (s.confirm_keeps.runningPu (by decide)).trans hpu
      obtain ⟨-, -, -, t4, -⟩ := State.takeTrigger_pu hpuc hdc
      rw [State.handEndKind_shut k (hc ▸ h)] at t4
      have hr := (t4.shut (hc ▸ h)).trans hc
      rw [ih (State.takeTrigger_runningPu _ hpuc) (hr ▸ h), hr]

theorem State.puEval_shut {s : State} (hpu : s.runningPu = true) (h : s.mr.record.state ≠ .opened) :
    s.puEval.mr.record = s.mr.record := by
  rw [State.puEval_pu hpu]
  exact State.puSteps_shut 8 hpu h

end Sys2Proof.Machine
end

section
/-! SUPPORT. A STATUS taken at a RUNNING station (R29, R33), and O29: what leads to PC's evaluation at PU. -/

namespace Sys2Proof.Machine

/-! ## A STATUS taken -/

/-- The frame a STATUS is. -/
def statusFrame (h : Header) (st : Status) : Received := ⟨.status, h, .status st⟩

/-- R29, R33: a RUNNING station after a STATUS that is no clash, up to the receive slots. -/
def State.afterStatus (s : State) (h : Header) (st : Status) : State :=
  ((((s.enterFrame (statusFrame h st)).offerTrip (statusFrame h st)).takeStatus h (s.sr.find h.sender) st)).rosterChanged

theorem State.running_station {s : State} (h : s.running = true) : s.pc.station = .running := by
  simpa [State.running] using h

theorem State.takeFrame_status {s : State} {l : List Byte} {h : Header} {st : Status} (hr : s.running = true)
    (hf : readFrame l = some ⟨.status, h, .status st⟩) (hc : s.isClash h = false) :
    s.takeFrame l = s.afterStatus h st := by
  simp only [State.takeFrame, hf, State.running_station hr, State.takeRunning, hc]
  rfl

/-- R172: the delivery slot emptied and the slots moved on. -/
def State.delivered (s : State) : State := State.moveSlots { s with lc := { s.lc with delivery := none } }

theorem State.delivered_keeps (s : State) : Keeps [.receive, .reports] s s.delivered :=
  ((s.putSlots_keeps _ (by exact ⟨rfl, rfl, rfl, rfl, rfl, rfl, rfl, rfl⟩)).mono (by decide)).trans
    (State.moveSlots_keeps _)

theorem State.delivered_onward (s : State) : Onward s s.delivered :=
  Onward.trans (s := s) (t := { s with lc := { s.lc with delivery := none } }) ⟨id, id, List.prefix_rfl, fun _ => id, .inl rfl, rfl⟩ (State.moveSlots_onward _)

/-- R29, R172: a STATUS that is no clash, taken at a RUNNING station: what it does, and the slots moved on. -/
theorem State.execRosterTakeFrame_status {s : State} {l : List Byte} {h : Header} {st : Status} (hr : s.running = true)
    (hd : s.lc.delivery = some l) (hf : readFrame l = some ⟨.status, h, .status st⟩) (hc : s.isClash h = false) :
    exec .rosterTakeFrame s = .next (s.afterStatus h st).delivered := by
  have hl : s.listening = true := by simp [State.listening, State.running_station hr]
  change execRosterTakeFrame s = _
  simp only [execRosterTakeFrame, hl, hd, State.takeFrame_status hr hf hc]
  rfl

/-! ## The sample at a roster change -/

theorem EveryTwShows.mono {s : State} {f g : Status → Prop} (h : EveryTwShows s f) (hfg : ∀ st, f st → g st) :
    EveryTwShows s g :=
  ⟨h.1, fun e he hp hr => by
    obtain ⟨st, h1, h2, h3⟩ := h.2 e he hp hr
    exact ⟨st, h1, h2, hfg st h3⟩⟩

/-- R151: at a station whose role is not TW the ends of the record sample it where the sample is due, and nowhere else. -/
theorem State.judgeEnds_sample {s : State} (hw : s.hasRole .tw = false) :
    (SampleDue s → s.judgeEnds.mr.record.state = .sampled ∧ s.judgeEnds.mr.record.sampleKind = .normal)
      ∧ (¬ SampleDue s → s.judgeEnds.mr.record.state = s.mr.record.state) := by
  have hi : s.internalEndNow = true ↔ EveryTwShows s InternalEndShown := by
    simp only [State.internalEndNow, hw, Bool.false_eq_true, if_false]
    exact State.everyTw_iff tests_internalEnd
  have hc : s.allComplete = true ↔ EveryTwShows s (ReceiptShown .complete) := by
    simp only [State.allComplete, hw, Bool.false_eq_true, if_false]
    exact State.everyTw_iff (tests_receipt (by decide))
  have hci : s.allComplete = true → s.internalEndNow = true := fun h => hi.2 ((hc.1 h).mono fun st hs => by
    obtain ⟨d, items, hb⟩ := hs
    exact ⟨_, d, items, hb, .inr (.inl rfl)⟩)
  have hj : ∃ b, s.judgeInternalEnd.mr.record = { s.mr.record with internalEnd := b }
      ∧ (s.recordOpen = true → s.internalEndNow = true → b = true) := by
    unfold State.judgeInternalEnd
    split
    · exact ⟨true, rfl, fun _ _ => rfl⟩
    · rename_i h
      refine ⟨s.mr.record.internalEnd, rfl, fun ho hn => ?_⟩
      simpa [ho, hn] using h
  obtain ⟨b, hb, hbt⟩ := hj
  have ha : s.judgeInternalEnd.allComplete = s.allComplete := by
    have hk := s.judgeInternalEnd_keeps
    have h1 : _ = s.sr := hk.part .roster (by decide)
    have h2 : _ = s.pc.gen := hk.part .generation (by decide)
    have h3 := hk.hasRole (by decide) .tw
    simp only [State.allComplete, h3, hw, State.everyTw, Roster.guardedTw, Roster.guarded, h1, h2]
    rfl
  have hs : s.judgeEnds.mr.record.state
        = (if s.recordOpen && s.mr.record.externalEnd && b && s.allComplete then .sampled else s.mr.record.state)
      ∧ ((s.recordOpen && s.mr.record.externalEnd && b && s.allComplete) = true →
          s.judgeEnds.mr.record.sampleKind = .normal) := by
    change (State.judgeSample _).mr.record.state = _ ∧ (_ → (State.judgeSample _).mr.record.sampleKind = _)
    unfold State.judgeSample
    have ho : s.judgeInternalEnd.recordOpen = s.recordOpen := by simp only [State.recordOpen, hb]
    rw [ho, ha, hb]
    dsimp only
    split
    · exact ⟨rfl, fun _ => rfl⟩
    · rename_i hn
      exact ⟨by rw [hb], fun h => absurd h hn⟩
  refine ⟨fun ⟨h1, h2, h3⟩ => ?_, fun hn => ?_⟩
  · have hcond : (s.recordOpen && s.mr.record.externalEnd && b && s.allComplete) = true := by
      have ho := s.recordOpen_iff.2 h1
      simp [ho, h2, hc.2 h3, hbt ho (hci (hc.2 h3))]
    exact ⟨by rw [hs.1, if_pos hcond], hs.2 hcond⟩
  · rw [hs.1, if_neg]
    intro h
    simp only [Bool.and_eq_true] at h
    exact hn ⟨s.recordOpen_iff.1 h.1.1.1, h.1.1.2, hc.1 h.2⟩

/-- What a sample falling due reads. -/
theorem SampleDue.congr {s t : State} (h1 : t.mr.record.state = s.mr.record.state)
    (h2 : t.mr.record.externalEnd = s.mr.record.externalEnd) (h3 : t.sr = s.sr) (h4 : t.pc.gen = s.pc.gen) :
    SampleDue t ↔ SampleDue s := by
  unfold SampleDue EveryTwShows
  simp only [h1, h2, h3, Showing.congr h4]

/-! ## A roster change at PU -/

/-- The state that PC evaluates at a roster change. -/
def State.rosterLevels (s : State) : State :=
  ((((((s.runOrder).releaseIfStopped).readRoute).takeReceived.readExternalEnd).judgeEnds).watchLeak).watch

theorem State.rosterChanged_running {s : State} (h : s.running = true) : s.rosterChanged = s.rosterLevels.puEval :=
  if_pos h

theorem State.rosterLevels_keeps (s : State) : Keeps leakParts s s.rosterLevels :=
  ((s.rosterReactions_keeps.mono (by decide)).trans ((State.watchLeak_keeps _).mono (by decide))).trans
    ((State.watch_keeps _).mono (by decide))

/-- The parts that a roster change touches where no standing order is due, before PC evaluates. -/
def rosterParts : List Part :=
  watchParts ++ [.channels, .pressure, .tanks, .record, .leak]

/-- What a roster change does after the standing order, before PC evaluates. -/
def State.rosterRest (s : State) : State :=
  (((((s.releaseIfStopped).readRoute).takeReceived.readExternalEnd).judgeEnds).watchLeak).watch

theorem State.rosterRest_keeps (s : State) : Keeps rosterParts s s.rosterRest := by
  refine Keeps.trans ?_ ((State.watch_keeps _).mono (by decide))
  refine Keeps.trans ?_ ((State.watchLeak_keeps _).mono (by decide))
  refine Keeps.trans ?_ ((State.judgeEnds_keeps _).mono (by decide))
  refine Keeps.trans ?_ ((State.readExternalEnd_keeps _).mono (by decide))
  refine Keeps.trans ?_ ((State.takeReceived_keeps _).mono (by decide))
  exact (s.releaseIfStopped_keeps.mono (by decide)).trans ((State.readRoute_keeps _).mono (by decide))

theorem State.rosterLevels_rest (s : State) : s.rosterLevels = s.runOrder.rosterRest := rfl

/-- A roster change with no standing order due: what comes before the leak condition and the levels. -/
theorem State.rosterLevels_notDue {s : State} (h : s.orderDue = false) : Keeps rosterParts s s.rosterLevels := by
  rw [s.rosterLevels_rest, State.runOrder_notDue h]
  exact s.rosterRest_keeps

theorem State.readExternalEnd_pu {s : State} (h : s.hasRole .pu = true) : s.readExternalEnd = s := by
  simp [State.readExternalEnd, h]

theorem State.hasRole_tw_pu {s : State} (h : s.hasRole .pu = true) : s.hasRole .tw = false := by
  rw [State.hasRole_iff] at h
  simp [State.hasRole, h]

theorem State.takeReceived_record (s : State) : ∃ v, s.takeReceived.mr.record = { s.mr.record with received := v } := by
  unfold State.takeReceived
  split
  · exact ⟨_, rfl⟩
  · exact ⟨s.mr.record.received, rfl⟩

/-- R147, R151: the record that PC at PU finds at a roster change with no standing order: its figures and its end kind as
they were, sampled where the sample is due. -/
theorem State.rosterLevels_record {s : State} (h : s.hasRole .pu = true) (ho : s.orderDue = false) :
    s.rosterLevels.mr.record.nomination = s.mr.record.nomination
      ∧ s.rosterLevels.mr.record.delivered = s.mr.record.delivered
      ∧ s.rosterLevels.mr.record.endKind = s.mr.record.endKind
      ∧ (SampleDue s → s.rosterLevels.mr.record.state = .sampled ∧ s.rosterLevels.mr.record.sampleKind = .normal)
      ∧ (¬ SampleDue s → s.rosterLevels.mr.record.state = s.mr.record.state) := by
  have hk : Keeps (watchParts ++ [.channels, .pressure, .tanks]) s (s.releaseIfStopped).readRoute :=
    (s.releaseIfStopped_keeps.mono (by decide)).trans ((State.readRoute_keeps _).mono (by decide))
  have hz : Keeps rosterParts s ((s.releaseIfStopped).readRoute).takeReceived :=
    (hk.mono (by decide)).trans ((State.takeReceived_keeps _).mono (by decide))
  obtain ⟨v, hv⟩ := ((s.releaseIfStopped).readRoute).takeReceived_record
  rw [(hk.part .record (by decide) : _ = _)] at hv
  have hx : s.rosterLevels.mr.record = (((s.releaseIfStopped).readRoute).takeReceived).judgeEnds.mr.record := by
    have hw := State.watch_keeps ((((s.releaseIfStopped).readRoute).takeReceived).judgeEnds.watchLeak)
    unfold State.rosterLevels
    rw [State.runOrder_notDue ho, State.readExternalEnd_pu ((hz.hasRole (by decide) _).trans h)]
    exact hw.part .record (by decide)
  rw [hx]
  have hd : SampleDue ((s.releaseIfStopped).readRoute).takeReceived ↔ SampleDue s :=
    SampleDue.congr (by rw [hv]) (by rw [hv]) (hz.part .roster (by decide)) (hz.part .generation (by decide))
  generalize ((s.releaseIfStopped).readRoute).takeReceived = z at *
  have he := z.judgeEnds_ends
  obtain ⟨h1, h2⟩ := State.judgeEnds_sample (State.hasRole_tw_pu ((hz.hasRole (by decide) .pu).trans h))
  rw [hd, hv] at h2
  exact ⟨he.nomination.trans (by rw [hv]), he.delivered.trans (by rw [hv]), he.endKind.trans (by rw [hv]),
    fun hs => h1 (hd.2 hs), h2⟩

theorem State.offerTrip_none {s : State} {h : Header} {st : Status} (hn : st.phase = .tripped → h.gen ≠ s.pc.gen) :
    s.offerTrip (statusFrame h st) = s := by
  unfold State.offerTrip
  simp only [statusFrame, Contents.remoteTrip]
  split
  · rename_i c o hc
    split at hc
    · rename_i ht
      exact if_neg (hn ht)
    · cases hc
  · rfl

/-- A STATUS taken at PU is a roster change and nothing more (R33). -/
theorem State.afterStatus_pu {s : State} {h : Header} {st : Status} (hpu : s.hasRole .pu = true)
    (hn : st.phase = .tripped → h.gen ≠ s.pc.gen) :
    s.afterStatus h st = (s.enterFrame (statusFrame h st)).rosterChanged := by
  have hk := s.enterFrame_keeps (statusFrame h st)
  have hg : (s.enterFrame (statusFrame h st)).pc.gen = s.pc.gen := hk.part .generation (by decide)
  unfold State.afterStatus
  rw [State.offerTrip_none (by rw [hg]; exact hn)]
  have hp := (hk.hasRole (by decide) .pu).trans hpu
  simp [State.takeStatus, hp]

/-- The parts a roster change at PU may touch before PC evaluates leave what PC reads, the record apart. -/
theorem Keeps.sameForPc {s u x : State} (hu : Keeps [.roster, .reports] s u) (hx : Keeps rosterParts u x) (m : MeterRecord)
    (r : Roster) (hr : x.sr.entries = r.entries) (hm : m.startFlow = s.mr.startFlow)
    (h1 : m.record.nomination = x.mr.record.nomination) (h2 : m.record.delivered = x.mr.record.delivered)
    (h3 : m.record.endKind = x.mr.record.endKind) (h4 : s.pc.phase.active = false ∨ m.record.state = x.mr.record.state) :
    SameForPc x { s with sr := r, mr := m } := by
  have hk : Keeps (rosterParts ++ [.roster]) s x := (hu.mono (by decide)).trans (hx.mono (by decide))
  obtain ⟨k1, k2, -⟩ := hk.part .phase (by decide)
  have k3 : x.sl = s.sl := hk.part .setup (by decide)
  exact ⟨k1.symm, k2.symm, (hk.part .generation (by decide)).symm, hr.symm, (hk.part .pump (by decide)).1.symm,
    hm.trans (hk.part .meter (by decide)).2.2.2.1.symm, by rw [k3], h1, h2, h3,
    .inr (h4.imp (fun h => by rw [k1]; exact h) id)⟩

/-- R7: PC's evaluation at a roster change at PU with no standing order. -/
theorem State.rosterChanged_evaluated {s : State} (hpu : s.runningPu = true) (ho : s.pc.order = none) :
    PcEvaluated s.rosterLevels s.rosterChanged ∧ Keeps rosterParts s s.rosterLevels
      ∧ s.rosterChanged.sr = s.sr := by
  obtain ⟨hr, hrole⟩ := s.runningPu_iff.1 hpu
  have hk := State.rosterLevels_notDue (State.orderDue_none ho)
  have hp : s.rosterLevels.runningPu = true := (hk.runningPu (by decide)).trans hpu
  exact ⟨State.rosterChanged_running hr ▸ State.puEval_evaluated hp, hk, s.rosterChanged_keeps.part .roster (by decide)⟩

end Sys2Proof.Machine
end

section
/-! SUPPORT. O29, event by event: what leads to PC's evaluation at PU (R7). -/

namespace Sys2Proof.Machine

/-- R33, R151: a STATUS of a peer at PU. -/
theorem State.status_evaluated {s : State} {l : List Byte} {h : Header} {st : Status} (hpu : s.runningPu = true)
    (hd : s.lc.delivery = some l) (hf : readFrame l = some ⟨.status, h, .status st⟩) (hc : s.isClash h = false)
    (ho : s.pc.order = none) (hn : st.phase = .tripped → h.gen ≠ s.pc.gen) :
    ∃ t, exec .rosterTakeFrame s = .next t
      ∧ (¬ SampleDue { s with sr := t.sr } → PcEvaluated { s with sr := t.sr } t)
      ∧ (SampleDue { s with sr := t.sr } →
          t.mr.record.state = .sampled ∧ t.mr.record.sampleKind = .normal
            ∧ PcEvaluated { s with
                sr := t.sr, mr := { s.mr with record := { s.mr.record with state := .sampled } } } t) := by
  obtain ⟨hr, hrole⟩ := s.runningPu_iff.1 hpu
  refine ⟨_, State.execRosterTakeFrame_status hr hd hf hc, ?_⟩
  rw [State.afterStatus_pu hrole hn]
  have hu := s.enterFrame_keeps (statusFrame h st)
  generalize s.enterFrame (statusFrame h st) = u at *
  have hpu' : u.runningPu = true := (hu.runningPu (by decide)).trans hpu
  obtain ⟨hr', hrole'⟩ := u.runningPu_iff.1 hpu'
  have ho' : u.pc.order = none := (hu.part .phase (by decide)).2.2.trans ho
  obtain ⟨he, hx, hsr⟩ := State.rosterChanged_evaluated hpu' ho'
  obtain ⟨r1, r2, r3, r4, r5⟩ := State.rosterLevels_record hrole' (State.orderDue_none ho')
  have ht := u.rosterChanged.delivered_keeps
  have htsr : u.rosterChanged.delivered.sr = u.sr := (ht.part .roster (by decide) : _ = _).trans hsr
  have hur : u.mr.record = s.mr.record := hu.part .record (by decide)
  have hdue : SampleDue { s with sr := u.rosterChanged.delivered.sr } ↔ SampleDue u :=
    SampleDue.congr (by rw [hur]) (by rw [hur]) htsr (hu.part .generation (by decide) : _ = _).symm
  have hxsr : u.rosterLevels.sr = u.sr := hx.part .roster (by decide)
  rw [hur] at r1 r2 r3 r5
  rw [hdue]
  refine ⟨fun hs => ?_, fun hs => ?_⟩
  · exact he.congr (hu.sameForPc hx s.mr _ (by rw [hxsr, htsr]) rfl r1.symm r2.symm r3.symm (.inr (r5 hs).symm))
      (ht.mono (by decide))
  · obtain ⟨hst, hsk⟩ := r4 hs
    have hrec : u.rosterChanged.delivered.mr.record = u.rosterLevels.mr.record := by
      rw [(ht.part .record (by decide) : _ = _), State.rosterChanged_running hr']
      exact State.puEval_shut ((hx.runningPu (by decide)).trans hpu') (by rw [hst]; decide)
    refine ⟨by rw [hrec, hst], by rw [hrec, hsk], ?_⟩
    exact he.congr (hu.sameForPc hx { s.mr with record := { s.mr.record with state := .sampled } } _
      (by rw [hxsr, htsr]) rfl r1.symm r2.symm r3.symm (.inr hst.symm)) (ht.mono (by decide))

/-- R7: a trigger evaluated outside the active phases leaves the phase. -/
theorem State.puEval_inactive {s : State} (h : s.pc.phase.active = false) : s.puEval.pc.phase = s.pc.phase := by
  refine (State.puEval_noStep_keeps (.inr (.inl ?_))).2.1
  cases hp : s.pc.phase <;> simp_all [Phase.active]

/-- R35, R36: a protected peer that falls SILENT outside the active phases. -/
theorem State.silence_evaluated {s : State} {n : Nat} {e : Entry} (hpu : s.runningPu = true) (hf : s.sr.find n = some e)
    (hg : e.protected' = true) (hp : e.presence ≠ .silent) (ha : s.pc.phase.active = false) (ho : s.pc.order = none) :
    ∃ t, exec (.silenceLimit n) s = .next t ∧ PcEvaluated { s with sr := t.sr } t := by
  obtain ⟨hr, hrole⟩ := s.runningPu_iff.1 hpu
  have hl : s.listening = true := by simp [State.listening, State.running_station hr]
  have hcan : e.canPassSilence s.sl.setup.silence = true := by simp [Entry.canPassSilence, hg, hp]
  have hu : Keeps [.roster, .reports] s
      (({ s with sr := s.sr.replace (e.passSilence s.sl.setup.silence) } : State).emitIf e.protected'
        (.presence e.number e.presence .silent)) :=
    ((s.putRoster_keeps _).mono (by decide)).trans ((State.emitIf_keeps _ _ _).mono (by decide))
  have hx : exec (.silenceLimit n) s = .next ((({ s with sr := s.sr.replace (e.passSilence s.sl.setup.silence) } :
      State).emitIf e.protected' (.presence e.number e.presence .silent)).rosterChanged.handLinkloss e) := by
    change execSilenceLimit n s = _
    simp only [execSilenceLimit, hl, hf, hcan, if_true]
    rfl
  refine ⟨_, hx, ?_⟩
  generalize ({ s with sr := s.sr.replace (e.passSilence s.sl.setup.silence) } : State).emitIf e.protected'
    (.presence e.number e.presence .silent) = u at *
  have hpu' : u.runningPu = true := (hu.runningPu (by decide)).trans hpu
  have ho' : u.pc.order = none := (hu.part .phase (by decide)).2.2.trans ho
  obtain ⟨he, hk, hsr⟩ := State.rosterChanged_evaluated hpu' ho'
  obtain ⟨r1, r2, r3, -, -⟩ := State.rosterLevels_record ((hu.hasRole (by decide) _).trans hrole) (State.orderDue_none ho')
  have hur : u.mr.record = s.mr.record := hu.part .record (by decide)
  rw [hur] at r1 r2 r3
  have hxp : u.rosterLevels.pc.phase = s.pc.phase :=
    (hk.part .phase (by decide)).1.trans (hu.part .phase (by decide)).1
  have hxa : u.rosterLevels.pc.phase.active = false := by rw [hxp]; exact ha
  have hphase : u.rosterChanged.pc.phase.active = false := by
    rw [State.rosterChanged_running ((u.runningPu_iff.1 hpu').1), State.puEval_inactive hxa]
    exact hxa
  have hlink : u.rosterChanged.handLinkloss e = u.rosterChanged := by
    rw [State.handLinkloss, if_pos hg, State.handCause_unlisted (c := .linkloss) _ hphase]
  rw [hlink]
  have hxsr : u.rosterLevels.sr = u.sr := hk.part .roster (by decide)
  exact he.congr (hu.sameForPc hk s.mr _ (by rw [hxsr, hsr]) rfl r1.symm r2.symm r3.symm (.inl ha)) (.refl _ _)

/-- PC's evaluation of a state that it evaluates like another. -/
theorem State.puEval_evaluated_like {u s : State} (hpu : u.runningPu = true) (hs : SameForPc u s) :
    PcEvaluated s u.puEval := (State.puEval_evaluated hpu).congr hs (.refl _ _)

/-- The fields that PC reads stay under a change of the others. -/
theorem Keeps.evaluatedLike {T : List Part} {s u : State} (h : Keeps T s u)
    (hT : decide (Part.phase ∉ T ∧ Part.generation ∉ T ∧ Part.roster ∉ T ∧ Part.pump ∉ T ∧ Part.setup ∉ T
      ∧ Part.meter ∉ T) = true)
    (h1 : u.mr.record.nomination = s.mr.record.nomination) (h2 : u.mr.record.delivered = s.mr.record.delivered)
    (h3 : u.mr.record.endKind = s.mr.record.endKind)
    (h4 : s.pc.phase = .stopping ∨ s.pc.phase.active = false ∨ u.mr.record.state = s.mr.record.state) :
    SameForPc u s := by
  obtain ⟨t1, t2, t3, t4, t5, t6⟩ := of_decide_eq_true hT
  obtain ⟨k1, k2, -⟩ := h.part .phase (decide_eq_true t1)
  have k3 : u.sr = s.sr := h.part .roster (decide_eq_true t3)
  have k4 : u.sl = s.sl := h.part .setup (decide_eq_true t5)
  exact ⟨k1.symm, k2.symm, (h.part .generation (decide_eq_true t2)).symm, by rw [k3],
    (h.part .pump (decide_eq_true t4)).1.symm, (h.part .meter (decide_eq_true t6)).2.2.2.1.symm, by rw [k4], h1.symm,
    h2.symm, h3.symm, by rw [k1]; exact h4.imp id (Or.imp id Eq.symm)⟩

/-- R17, R75: the levels leave what PC reads. -/
theorem State.watch_evaluatedLike (s : State) : SameForPc s.watch s := by
  have h : s.watch.mr.record = s.mr.record := s.watch_keeps.part .record (by decide)
  exact s.watch_keeps.evaluatedLike (by decide) (by rw [h]) (by rw [h]) (by rw [h]) (.inr (.inr (by rw [h])))

theorem SameForPc.trans {u v s : State} (h : SameForPc u v) (k : SameForPc v s) : SameForPc u s where
  phase := k.phase.trans h.phase
  inHand := k.inHand.trans h.inHand
  gen := k.gen.trans h.gen
  entries := k.entries.trans h.entries
  pump := k.pump.trans h.pump
  startFlow := k.startFlow.trans h.startFlow
  setup := k.setup.trans h.setup
  nomination := k.nomination.trans h.nomination
  delivered := k.delivered.trans h.delivered
  endKind := k.endKind.trans h.endKind
  state := by
    rcases h.state with hs | hs | hs
    · exact .inl hs
    · exact .inr (.inl hs)
    · have hk := k.state
      rw [h.phase] at hk
      exact hk.imp id (Or.imp id fun a => a.trans hs)

theorem MeterRecord.windowLitre_kept (m : MeterRecord) (past : Nat) :
    (m.windowLitre past).record = m.record ∧ (m.windowLitre past).startFlow = m.startFlow := by
  unfold MeterRecord.windowLitre
  split <;> exact ⟨rfl, rfl⟩

/-- R140: what a litre leaves of the record, and where it counts as delivered. -/
theorem MeterRecord.placeLitre_kept (m : MeterRecord) :
    m.placeLitre.startFlow = m.startFlow ∧ m.placeLitre.record.nomination = m.record.nomination
      ∧ m.placeLitre.record.endKind = m.record.endKind ∧ m.placeLitre.record.state = m.record.state
      ∧ m.placeLitre.record.delivered
          = (if m.record.state = .opened ∧ m.record.counting = true ∧ m.record.delivered < 99999999 then
              m.record.delivered + 1 else m.record.delivered) := by
  unfold MeterRecord.placeLitre litreCeiling
  split
  · split <;> simp_all
  · simp_all
  · refine ⟨rfl, rfl, rfl, rfl, ?_⟩
    rw [if_neg]
    rintro ⟨ha, hb, -⟩
    simp_all

/-- R139, R140: a pulse that makes one litre. -/
theorem State.litre_evaluated {s : State} (hpu : s.runningPu = true)
    (h1 : (s.mr.residual + 10) / s.sl.setup.meterK = 1) :
    ∃ t, exec .meterPulse s = .next t
      ∧ PcEvaluated
          (if s.mr.record.state = .opened ∧ s.mr.record.counting = true ∧ s.mr.record.delivered < 99999999 then
            { s with mr := { s.mr with record := { s.mr.record with delivered := s.mr.record.delivered + 1 } } }
           else s) t := by
  obtain ⟨hr, hrole⟩ := s.runningPu_iff.1 hpu
  have hl : s.listening = true := by simp [State.listening, State.running_station hr]
  refine ⟨State.litre { s with mr := s.mr.pulse s.sl.setup.meterK }, ?_, State.puEval_evaluated_like hpu ?_⟩
  · change execMeterPulse s = _
    simp only [execMeterPulse, hrole, hl, Bool.and_self, if_true, h1]
    rfl
  · obtain ⟨w1, w2⟩ := (s.mr.pulse s.sl.setup.meterK).windowLitre_kept (Config.windowOverflow s.draws).val
    obtain ⟨p1, p2, p3, p4, p5⟩ := ((s.mr.pulse s.sl.setup.meterK).windowLitre
      (Config.windowOverflow s.draws).val).placeLitre_kept
    have w3 : (s.mr.pulse s.sl.setup.meterK).record = s.mr.record := rfl
    rw [w1, w3] at p2 p3 p4 p5
    rw [w2] at p1
    by_cases hc : s.mr.record.state = .opened ∧ s.mr.record.counting = true ∧ s.mr.record.delivered < 99999999
    · rw [if_pos hc] at p5 ⊢
      exact ⟨rfl, rfl, rfl, rfl, rfl, p1.symm, rfl, p2.symm, p5.symm, p3.symm, .inr (.inr p4.symm)⟩
    · rw [if_neg hc] at p5 ⊢
      exact ⟨rfl, rfl, rfl, rfl, rfl, p1.symm, rfl, p2.symm, p5.symm, p3.symm, .inr (.inr p4.symm)⟩

/-- R141, R142: a rate window that counted litres. -/
theorem State.window_evaluated {s : State} {flow : Bool} (hpu : s.runningPu = true) (hw : s.mr.window.running = true)
    (hl : 0 < s.mr.windowLitres)
    (hflow : flow = true ↔ s.mr.startFlow = true
      ∨ s.pc.phase = .starting ∧ s.mr.record.maxRate * 10 / 100 ≤ s.mr.windowLitres * 360) :
    ∃ t, exec .rateWindow s = .next t ∧ PcEvaluated { s with mr := { s.mr with startFlow := flow } } t := by
  have hsec : s.mr.secondEmpty s.pc.phase = false := by
    have : (s.mr.windowLitres == 0) = false := by simp; omega
    simp [MeterRecord.secondEmpty, this]
  have hfl : (s.mr.completeWindow s.pc.phase).startFlow = flow := by
    have hj (m : MeterRecord) (p : Phase) (r : Nat) : (m.judgeCap p r).startFlow = m.startFlow := by
      unfold MeterRecord.judgeCap
      repeat' split
      all_goals rfl
    have hc : (s.mr.completeWindow s.pc.phase).startFlow
        = (s.mr.startFlow || (s.pc.phase == .starting
            && decide (s.mr.record.startThreshold ≤ s.mr.windowLitres * 360))) := by
      simp only [MeterRecord.completeWindow, hj]
      split <;> rfl
    rw [hc, Bool.eq_iff_iff, hflow]
    simp only [Bool.or_eq_true, Bool.and_eq_true, beq_iff_eq, decide_eq_true_eq]
    rfl
  obtain ⟨-, -, hrec⟩ := s.mr.completeWindow_kept s.pc.phase
  have hk : Keeps [.pump] { s with mr := s.mr.completeWindow s.pc.phase }
      (State.followCap { s with mr := s.mr.completeWindow s.pc.phase }) := State.followCap_keeps _
  have hpump : (State.followCap { s with mr := s.mr.completeWindow s.pc.phase }).vp.pump = s.vp.pump := by
    unfold State.followCap
    split <;> rfl
  have hfollow : SameForPc (State.followCap { s with mr := s.mr.completeWindow s.pc.phase })
      { s with mr := { s.mr with startFlow := flow } } := by
    obtain ⟨k1, k2, -⟩ := hk.part .phase (by decide)
    have k3 := (hk.part .meter (by decide)).2.2.2.1
    have k4 : _ = s.sr := hk.part .roster (by decide)
    have k5 : _ = s.sl := hk.part .setup (by decide)
    have k6 : _ = (s.mr.completeWindow s.pc.phase).record := hk.part .record (by decide)
    rw [hrec] at k6
    exact ⟨k1.symm, k2.symm, (hk.part .generation (by decide)).symm, by rw [k4], hpump.symm, (k3.trans hfl).symm,
      by rw [k5], by rw [k6], by rw [k6], by rw [k6], .inr (.inr (by rw [k6]))⟩
  refine ⟨(State.followCap { s with mr := s.mr.completeWindow s.pc.phase }).watch.puEval, ?_,
    State.puEval_evaluated_like ?_ ((State.watch_evaluatedLike _).trans hfollow)⟩
  · change execRateWindow s = _
    simp only [execRateWindow, hw, if_true, hsec, State.handNoFlow]
    rfl
  · exact ((State.watch_keeps _).runningPu (by decide)).trans ((hk.runningPu (by decide)).trans hpu)

/-- R95: PUMP_FB on in STARTING. -/
theorem State.feedback_evaluated {s : State} (hpu : s.runningPu = true) (hfb : s.inputs.pumpFb = false)
    (hp : s.vp.pump = .starting) :
    ∃ t, exec (.pumpFbChange true) s = .next t ∧ PcEvaluated { s with vp := { s.vp with pump := .running } } t := by
  obtain ⟨hr, hrole⟩ := s.runningPu_iff.1 hpu
  have hl : s.listening = true := by simp [State.listening, State.running_station hr]
  let u : State := { s with
    inputs := { s.inputs with pumpFb := true }, vp := { s.vp with pump := .running, feedback := .stopped } }
  have hu : Keeps [.frames] u (u.askStatusIf (s.vp.pump != .running)) := State.askStatusIf_keeps _ _
  have hrec : _ = s.mr.record := hu.part .record (by decide)
  have hlike : SameForPc u { s with vp := { s.vp with pump := .running } } :=
    ⟨rfl, rfl, rfl, rfl, rfl, rfl, rfl, rfl, rfl, rfl, .inr (.inr rfl)⟩
  refine ⟨(u.askStatusIf (s.vp.pump != .running)).watch.puEval, ?_, State.puEval_evaluated_like ?_
    (((State.watch_evaluatedLike _).trans (hu.evaluatedLike (by decide) (by rw [hrec]) (by rw [hrec])
      (by rw [hrec]) (.inr (.inr (by rw [hrec]))))).trans hlike)⟩
  · change execPumpFbChange true s = _
    simp only [execPumpFbChange, hfb, hrole, hl, State.feedbackOn, State.putPump, hp, if_false, Bool.and_self, if_true, reduceCtorEq]
    rfl
  · exact ((State.watch_keeps _).runningPu (by decide)).trans ((hu.runningPu (by decide)).trans hpu)

/-- R96, R149: the pump proved stopped. -/
theorem State.proveStop_like {s : State} (hr : s.running = true) (h : s.pumpProved = true) :
    SameForPc s.proveStop { s with vp := { s.vp with pump := .stopped } } ∧ s.proveStop.runningPu = s.runningPu := by
  have hk1 : Keeps [.frames] { s with vp := s.vp.proved } (s.putPump s.vp.proved) := State.askStatusIf_keeps _ _
  have hlike : SameForPc { s with vp := s.vp.proved } { s with vp := { s.vp with pump := .stopped } } :=
    ⟨rfl, rfl, rfl, rfl, rfl, rfl, rfl, rfl, rfl, rfl, .inr (.inr rfl)⟩
  have hr1 : (s.putPump s.vp.proved).mr.record = s.mr.record := hk1.part .record (by decide)
  refine ⟨?_, s.proveStop_keeps.runningPu (by decide)⟩
  unfold State.proveStop
  rw [if_pos h]
  split
  · rename_i hp
    have hk : Keeps endParts { s with vp := s.vp.proved } (s.putPump s.vp.proved).setExternalEnd :=
      (hk1.mono (by decide)).trans (State.setExternalEnd_keeps _)
    have he := (s.putPump s.vp.proved).setExternalEnd_ends.1
    rw [hr1] at he
    refine (hk.evaluatedLike (by decide) he.nomination he.delivered he.endKind ?_).trans hlike
    simp only [hr, Bool.true_and, Bool.or_eq_true, beq_iff_eq] at hp
    rcases hp with hp | hp
    · exact .inl hp
    · exact .inr (.inl (by rw [show _ = Phase.tripped from hp]; rfl))
  · exact (hk1.evaluatedLike (by decide) (by rw [hr1]) (by rw [hr1]) (by rw [hr1]) (.inr (.inr (by rw [hr1])))).trans hlike

/-- R96: what proves the pump STOPPED. -/
theorem State.pumpProved_of {s : State} {v : Nat} (hrole : s.hasRole .pu = true) (hp : s.vp.pump = .stopping)
    (hfb : s.inputs.pumpFb = false) (hval : s.pressure = some v) (hs : v < s.hw.settleLevel) : s.pumpProved = true := by
  simp [State.pumpProved, State.settleFact, hrole, hp, hfb, hval, hs]

/-- R96: PUMP_FB off in STOPPING with the pressure settled. -/
theorem State.stopProved_evaluated {s : State} {p : Nat} (hpu : s.runningPu = true) (hfb : s.inputs.pumpFb = true)
    (hp : s.vp.pump = .stopping) (hv : s.pressure = some p) (hs : p < s.hw.settleLevel) :
    ∃ t, exec (.pumpFbChange false) s = .next t ∧ PcEvaluated { s with vp := { s.vp with pump := .stopped } } t := by
  obtain ⟨hr, hrole⟩ := s.runningPu_iff.1 hpu
  have hl : s.listening = true := by simp [State.listening, State.running_station hr]
  let u : State := { s with inputs := { s.inputs with pumpFb := false } }
  have hproved : u.pumpProved = true :=
    State.pumpProved_of hrole hp rfl hv hs
  obtain ⟨hlike, hrun⟩ := State.proveStop_like (s := u) hr hproved
  refine ⟨u.proveStop.watch.puEval, ?_, State.puEval_evaluated_like ?_ (((State.watch_evaluatedLike _).trans hlike).trans
    ⟨rfl, rfl, rfl, rfl, rfl, rfl, rfl, rfl, rfl, rfl, .inr (.inr rfl)⟩)⟩
  · change execPumpFbChange false s = _
    simp only [execPumpFbChange, hfb, hrole, hl, State.feedbackOff, hp, Bool.false_eq_true, if_false, Bool.and_self, if_true, reduceCtorEq]
    rfl
  · exact ((State.watch_keeps _).runningPu (by decide)).trans (hrun.trans hpu)

/-- R101: the set of readings goes on to the channel after `n`. -/
def State.advanceScan (s : State) (n : Ch) : State :=
  { s with hw := s.hw.advance n (s.running && s.pc.phase.active) }

theorem State.advanceScan_keeps (s : State) (n : Ch) : Keeps [.scan] s (s.advanceScan n) := by
  unfold State.advanceScan HoseWatch.advance
  cases s.hw.channelAfter n with
  | some m => exact s.putHose_keeps _ s.hw.setTimer
  | none =>
    cases s.running && s.pc.phase.active with
    | true => exact s.startSet_keeps
    | false => exact s.putHose_keeps _ s.hw.setTimer

theorem State.completeReading_value {s : State} {n : Ch} {raw v : Nat} {c : ScanChannel}
    (h : (s.hw.chans.get n).read raw (s.hasRole .tw) = (c, .value v)) :
    s.completeReading n raw
      = (State.handOn { s with hw := { s.hw with chans := s.hw.chans.set n c } } n (.value v)).watch.puEval.advanceScan n := by
  simp only [State.completeReading, h, State.advanceScan]

/-- R105, R106: a reading of the pressure up to the hard limit is one of the leak watch and of the stop proof. -/
theorem State.handOn_soft {s : State} {n : Ch} {v : Nat} (hp : s.pressureRole = true) (hv : v ≤ s.hw.hardLimit) :
    s.handOn n (.value v) = (State.watchLeak { s with hw := s.hw.takePressure v }).proveStop := by
  have hcount : (s.hw.takePressure v).hardCount = 0 := by
    have : ¬ s.hw.hardLimit < v := by omega
    simp [HoseWatch.takePressure, HoseWatch.hardAfter, this]
  have hhard (t : State) (h : t.hw.hardCount = 0) : t.handHardLimit = t := by simp [State.handHardLimit, h]
  simp only [State.handOn, State.handReading, hp, if_true, State.pressureReading]
  rw [hhard _ hcount]

/-- R96: a reading below the settle level, with PUMP_FB off, proves a STOPPING pump STOPPED. -/
theorem State.leak_proved {s : State} {v : Nat} (hrole : s.hasRole .pu = true) (hp : s.vp.pump = .stopping)
    (hfb : s.inputs.pumpFb = false) (hfault : s.hw.chans.n1.fault = false) (hval : s.hw.chans.n1.value = some v)
    (hs : v < s.hw.settleLevel) : (State.watchLeak { s with hw := s.hw.takePressure v }).pumpProved = true := by
  have h1 : (State.watchLeak { s with hw := s.hw.takePressure v }).hasRole .pu = true := hrole
  have h2 : (State.watchLeak { s with hw := s.hw.takePressure v }).pressure = some v := by
    simp [State.pressure, ScanChannel.valid, State.watchLeak, HoseWatch.takePressure, hfault, hval]
  exact State.pumpProved_of h1 hp hfb h2 hs

/-- R105: a good reading of AN1 below the hard limit at PU is a reading of the pressure watch and the stop proof. -/
theorem State.reading_evaluated {s : State} {raw : BitVec 12} {v : Nat} (hpu : s.runningPu = true)
    (hslot : s.hw.slot = some .n1) (hfault : s.hw.chans.n1.fault = false) (h1 : 40 < raw.toNat) (h2 : raw.toNat < 4055)
    (hv : v = raw.toNat * s.hw.chans.n1.span / 4095) (hh : v ≤ s.hw.hardLimit) (hp : s.vp.pump = .stopping)
    (hfb : s.inputs.pumpFb = false) (hs : v < s.hw.settleLevel) :
    ∃ t, exec (.scanReading raw) s = .next t ∧ PcEvaluated { s with vp := { s.vp with pump := .stopped } } t := by
  obtain ⟨hr, hrole⟩ := s.runningPu_iff.1 hpu
  have hl : s.listening = true := by simp [State.listening, State.running_station hr]
  have hpress : s.pressureRole = true := by
    rw [State.hasRole_iff] at hrole
    simp [State.pressureRole, hrole, Role.pressure]
  obtain ⟨c, hread, hcf, hcv⟩ : ∃ c : ScanChannel, (s.hw.chans.get .n1).read raw.toNat (s.hasRole .tw) = (c, .value v)
      ∧ c.fault = false ∧ c.value = some v := by
    have hb : badReading raw.toNat = false := by
      simp only [badReading, Bool.or_eq_false_iff, decide_eq_false_iff_not]
      omega
    simp [Quad.get, ScanChannel.read, hfault, hb, State.hasRole_tw_pu hrole, engineering, hv]
  obtain ⟨w, hw⟩ : ∃ w : State, w = { s with hw := { s.hw with chans := s.hw.chans.set .n1 c } } := ⟨_, rfl⟩
  have hproved : (State.watchLeak { w with hw := w.hw.takePressure v }).pumpProved = true := by
    subst hw
    exact State.leak_proved hrole hp hfb hcf hcv hs
  have hon : w.handOn .n1 (.value v) = (State.watchLeak { w with hw := w.hw.takePressure v }).proveStop := by
    subst hw
    exact State.handOn_soft hpress hh
  obtain ⟨hlike, hrun⟩ := State.proveStop_like (by subst hw; exact hr) hproved
  rw [← hon] at hlike hrun
  have hsame : SameForPc { State.watchLeak { w with hw := w.hw.takePressure v } with vp := { w.vp with pump := .stopped } }
      { s with vp := { s.vp with pump := .stopped } } := by
    subst hw
    exact ⟨rfl, rfl, rfl, rfl, rfl, rfl, rfl, rfl, rfl, rfl, .inr (.inr rfl)⟩
  have hrun' : (w.handOn .n1 (.value v)).watch.runningPu = true := by
    refine ((State.watch_keeps _).runningPu (by decide)).trans (hrun.trans ?_)
    subst hw
    exact hpu
  refine ⟨(w.handOn .n1 (.value v)).watch.puEval.advanceScan .n1, ?_,
    (State.puEval_evaluated hrun').congr (((State.watch_evaluatedLike _).trans hlike).trans hsame)
      ((State.advanceScan_keeps _ _).mono (by decide))⟩
  change execScanReading raw s = _
  simp only [execScanReading, hl, hslot, State.completeReading_value hread, hw]

end Sys2Proof.Machine

open Sys2Proof Sys2Proof.Machine

/-- Settles O29: each event leads to PC's evaluation of a state that agrees with the one named in all that PC reads. -/
theorem automaticSteps : Obligations.AutomaticSteps :=
  ⟨fun _ _ _ _ h1 h2 h3 h4 h5 h6 => State.status_evaluated h1 h2 h3 h4 h5 h6,
    fun _ _ _ h1 h2 h3 h4 h5 h6 => State.silence_evaluated h1 h2 h3 h4 h5 h6,
    fun _ h1 h2 => State.litre_evaluated h1 h2, fun _ _ h1 h2 h3 h4 => State.window_evaluated h1 h2 h3 h4,
    fun _ h1 h2 h3 => State.feedback_evaluated h1 h2 h3, fun _ _ h1 h2 h3 h4 h5 => State.stopProved_evaluated h1 h2 h3 h4 h5,
    fun _ _ _ h1 h2 h3 h4 h5 h6 h7 h8 h9 h10 => State.reading_evaluated h1 h2 h3 h4 h5 h6 h7 h8 h9 h10⟩
end

section
/-! SUPPORT and the proof of O31: the requests taken at PU (R6, R57). -/

namespace Sys2Proof.Machine

/-! ## Phase changes that the automatic steps of PU do not take -/

/-- R25: IDLE entry at PU clears the record. -/
theorem State.changePhase_idle {s : State} (n r : Nat) (h : s.hasRole .pu = true) :
    (s.changePhase .idle n r).mr.record = Record.empty := by
  have hk := s.changePhase_from .idle n r
  rw [State.entryActions_idle (s.left_phase _), if_neg (by simp [s.left_hasRole, State.hasRole_tw_pu h])] at hk
  exact hk.part .record (by decide)

/-- R146: OPENING entry at PU starts the counting of an OPEN record. -/
theorem State.changePhase_opening {s : State} (n r : Nat) (h : s.hasRole .pu = true) (ho : s.mr.record.state = .opened) :
    (s.changePhase .opening n r).mr.record = { s.mr.record with counting := true } := by
  have hk := s.changePhase_from .opening n r
  rw [State.entryActions_opening (s.left_phase _), if_pos ((s.left_hasRole _ _).trans h), State.startCounting,
    if_pos ((State.recordOpen_iff _).2 (by rw [s.left_record]; exact ho))] at hk
  have he : (s.changePhase .opening n r).mr.record = { (s.left .opening).mr.record with counting := true } :=
    hk.part .record (by decide)
  rw [he, s.left_record]

/-- The parts that the step from IDLE to LINEUP touches. -/
def lineupParts : List Part := watchParts ++ [.phase, .meter, .record, .tanks]

/-- R15, R146: from IDLE, LINEUP entry leaves the channels and the pressure watch alone, and opens the record. -/
theorem State.changePhase_lineup {s : State} (n r : Nat) (h : s.pc.phase = .idle) :
    Keeps lineupParts s (s.changePhase .lineup n r)
      ∧ (s.changePhase .lineup n r).mr.record = { Record.empty with
          state := .opened, transfer := s.pc.transfer, nomination := n, maxRate := r }
      ∧ (s.changePhase .lineup n r).mr.cap = false ∧ (s.changePhase .lineup n r).mr.belowCount = 0 := by
  have hl : s.left .lineup
      = State.endClaim { s.setPhase .lineup with mr := s.mr.changePhase .idle .lineup } := by
    simp only [State.left, State.leavePhase, h]
    rfl
  have hm : Keeps lineupParts (s.setPhase .lineup) { s.setPhase .lineup with mr := s.mr.changePhase .idle .lineup } :=
    (State.putMeter_keeps _ _ ⟨rfl, rfl⟩).mono (by decide)
  have hk : Keeps lineupParts s (s.left .lineup) :=
    hl ▸ (((s.setPhase_keeps .lineup).mono (by decide)).trans hm).trans ((State.endClaim_keeps _).mono (by decide))
  have ht : (s.left .lineup).pc.transfer = s.pc.transfer := hk.part .transfer (by decide)
  have he := s.changePhase_from .lineup n r
  rw [State.entryActions_lineup (s.left_phase _)] at he
  obtain ⟨-, -, -, -, -, -, hcap, hbelow⟩ := he.part .meter (by decide)
  have hrec : (s.changePhase .lineup n r).mr.record = { Record.empty with
      state := .opened, transfer := (s.left .lineup).pc.transfer, nomination := n, maxRate := r } :=
    he.part .record (by decide)
  exact ⟨(hk.trans ((State.openRecord_keeps _ n r).mono (by decide))).trans (he.mono (by decide)), ht ▸ hrec, hcap, hbelow⟩

/-- What follows the entry at PU into a phase that is not active: the levels alone. -/
theorem State.react_pu_inactive {s : State} {old : Phase} (h : s.hasRole .pu = true) (ho : s.pc.order = none)
    (ha : s.pc.phase.active = false) : Keeps watchParts s (s.react old) := by
  have hp : s.pc.phase ≠ .opening := fun hp => by simp [hp, Phase.active] at ha
  have hk : Keeps watchParts s (s.settled old) := by
    unfold State.settled State.scanAtPhase
    rw [if_neg (by simp [ha]), State.followAll_pu h]
    exact s.watch_keeps
  rw [State.react_calm (fun hq => absurd hq hp) (fun hq => absurd hq hp) (fun _ hb => absurd hb (by simp [ha])),
    State.runOrder_notDue (State.orderDue_none ((hk.part .phase (by decide)).2.2.trans ho)),
    State.separate_off (by rw [hk.valveRole (by decide), State.valveRole_pu h]; rfl)]
  exact hk.trans (State.watch_keeps _)

/-- R68: after a phase change that leaves nothing latched, no latched cause is active. -/
theorem State.watch_cause_nil {s : State} (h : s.tu.latched = []) : s.watch.tu.cause = false := by
  have hl : s.watchTimers.tu.latched = [] := ((s.watchTimers_keeps).part .tripRecord (by decide)).2.1.trans h
  have hc : s.watch.tu.cause = s.watchTimers.watchFlags.causeFlag := by
    simp [State.watch, State.watchCause, State.watchAlarms, State.sweepAlarms]
  have hf : s.watchTimers.watchFlags.tu.latched = [] :=
    ((State.watchFlags_keeps _).part .tripRecord (by decide)).2.1.trans hl
  rw [hc, State.causeFlag, hf]
  rfl

theorem State.react_cause_nil {s : State} {old : Phase} (h : (s.react old).tu.latched = []) :
    (s.react old).tu.cause = false :=
  State.watch_cause_nil ((((State.watch_keeps _).part .tripRecord (by decide)).2.1).symm.trans h)

/-- R71: the state in which the clearing of the trip record is announced. -/
def State.cleared (s : State) : State :=
  { s with
    tu := { s.tu with firstOut := none, latched := [], cause := false, named := .fill false }
    lc := s.lc.withdraw .trip }

theorem State.clearTripRecord_onward (s : State) : Onward s.cleared s.clearTripRecord :=
  (State.askStatusIf_onward _ _).trans (State.emit_onward _ _)

/-- R71: clearing the trip record withdraws the TRIP. -/
theorem State.clearTripRecord_trip (s : State) : s.clearTripRecord.lc.trip = none :=
  s.clearTripRecord_onward.trip.resolve_right fun h => h.2 s.clearTripRecord_cleared.2.1

theorem State.clearTripRecord_queue {s : State} (h : s.pp.queue.length ≤ 8) : s.clearTripRecord.pp.queue.length ≤ 8 :=
  s.clearTripRecord_onward.queue h

/-! ## A request decided at PU -/

/-- R57: the command of a request that is taken at PU: its effects, then the report. -/
theorem exec_request_taken {s : State} {k : ReqKind} {q r : Nat} (hl : s.lineFits = true) (hpu : s.runningPu = true)
    (hj : s.judgeRequest (some k) q r = (.taken, .none)) (hq : q ≤ 4294967295) (hr : r ≤ 4294967295)
    (h0 : k = .nominate ∨ (q = 0 ∧ r = 0)) :
    exec (k.command q r) s
      = .next ((s.takeRequest k q r).puEval.report (.answer (some (.request k)) none (.decided .taken) .none)) := by
  obtain ⟨hrun, hrole⟩ := s.runningPu_iff.1 hpu
  have hline : s.handleLine (fun u => u.requestLine k q r)
      = (s.takeRequest k q r).puEval.report (.answer (some (.request k)) none (.decided .taken) .none) := by
    simp [State.handleLine, hl, State.requestLine, hrun, hrole, State.requestHere, State.carryOut, hj, State.answer]
  rw [← hline]
  cases k with
  | nominate =>
    change execNominate q r s = _
    simp [execNominate, State.lineNominate, panelNumberOk, hq, hr]
  | start | pause | resume | stop | reset | endack =>
    obtain ⟨rfl, rfl⟩ := h0.resolve_left nofun
    rfl

/-- R53, R57: what the report of a taken request leaves: the report, and a state that is as the request left it. -/
theorem State.report_taken {s v : State} {k : ReqKind} {T : List Part} (hl : s.lineFits = true)
    (hq : v.pp.queue.length ≤ 8) (hk : Keeps T s v) (hT : Part.reports ∈ T) :
    NewestReport (v.report (.answer (some (.request k)) none (.decided .taken) .none))
        (.answer (some (.request k)) none (.decided .taken) .none)
      ∧ Frame T s (v.report (.answer (some (.request k)) none (.decided .taken) .none)) :=
  ⟨(State.report_newest _ (fun _ h => by cases h) hl hk.events hq).1,
    hk.frame.trans ((v.report_frame _).mono fun p hp => by rw [List.mem_singleton.1 hp]; exact hT)⟩

/-- R10: a step in hand at PU that some peer does not show yet waits. -/
theorem State.puEval_waits {s v : State} {p : Phase} {e : Entry} (hsr : v.sr = s.sr)
    (hi : v.pc.inHand = some ⟨p, v.pc.gen, ⟨true, 0⟩⟩) (he : e ∈ s.sr.entries) (hg : e.protected' = true)
    (hp : e.presence = .present) (hn : (e.shows v.pc.gen fun st => st.phase == p) = false) : v.puEval = v :=
  State.puEval_unconfirmed (unconfirmed_of_entry hi (hsr ▸ he) hg hp hn)

/-- R15, R57, R146: NOMINATE taken at PU. -/
theorem State.nominate_taken {s : State} {q r : Nat} {e : Entry} (hl : s.lineFits = true) (hq8 : s.pp.queue.length ≤ 8)
    (hpu : s.runningPu = true) (hi : s.pc.inHand = none) (hp : s.pc.phase = .idle) (h1 : 1 ≤ q) (h2 : q ≤ 9999999)
    (h3 : 1000 ≤ r) (h4 : r ≤ 3000000) (he : e ∈ s.sr.entries) (hg : e.protected' = true) (hpr : e.presence = .present)
    (hn : (e.shows s.pc.gen fun st => st.phase == .lineup) = false) :
    ∃ t, exec (.nominate q r) s = .next t ∧ t.pc.phase = .lineup
      ∧ t.pc.inHand = some ⟨.lineup, s.pc.gen, ⟨true, 0⟩⟩
      ∧ t.pc.transfer = (if s.pc.transfer = 255 then 1 else s.pc.transfer + 1)
      ∧ t.mr.record = { Record.empty with state := .opened, transfer := t.pc.transfer, nomination := q, maxRate := r }
      ∧ t.mr.cap = false ∧ t.mr.belowCount = 0 ∧ t.lc.status.isSome = true
      ∧ NewestReport t (.answer (some (.request .nominate)) none (.decided .taken) .none)
      ∧ Frame (watchParts ++ [.phase, .transfer, .meter, .record, .tanks]) s t := by
  obtain ⟨hrun, hrole⟩ := s.runningPu_iff.1 hpu
  have hj : s.judgeRequest (some .nominate) q r = (.taken, .none) := by
    simp [State.judgeRequest, hi, ReqKind.takenIn, hp, nominationOk, h1, h2, h3, h4]
  obtain ⟨u, hu⟩ : ∃ u : State, u = { s with pc := { s.pc with transfer := nextTransfer s.pc.transfer } } := ⟨_, rfl⟩
  have hsu : Keeps [.transfer] s u := hu ▸ s.putTransfer_keeps _
  have hut : u.pc.transfer = nextTransfer s.pc.transfer := by rw [hu]
  have huo : Onward s u := by
    subst hu
    exact Onward.pure rfl rfl rfl rfl rfl
  have htake : s.takeRequest .nominate q r = u.stepTo .lineup q r := by rw [hu]; rfl
  have hur : u.hasRole .pu = true := (hsu.hasRole (by decide) _).trans hrole
  have hup : u.pc.phase = .idle := (hsu.part .phase (by decide)).1.trans hp
  obtain ⟨hk1, hrec, hcap, hbelow⟩ := State.changePhase_lineup q r hup
  obtain ⟨hp1, ho1, -⟩ := u.changePhase_phase .lineup q r
  have hk2 : Keeps watchParts (u.changePhase .lineup q r) (u.stepTo .lineup q r) :=
    State.react_pu_inactive ((hk1.hasRole (by decide) _).trans hur)
      (by rw [ho1, (u.hasRole_iff .pu).1 hur, orderOf_pu]) (by rw [hp1]; rfl)
  obtain ⟨g1, g2, g3⟩ := State.stepTo_pu_hand (p := .lineup) q r ((hsu.running (by decide)).trans hrun) hur nofun
    (fun _ => nofun)
  have hk : Keeps (watchParts ++ [.phase, .transfer, .meter, .record, .tanks]) s (u.stepTo .lineup q r) :=
    ((hsu.mono (by decide)).trans (hk1.mono (by decide))).trans (hk2.mono (by decide))
  have hgen : (u.stepTo .lineup q r).pc.gen = s.pc.gen := hk.part .generation (by decide)
  have hug : u.pc.gen = s.pc.gen := hsu.part .generation (by decide)
  have htr : (u.stepTo .lineup q r).pc.transfer = u.pc.transfer :=
    (hk2.part .transfer (by decide) : _ = _).trans (hk1.part .transfer (by decide))
  have hwait := State.puEval_waits (hk.part .roster (by decide)) (by rw [g2, hug, hgen]) he hg hpr (by rw [hgen]; exact hn)
  have hm := hk2.part .meter (by decide)
  obtain ⟨hnew, hframe⟩ := State.report_taken (k := .nominate) hl ((State.stepTo_onward _ _ _ _).queue (huo.queue hq8)) hk
    (by decide)
  refine ⟨_, exec_request_taken hl hpu hj (by omega) (by omega) (.inl rfl), ?_⟩
  rw [htake, hwait]
  exact ⟨g1, g2.trans (by rw [hug]), htr.trans hut, (hk2.part .record (by decide) : _ = _).trans (by rw [hrec]; exact htr ▸ rfl),
    hm.2.2.2.2.2.2.1.trans hcap, hm.2.2.2.2.2.2.2.trans hbelow, g3, hnew, hframe⟩

/-! ## The steps of the other requests -/

/-- R6, R57: what a taken request other than NOMINATE leads to before its report, as O31 lists it. -/
structure TakenAs (s : State) (k : ReqKind) (p : Phase) (t : State) : Prop where
  keeps : Keeps (cascadeParts ++ [.generation]) s t
  queue : s.pp.queue.length ≤ 8 → t.pp.queue.length ≤ 8
  phase : t.pc.phase = p
  gen : t.pc.gen = if k = .reset then s.pc.gen + 1 else s.pc.gen
  inHand : t.pc.inHand = some ⟨p, t.pc.gen, ⟨true, 0⟩⟩
  status : t.lc.status.isSome = true
  counts : k = .start → s.mr.record.state = .opened → t.mr.record = { s.mr.record with counting := true } := by nofun
  stops : (k = .pause ∨ p = .stopping) → PumpStops s t := by nofun
  operator : p = .stopping → s.mr.record.state = .opened → s.mr.record.endKind = .none →
    t.mr.record.endKind = .operator := by nofun
  starts : k = .resume → EntryAtPu s t .starting := by nofun
  clears : k = .reset → t.tu.firstOut = none ∧ t.tu.latched = [] ∧ t.tu.cause = false ∧ t.lc.trip = none
    ∧ (s.mr.record.state = .opened → t.mr.record.state = .sampled ∧ t.mr.record.sampleKind = .forced
        ∧ t.mr.record.counting = false) := by nofun
  record : k ≠ .reset → t.tu.firstOut = s.tu.firstOut ∧ t.tu.latched = s.tu.latched
  empties : p = .idle → t.mr.record = Record.empty := by nofun

/-- R6, R9: what every step of PU has in common where nothing hands a cause. -/
structure StepsTo (s : State) (p : Phase) (t : State) : Prop where
  keeps : Keeps (watchParts ++ [.scan]) (s.changePhase p 0 0) t
  onward : Onward s t
  phase : t.pc.phase = p
  inHand : t.pc.inHand = some ⟨p, s.pc.gen, ⟨true, 0⟩⟩
  status : t.lc.status.isSome = true

theorem State.stepTo_stepsTo {s : State} {p : Phase} (hpu : s.runningPu = true)
    (hs : p = .opening → s.silentNumbers = [])
    (hf : s.pc.phase.active = false → p.active = true → s.faultChannels = []) : StepsTo s p (s.stepTo p 0 0) := by
  obtain ⟨hrun, hrole⟩ := s.runningPu_iff.1 hpu
  obtain ⟨g1, g2, g3⟩ := State.stepTo_pu_hand 0 0 hrun hrole hs hf
  exact ⟨State.stepTo_pu 0 0 hrole hs hf, State.stepTo_onward _ _ _ _, g1, g2, g3⟩

section
variable {s t : State} {p : Phase}

theorem StepsTo.all (h : StepsTo s p t) : Keeps (phaseParts ++ watchParts ++ [.scan]) s t :=
  ((s.changePhase_keeps p 0 0).mono (by decide)).trans (h.keeps.mono (by decide))

theorem StepsTo.pump (h : StepsTo s p t) : Part.same (s.changePhase p 0 0) t .pump := h.keeps.part .pump (by decide)

theorem StepsTo.record (h : StepsTo s p t) : t.mr.record = (s.changePhase p 0 0).mr.record :=
  h.keeps.part .record (by decide)

theorem StepsTo.gen (h : StepsTo s p t) : t.pc.gen = s.pc.gen := h.all.part .generation (by decide)

theorem StepsTo.tripRecord (h : StepsTo s p t) : t.tu.firstOut = s.tu.firstOut ∧ t.tu.latched = s.tu.latched :=
  have hk := h.all.part .tripRecord (by decide)
  ⟨hk.1, hk.2.1⟩

theorem PumpStops.congr {u v : State} (h : PumpStops s u) (hp : Part.same u v .pump) : PumpStops s v := by
  obtain ⟨p1, p2, p3, p4, p5⟩ := hp
  obtain ⟨h1, h2, h3, h4⟩ := h
  exact ⟨p4.trans h1, p5.trans h2, p2.trans h3, fun hs => ⟨p1.trans (h4 hs).1, p3.trans (h4 hs).2⟩⟩

end

/-- R18, R146: START. -/
theorem State.start_takenAs {s : State} (hpu : s.runningPu = true) (hs : s.someSilent = false)
    (hf : ∀ n : Ch, (s.hw.chans.get n).enabled = true → (s.hw.chans.get n).fault = false) :
    TakenAs s .start .opening (s.stepTo .opening 0 0) := by
  have h : StepsTo s .opening (s.stepTo .opening 0 0) := State.stepTo_stepsTo hpu
    (fun _ => State.silentNumbers_nil (s.someSilent_iff.1 hs)) fun _ _ => State.faultChannels_nil hf
  exact {
    keeps := h.all.mono (by decide)
    queue := h.onward.queue
    phase := h.phase
    gen := h.gen
    inHand := h.inHand.trans (by rw [h.gen])
    status := h.status
    counts := fun _ ho => h.record.trans (State.changePhase_opening 0 0 (s.runningPu_iff.1 hpu).2 ho)
    record := fun _ => h.tripRecord }

/-- PAUSE. -/
theorem State.pause_takenAs {s : State} (hpu : s.runningPu = true) (ha : s.pc.phase.active = true) :
    TakenAs s .pause .paused (s.stepTo .paused 0 0) := by
  have h : StepsTo s .paused (s.stepTo .paused 0 0) := State.stepTo_stepsTo hpu nofun fun hn => absurd ha (by simp [hn])
  exact {
    keeps := h.all.mono (by decide)
    queue := h.onward.queue
    phase := h.phase
    gen := h.gen
    inHand := h.inHand.trans (by rw [h.gen])
    status := h.status
    stops := fun _ => (State.changePhase_paused 0 0 (s.runningPu_iff.1 hpu).2).1.congr h.pump
    record := fun _ => h.tripRecord }

/-- R22: RESUME. -/
theorem State.resume_takenAs {s : State} (hpu : s.runningPu = true) (ha : s.pc.phase.active = true) :
    TakenAs s .resume .starting (s.stepTo .starting 0 0) := by
  have h : StepsTo s .starting (s.stepTo .starting 0 0) := State.stepTo_stepsTo hpu nofun fun hn => absurd ha (by simp [hn])
  exact {
    keeps := h.all.mono (by decide)
    queue := h.onward.queue
    phase := h.phase
    gen := h.gen
    inHand := h.inHand.trans (by rw [h.gen])
    status := h.status
    starts := fun _ => (State.changePhase_starting 0 0 (s.runningPu_iff.1 hpu).2).1.congr h.pump
      (h.keeps.part .meter (by decide))
    record := fun _ => h.tripRecord }

/-- R155: a step to IDLE, by STOP or by ENDACK. -/
theorem State.idle_takenAs {s : State} {k : ReqKind} (hpu : s.runningPu = true) (hk : k = .stop ∨ k = .endack) :
    TakenAs s k .idle (s.stepTo .idle 0 0) := by
  have h : StepsTo s .idle (s.stepTo .idle 0 0) := State.stepTo_stepsTo hpu nofun fun _ => nofun
  have hr : k ≠ .reset := by rintro rfl; simp at hk
  exact {
    keeps := h.all.mono (by decide)
    queue := h.onward.queue
    phase := h.phase
    gen := h.gen.trans (if_neg hr).symm
    inHand := h.inHand.trans (by rw [h.gen])
    status := h.status
    counts := fun hn => by simp [hn] at hk
    stops := fun hn => by
      have hn' : k = .pause := hn.resolve_right nofun
      simp [hn'] at hk
    starts := fun hn => by simp [hn] at hk
    clears := fun hn => absurd hn hr
    record := fun _ => h.tripRecord
    empties := fun _ => h.record.trans (State.changePhase_idle 0 0 (s.runningPu_iff.1 hpu).2) }

/-- STOP from OPENING. -/
theorem State.stopOpening_takenAs {s : State} (hpu : s.runningPu = true) (ha : s.pc.phase.active = true) :
    TakenAs s .stop .closing (s.stepTo .closing 0 0) := by
  have h : StepsTo s .closing (s.stepTo .closing 0 0) := State.stepTo_stepsTo hpu nofun fun hn => absurd ha (by simp [hn])
  exact {
    keeps := h.all.mono (by decide)
    queue := h.onward.queue
    phase := h.phase
    gen := h.gen
    inHand := h.inHand.trans (by rw [h.gen])
    status := h.status
    record := fun _ => h.tripRecord }

/-- R23, R148: STOP with end kind OPERATOR. -/
theorem State.stopping_takenAs {s : State} (hpu : s.runningPu = true) (ha : s.pc.phase.active = true) :
    TakenAs s .stop .stopping ((s.handEndKind .operator).stepTo .stopping 0 0) := by
  have hk := s.handEndKind_keeps .operator
  have ha' : (s.handEndKind .operator).pc.phase.active = true := by rw [(hk.part .phase (by decide)).1]; exact ha
  have hpu' := (hk.runningPu (by decide)).trans hpu
  have h : StepsTo (s.handEndKind .operator) .stopping ((s.handEndKind .operator).stepTo .stopping 0 0) :=
    State.stepTo_stepsTo hpu' nofun fun hn => absurd ha' (by simp [hn])
  obtain ⟨hstop, hends⟩ := State.changePhase_stopping 0 0 ((s.handEndKind .operator).runningPu_iff.1 hpu').2
  have hvp : (s.handEndKind .operator).vp.pump = s.vp.pump := (hk.part .pump (by decide)).1
  have hgen : (s.handEndKind .operator).pc.gen = s.pc.gen := hk.part .generation (by decide)
  have htrip := hk.part .tripRecord (by decide)
  obtain ⟨p1, p2, p3, p4⟩ := hstop.congr h.pump
  exact {
    keeps := (hk.mono (by decide)).trans (h.all.mono (by decide))
    queue := fun hq => h.onward.queue ((s.handEndKind_onward _).queue hq)
    phase := h.phase
    gen := h.gen.trans hgen
    inHand := h.inHand.trans (by rw [h.gen])
    status := h.status
    stops := fun _ => ⟨p1, p2, p3, hvp ▸ p4⟩
    operator := fun _ ho hn => by
      rw [h.record, hends.endKind, s.handEndKind_record, if_pos ⟨ho, hn⟩]
    record := fun _ => ⟨h.tripRecord.1.trans htrip.1, h.tripRecord.2.trans htrip.2.1⟩ }

/-- R71, R73, R152: RESET. -/
theorem State.reset_takenAs {s : State} (hpu : s.runningPu = true) :
    TakenAs s .reset .ended (s.takeRequest .reset 0 0) := by
  have hk : Keeps [.generation, .tripRecord, .flags, .frames, .reports] s (s.adoptGen (s.pc.gen + 1)).clearTripRecord :=
    ((s.adoptGen_keeps _).mono (by decide)).trans ((State.clearTripRecord_keeps _).mono (by decide))
  obtain ⟨c1, c2, -⟩ := (s.adoptGen (s.pc.gen + 1)).clearTripRecord_cleared
  have ctrip := (s.adoptGen (s.pc.gen + 1)).clearTripRecord_trip
  have cgen : (s.adoptGen (s.pc.gen + 1)).clearTripRecord.pc.gen = s.pc.gen + 1 := by
    refine ((State.clearTripRecord_keeps _).part .generation (by decide) : _ = _).trans ?_
    exact (State.askStatus_keeps _).part .generation (by decide)
  have cq : s.pp.queue.length ≤ 8 → (s.adoptGen (s.pc.gen + 1)).clearTripRecord.pp.queue.length ≤ 8 :=
    fun hq => State.clearTripRecord_queue ((s.adoptGen_onward _).queue hq)
  change TakenAs s .reset .ended ((s.adoptGen (s.pc.gen + 1)).clearTripRecord.stepTo .ended 0 0)
  generalize (s.adoptGen (s.pc.gen + 1)).clearTripRecord = u at *
  have h : StepsTo u .ended (u.stepTo .ended 0 0) := State.stepTo_stepsTo ((hk.runningPu (by decide)).trans hpu) nofun
    fun _ => nofun
  have hlatched := h.tripRecord.2.trans c2
  have hrec : u.mr.record = s.mr.record := hk.part .record (by decide)
  exact {
    keeps := (hk.mono (by decide)).trans (h.all.mono (by decide))
    queue := fun hq => h.onward.queue (cq hq)
    phase := h.phase
    gen := h.gen.trans cgen
    inHand := h.inHand.trans (by rw [h.gen])
    status := h.status
    clears := fun _ => ⟨h.tripRecord.1.trans c1, hlatched, State.react_cause_nil hlatched,
      (h.onward.trip.resolve_right fun hn => hn.2 hlatched).trans ctrip, fun ho => by
        rw [h.record]
        exact State.changePhase_ended_sampled 0 0 (by rw [hrec]; exact ho)⟩
    record := fun hn => absurd rfl hn }

/-! ## The table of the requests -/

/-- The rows of R47 and R6 for the requests other than NOMINATE: kind, old phase, new phase. -/
def requestTable : List (ReqKind × Phase × Phase) :=
  [(.start, .lineup, .opening), (.pause, .pumping, .paused), (.pause, .topping, .paused), (.resume, .paused, .starting),
    (.stop, .lineup, .idle), (.stop, .opening, .closing), (.stop, .starting, .stopping), (.stop, .pumping, .stopping),
    (.stop, .topping, .stopping), (.stop, .paused, .stopping), (.reset, .tripped, .ended), (.endack, .ended, .idle)]

/-- What the decision of each kind asks for beside the phase (R55, R72). -/
structure RequestReady (s : State) (k : ReqKind) : Prop where
  start : k = .start → s.lineupReadySet = true ∧ s.pc.ready = true ∧ s.someSilent = false
    ∧ ∀ n : Ch, (s.hw.chans.get n).enabled = true → (s.hw.chans.get n).fault = false
  resume : k = .resume → s.vp.pump = .stopped
  reset : k = .reset → (∀ l ∈ s.tu.latched, s.causeActive l.cause = false) ∧ s.vp.pump = .stopped
    ∧ s.peersResettable = true

theorem State.firstActiveCause_none {s : State} (h : ∀ l ∈ s.tu.latched, s.causeActive l.cause = false) :
    s.firstActiveCause = none := by
  simp only [State.firstActiveCause, List.find?_eq_none, Bool.and_eq_true, List.any_eq_true, beq_iff_eq, not_and,
    forall_exists_index, and_imp]
  rintro c - l hl rfl
  simp [h l hl]

/-- R54, R55, R72: a request whose row and conditions hold is taken. -/
theorem State.judgeRequest_taken {s : State} {k : ReqKind} {p : Phase} (hi : s.pc.inHand = none)
    (hrow : (k, s.pc.phase, p) ∈ requestTable) (hc : RequestReady s k) :
    s.judgeRequest (some k) 0 0 = (.taken, .none) := by
  have hin : k ≠ .nominate ∧ k.takenIn s.pc.phase = true := by
    simp only [requestTable, List.mem_cons, List.not_mem_nil, Prod.mk.injEq, or_false] at hrow
    rcases hrow with h | h | h | h | h | h | h | h | h | h | h | h <;> simp [h, ReqKind.takenIn]
  obtain ⟨hn, hin⟩ := hin
  cases k with
  | nominate => exact absurd rfl hn
  | start =>
    obtain ⟨h1, h2, -⟩ := hc.start rfl
    simp [State.judgeRequest, hi, hin, State.startCheck, h1, h2]
  | resume => simp [State.judgeRequest, hi, hin, hc.resume rfl]
  | reset =>
    obtain ⟨h1, h2, h3⟩ := hc.reset rfl
    simp [State.judgeRequest, hi, hin, State.resetCheck, State.firstActiveCause_none h1, h2, h3]
  | pause | stop | endack => simp [State.judgeRequest, hi, hin]

/-- R6: the step of each row. -/
theorem State.request_takenAs {s : State} {k : ReqKind} {p : Phase} (hpu : s.runningPu = true)
    (hrow : (k, s.pc.phase, p) ∈ requestTable) (hc : RequestReady s k) : TakenAs s k p (s.takeRequest k 0 0) := by
  simp only [requestTable, List.mem_cons, List.not_mem_nil, Prod.mk.injEq, or_false] at hrow
  have hstop (h : s.pc.phase.active = true) (ho : s.pc.phase ≠ .opening) :
      TakenAs s .stop .stopping (s.takeRequest .stop 0 0) := by
    have hl : s.pc.phase ≠ .lineup := fun hl => by simp [hl, Phase.active] at h
    rw [State.takeRequest, if_neg hl, if_neg ho]
    exact State.stopping_takenAs hpu h
  rcases hrow with ⟨rfl, hp, rfl⟩ | ⟨rfl, hp, rfl⟩ | ⟨rfl, hp, rfl⟩ | ⟨rfl, hp, rfl⟩ | ⟨rfl, hp, rfl⟩ | ⟨rfl, hp, rfl⟩
    | ⟨rfl, hp, rfl⟩ | ⟨rfl, hp, rfl⟩ | ⟨rfl, hp, rfl⟩ | ⟨rfl, hp, rfl⟩ | ⟨rfl, hp, rfl⟩ | ⟨rfl, hp, rfl⟩
  · obtain ⟨-, -, h1, h2⟩ := hc.start rfl
    exact State.start_takenAs hpu h1 h2
  · exact State.pause_takenAs hpu (by rw [hp]; rfl)
  · exact State.pause_takenAs hpu (by rw [hp]; rfl)
  · exact State.resume_takenAs hpu (by rw [hp]; rfl)
  · rw [State.takeRequest, if_pos hp]
    exact State.idle_takenAs hpu (.inl rfl)
  · rw [State.takeRequest, if_neg (by simp [hp]), if_pos hp]
    exact State.stopOpening_takenAs hpu (by rw [hp]; rfl)
  · exact hstop (by rw [hp]; rfl) (by simp [hp])
  · exact hstop (by rw [hp]; rfl) (by simp [hp])
  · exact hstop (by rw [hp]; rfl) (by simp [hp])
  · exact hstop (by rw [hp]; rfl) (by simp [hp])
  · exact State.reset_takenAs hpu
  · exact State.idle_takenAs hpu (.inr rfl)

end Sys2Proof.Machine

open Sys2Proof Sys2Proof.Machine

/-- Settles O31: the decision is TAKEN, the step of the row is put in hand and waits for the peer, and the report comes
last. -/
theorem requestsTaken : Obligations.RequestsTaken := by
  refine ⟨fun s q r e hl hq hpu hi hp h1 h2 h3 h4 he hg hpr hn =>
    State.nominate_taken hl hq hpu hi hp h1 h2 h3 h4 he hg hpr hn, ?_⟩
  intro s k p e hl hq hpu hi hrow hstart hresume hreset he hg hpr hn
  have hc : RequestReady s k := ⟨hstart, hresume, hreset⟩
  have h := State.request_takenAs hpu hrow hc
  have hwait := State.puEval_waits (h.keeps.part .roster (by decide)) h.inHand he hg hpr (by rw [h.gen]; exact hn)
  obtain ⟨hnew, hframe⟩ := State.report_taken (k := k) hl (h.queue hq) h.keeps (by decide)
  have hx := exec_request_taken hl hpu (State.judgeRequest_taken hi hrow hc) (by omega) (by omega) (.inr ⟨rfl, rfl⟩)
  rw [hwait] at hx
  refine ⟨_, hx, h.phase, h.gen, h.inHand, h.status, hnew, h.counts, fun hs => ?_, h.operator, fun hk => ?_, h.clears,
    h.record, h.empties, hframe⟩
  · obtain ⟨p1, p2, -, p4⟩ := h.stops hs
    exact ⟨p1, p2, p4⟩
  · obtain ⟨p1, p2⟩ := h.starts hk
    obtain ⟨q1, q2, q3, q4⟩ := p1 (hresume hk)
    exact ⟨q1, q2, q3, q4, p2⟩
end

section
/-! SUPPORT. What follows at a follower where no cause is handed (R12, R18, R29), and PU's STATUS heard there. -/

namespace Sys2Proof.Machine

/-! ## An operation in which nothing trips -/

/-- What an operation that hands no cause does: it touches some parts, and where the phase is one of them it drops the
standing order and no more. -/
structure Calm (T : List Part) (s t : State) : Prop where
  keeps : Keeps T s t
  phase : t.pc.phase = s.pc.phase
  inHand : t.pc.inHand = s.pc.inHand
  onward : Onward s t

theorem Calm.refl (T : List Part) (s : State) : Calm T s s := ⟨.refl T s, rfl, rfl, .refl s⟩

theorem Calm.trans {T : List Part} {s t u : State} (h : Calm T s t) (k : Calm T t u) : Calm T s u :=
  ⟨h.keeps.trans k.keeps, k.phase.trans h.phase, k.inHand.trans h.inHand, h.onward.trans k.onward⟩

theorem Calm.mono {T U : List Part} {s t : State} (h : Calm T s t) (hTU : ∀ p ∈ T, p ∈ U) : Calm U s t :=
  ⟨h.keeps.mono hTU, h.phase, h.inHand, h.onward⟩

theorem Calm.of_keeps {T : List Part} {s t : State} (h : Keeps T s t) (ho : Onward s t)
    (hT : decide (Part.phase ∉ T) = true) : Calm T s t :=
  ⟨h, (h.part .phase hT).1, (h.part .phase hT).2.1, ho⟩

theorem Calm.tripRecord {T : List Part} {s t : State} (h : Calm T s t) (hT : decide (Part.tripRecord ∉ T) = true) :
    t.tu.firstOut = s.tu.firstOut ∧ t.tu.latched = s.tu.latched :=
  have hk := h.keeps.part .tripRecord hT
  ⟨hk.1, hk.2.1⟩

theorem State.watch_calm (s : State) : Calm watchParts s s.watch := .of_keeps s.watch_keeps s.watch_onward (by decide)

/-! ## The standing order -/

/-- What a standing order's condition reads. -/
theorem Keeps.orderDue {T : List Part} {s t : State} (h : Keeps T s t)
    (hT : decide (Part.phase ∉ T ∧ Part.setup ∉ T ∧ Part.roster ∉ T ∧ Part.generation ∉ T) = true) :
    t.orderDue = s.orderDue := by
  obtain ⟨h1, h2, h3, h4⟩ := of_decide_eq_true hT
  have e1 : t.pc.order = s.pc.order := (h.part .phase (decide_eq_true h1)).2.2
  have e2 : t.sr = s.sr := h.part .roster (decide_eq_true h3)
  have e3 : t.pc.gen = s.pc.gen := h.part .generation (decide_eq_true h4)
  have hpath : t.pathProved = s.pathProved := by simp only [State.pathProved, State.everyTw, e2, e3]
  have hopen : t.svOpen = s.svOpen := by simp only [State.svOpen, State.roleShows, e2, e3]
  have hbv : t.bvClosed = s.bvClosed := by simp only [State.bvClosed, State.roleShows, e2, e3]
  have hsv : t.svClosed = s.svClosed := by simp only [State.svClosed, State.roleShows, e2, e3]
  unfold State.orderDue
  rw [e1, h.hasRole (decide_eq_true h2), hpath, hopen, hbv, hsv]

/-- The parts that a standing order touches where VC1 does not refuse to open. -/
def orderParts : List Part := [.phase, .channels, .frames, .pressure]

/-- R21, R24: carrying out a standing order that VC1 does not refuse moves channels. -/
theorem State.carryOrder_moves {s : State} {o : Order} (h : o = .openVc1 → s.vp.channels.n1.refusesOpen = false) :
    Keeps [.channels, .frames, .pressure] s (s.carryOrder o) ∧ Onward s (s.carryOrder o) := by
  cases o with
  | openVc1 =>
    have ho : s.carryOrder .openVc1 = s.openChannel .n1 := by
      simp only [State.carryOrder, State.openVc1, h rfl, Bool.false_eq_true, if_false]
    rw [ho]
    exact ⟨(s.openChannel_keeps .n1).mono (by decide), s.putChannel_onward _ _⟩
  | closeVc1 => exact ⟨(s.closeChannel_keeps .n1).mono (by decide), s.putChannel_onward _ _⟩
  | closeTanks =>
    exact ⟨(State.eachChannel_keeps State.closeChannel_keeps _ _).mono (by decide),
      Onward.foldl (fun t n => t.putChannel_onward _ _) _ _⟩

/-- R84: in TRIPPED a refused open command hands nothing. -/
theorem State.openVc1_tripped {s : State} (hp : s.pc.phase = .tripped) (h : s.vp.channels.n1.refusesOpen = true) :
    s.openVc1 = s := by
  have hv : Cause.valve.latchesIn s.pc.phase = false := by rw [hp]; rfl
  simp only [State.openVc1, h, if_true, State.handCause_unlisted _ hv]

/-- R18, R21, R24: a standing order that VC1 does not refuse is dropped and moves channels. -/
theorem State.runOrder_calm {s : State}
    (h : s.pc.phase = .tripped ∨ (s.pc.order = some .openVc1 → s.vp.channels.n1.refusesOpen = false)) :
    Calm orderParts s s.runOrder ∧ s.runOrder.orderDue = false := by
  rcases s.runOrder_cases with ⟨hd, he⟩ | ⟨o, -, ho, he⟩ <;> rw [he]
  · exact ⟨.refl _ s, hd⟩
  · have hdrop : Calm orderParts s s.dropOrder :=
      ⟨(s.putPhase_keeps s.pc.phase s.pc.inHand none).mono (by decide), rfl, rfl,
        Onward.pure (s := s) (t := s.dropOrder) rfl rfl rfl rfl rfl⟩
    have hnone : s.dropOrder.orderDue = false := State.orderDue_none rfl
    by_cases hr : o = .openVc1 → s.dropOrder.vp.channels.n1.refusesOpen = false
    · obtain ⟨hk, hon⟩ := State.carryOrder_moves hr
      exact ⟨hdrop.trans ((Calm.of_keeps hk hon (by decide)).mono (by decide)), (hk.orderDue (by decide)).trans hnone⟩
    · simp only [Classical.not_imp, Bool.not_eq_false] at hr
      obtain ⟨rfl, hr⟩ := hr
      have hp : s.pc.phase = .tripped := h.resolve_right fun hn => by
        have hr' : s.vp.channels.n1.refusesOpen = true := hr
        rw [hn ho] at hr'
        cases hr'
      have hstay : s.dropOrder.carryOrder .openVc1 = s.dropOrder := State.openVc1_tripped hp hr
      rw [hstay]
      exact ⟨hdrop, hnone⟩

/-! ## After a phase change -/

/-- The parts that what follows a phase change touches where no cause is handed. -/
def reactParts : List Part := watchParts ++ [.phase, .scan, .channels, .pressure]

/-- R115: where SEP_IN is off, or in IDLE and ENDED, SEPARATION latches nothing. -/
theorem State.separate_calm {s : State}
    (h : (s.valveRole && s.inputs.sep) = false ∨ s.pc.phase = .idle ∨ s.pc.phase = .ended) :
    Calm [.channels, .frames, .pressure] s s.separate := by
  cases hs : s.valveRole && s.inputs.sep with
  | false =>
    rw [State.separate_off hs]
    exact .refl _ s
  | true =>
    rw [State.separate, if_pos hs, State.handSeparation_unlisted (h.resolve_left (by simp [hs]))]
    exact .of_keeps ((s.closeChannel_keeps .n1).mono (by decide)) (State.putChannel_onward _ _ _) (by decide)

/-- R36, R84, R104, R115: what makes a phase change hand no cause. -/
structure ReactsStill (s : State) (old : Phase) : Prop where
  refused : s.pc.phase = .opening → s.hasRole .tw = true → s.refusedChannels = []
  silent : s.pc.phase = .opening → s.silentNumbers = []
  faults : old.active = false → s.pc.phase.active = true → s.faultChannels = []
  opens : s.pc.order = some .openVc1 → (s.settled old).vp.channels.n1.refusesOpen = false
  separation : (s.valveRole && s.inputs.sep) = false ∨ s.pc.phase = .idle ∨ s.pc.phase = .ended

/-- R18, R36, R84, R104, R115: what follows a phase change in which nothing hands a cause. -/
theorem ReactsStill.react {s : State} {old : Phase} (h : ReactsStill s old) :
    Calm reactParts s (s.react old) ∧ (s.react old).orderDue = false := by
  have h1 : Calm reactParts s (s.settled old) :=
    (Calm.of_keeps (s.settled_keeps old) (((State.scanAtPhase_onward _ _).trans (State.followAll_onward _)).trans
      (State.watch_onward _)) (by decide)).mono (by decide)
  have ho : (s.settled old).pc.order = s.pc.order := ((s.settled_keeps old).part .phase (by decide)).2.2
  obtain ⟨h2, hd⟩ := State.runOrder_calm (s := s.settled old) (.inr fun hs => h.opens (ho.symm.trans hs))
  have h12 := h1.trans (h2.mono (by decide))
  have h3 : Calm [.channels, .frames, .pressure] (s.settled old).runOrder (s.settled old).runOrder.separate := by
    refine State.separate_calm ?_
    rw [h12.keeps.separated (by decide), h12.phase]
    exact h.separation
  rw [State.react_calm h.refused h.silent h.faults]
  have h4 := State.watch_calm (s.settled old).runOrder.separate
  exact ⟨(h12.trans (h3.mono (by decide))).trans (h4.mono (by decide)),
    (h4.keeps.orderDue (by decide)).trans ((h3.keeps.orderDue (by decide)).trans hd)⟩

/-! ## What follows PU's STATUS -/

/-- R33, R29, R172: what a follower does with PU's STATUS after the follower rule. -/
def State.takeTail (s : State) (before : Option Entry) (st : Status) : State :=
  ((s.takePuStatus before st).rosterChanged).delivered

section
variable {s : State} (before : Option Entry) (st : Status)

theorem State.takeTail_keeps (s : State) : Keeps (leakParts ++ [.receive]) s (s.takeTail before st) :=
  (((s.takePuStatus_keeps before st).mono (by decide)).trans ((State.rosterChanged_keeps _).mono (by decide))).trans
    ((State.delivered_keeps _).mono (by decide))

theorem State.takeTail_onward (s : State) : Onward s (s.takeTail before st) :=
  ((s.takePuStatus_onward before st).trans (State.rosterChanged_onward _)).trans (State.delivered_onward _)

/-- A station that is not PU takes no step of its own at a roster change. -/
theorem State.rosterChanged_follower (h : s.running = true) (hpu : s.hasRole .pu = false) :
    s.rosterChanged = s.runOrder.rosterRest := by
  have hk := s.rosterLevels_keeps
  rw [State.rosterChanged_running h, State.puEval_follower, s.rosterLevels_rest]
  rw [hk.runningPu (by decide), State.runningPu, hpu, Bool.and_false]

theorem State.rosterRest_trips (s : State) : Trips s s.rosterRest := .of_keeps s.rosterRest_keeps (by decide)

theorem State.takeTail_trips (h : s.running = true) (hpu : s.hasRole .pu = false) : Trips s (s.takeTail before st) := by
  have hk := s.takePuStatus_keeps before st
  unfold State.takeTail
  rw [State.rosterChanged_follower ((hk.running (by decide)).trans h) ((hk.hasRole (by decide) .pu).trans hpu)]
  exact (((Trips.of_keeps hk (by decide)).trans (State.runOrder_trips _)).trans (State.rosterRest_trips _)).trans
    (.of_keeps (State.delivered_keeps _) (by decide))

/-- The parts that what follows PU's STATUS touches where no standing order trips. -/
def tailParts : List Part := rosterParts ++ [.phase, .receive]

/-- R33: where no standing order is due, and in TRIPPED, nothing that follows PU's STATUS hands a cause. -/
theorem State.takeTail_calm (h : s.running = true) (hpu : s.hasRole .pu = false)
    (hd : s.orderDue = false ∨ s.pc.phase = .tripped) : Calm tailParts s (s.takeTail before st) := by
  have hk := s.takePuStatus_keeps before st
  have hx := State.rosterChanged_follower ((hk.running (by decide)).trans h) ((hk.hasRole (by decide) .pu).trans hpu)
  have hd' : (s.takePuStatus before st).orderDue = false ∨ (s.takePuStatus before st).pc.phase = .tripped :=
    hd.imp (hk.orderDue (by decide)).trans (hk.part .phase (by decide)).1.trans
  have h1 : Calm tailParts s (s.takePuStatus before st) :=
    (Calm.of_keeps hk (s.takePuStatus_onward before st) (by decide)).mono (by decide)
  unfold State.takeTail
  have ho := (s.takePuStatus before st).rosterChanged_onward
  rw [hx] at ho ⊢
  have h2 : Keeps tailParts (s.takePuStatus before st) (s.takePuStatus before st).runOrder.rosterRest
      ∧ (s.takePuStatus before st).runOrder.rosterRest.pc.phase = (s.takePuStatus before st).pc.phase
      ∧ (s.takePuStatus before st).runOrder.rosterRest.pc.inHand = (s.takePuStatus before st).pc.inHand := by
    generalize s.takePuStatus before st = u at *
    have hr := u.runOrder.rosterRest_keeps
    have hp := hr.part .phase (by decide)
    rcases hd' with hd' | hd'
    · rw [State.runOrder_notDue hd'] at hr hp ⊢
      exact ⟨hr.mono (by decide), hp.1, hp.2.1⟩
    · obtain ⟨hc, -⟩ := State.runOrder_calm (s := u) (.inl hd')
      exact ⟨(hc.keeps.mono (by decide)).trans (hr.mono (by decide)), hp.1.trans hc.phase, hp.2.1.trans hc.inHand⟩
  exact (h1.trans ⟨h2.1, h2.2.1, h2.2.2, ho⟩).trans
    ((Calm.of_keeps (State.delivered_keeps _) (State.delivered_onward _) (by decide)).mono (by decide))

theorem State.takePuFigures_shut (ho : s.mr.record.state ≠ .opened) : s.takePuFigures st = s := by
  have hs : s.recordOpen = false := by simp [State.recordOpen, ho]
  unfold State.takePuFigures
  cases st.body with
  | pu => exact if_neg (by simp [hs])
  | _ => rfl

theorem State.takePuStatus_shut (ho : s.mr.record.state ≠ .opened) :
    (s.takePuStatus before st).mr.record = s.mr.record := by
  have hk : Keeps [.pressure] s (s.movementIf (s.valveRole && pumpBegins before st)) :=
    (s.movementIf_keeps _).mono (by decide)
  have hr : _ = s.mr.record := hk.part .record (by decide)
  unfold State.takePuStatus
  rw [State.takePuFigures_shut st (by rw [hr]; exact ho), hr]

theorem State.rosterRest_shut (ho : s.mr.record.state ≠ .opened) : s.rosterRest.mr.record = s.mr.record := by
  have hk : Keeps (watchParts ++ [.channels, .pressure, .tanks]) s (s.releaseIfStopped).readRoute :=
    (s.releaseIfStopped_keeps.mono (by decide)).trans ((State.readRoute_keeps _).mono (by decide))
  have hr : (s.releaseIfStopped).readRoute.mr.record = s.mr.record := hk.part .record (by decide)
  have hx (u : State) (h : u.mr.record.state ≠ .opened) : u.takeReceived.readExternalEnd.judgeEnds = u := by
    rw [State.takeReceived_shut h, State.readExternalEnd, State.setExternalEnd_shut h, ite_self, State.judgeEnds_shut h]
  have hw : s.rosterRest.mr.record
      = (((s.releaseIfStopped).readRoute).takeReceived.readExternalEnd.judgeEnds).mr.record :=
    ((State.watch_keeps _).part .record (by decide) : _ = _).trans ((State.watchLeak_keeps _).part .record (by decide))
  rw [hw, hx _ (by rw [hr]; exact ho), hr]

/-- R151: what follows PU's STATUS leaves a record that is not OPEN alone. -/
theorem State.takeTail_shut (h : s.running = true) (hpu : s.hasRole .pu = false) (hd : s.orderDue = false)
    (ho : s.mr.record.state ≠ .opened) : (s.takeTail before st).mr.record = s.mr.record := by
  have hk := s.takePuStatus_keeps before st
  have hr := State.takePuStatus_shut before st ho
  have hx : (s.takeTail before st).mr.record = (s.takePuStatus before st).rosterChanged.mr.record :=
    (State.delivered_keeps _).part .record (by decide)
  rw [hx, State.rosterChanged_follower ((hk.running (by decide)).trans h) ((hk.hasRole (by decide) .pu).trans hpu),
    State.runOrder_notDue ((hk.orderDue (by decide)).trans hd), State.rosterRest_shut (by rw [hr]; exact ho), hr]

/-- R68: what follows PU's STATUS leaves CAUSE off where nothing is latched. -/
theorem State.takeTail_cause (h : s.running = true) (hpu : s.hasRole .pu = false)
    (hl : (s.takeTail before st).tu.latched = []) : (s.takeTail before st).tu.cause = false := by
  have hk := s.takePuStatus_keeps before st
  have hd := (s.takePuStatus before st).rosterChanged.delivered_keeps
  rw [State.takeTail, (hd.part .tripRecord (by decide)).2.1] at hl
  rw [State.takeTail, (hd.part .flags (by decide)).2.2.2]
  rw [State.rosterChanged_follower ((hk.running (by decide)).trans h) ((hk.hasRole (by decide) .pu).trans hpu)] at hl ⊢
  exact State.watch_cause_nil (((State.watch_keeps _).part .tripRecord (by decide)).2.1.symm.trans hl)

end

/-! ## PU's STATUS heard -/

/-- R31: an entry of the table with a sender taken in is that of the sender or stood there before. -/
theorem Roster.mem_takeIn {r : Roster} {n : Nat} {e : Entry} (h : e ∈ (r.takeIn n).1.entries) :
    e.number = n ∨ e ∈ r.entries := by
  unfold Roster.takeIn at h
  split at h
  · exact .inr h
  · split at h
    · exact (List.mem_cons.1 h).imp (by rintro rfl; rfl) id
    · split at h
      · exact (List.mem_cons.1 h).imp (by rintro rfl; rfl) List.mem_of_mem_filter
      · exact .inr h

/-- R32: an entry of the table after a frame is the sender's, PRESENT with the frame's STATUS, or another that stood there
before. -/
theorem Roster.mem_takeFrame {r : Roster} {n : Nat} {role : Role} {st : Status} {e : Entry}
    (h : e ∈ (r.takeFrame n role (some st)).1.entries) :
    (e.number = n ∧ e.presence = .present ∧ e.last = some st ∧ e.role = some role) ∨ (e.number ≠ n ∧ e ∈ r.entries) := by
  unfold Roster.takeFrame at h
  split at h
  · rename_i x hx
    rcases List.mem_cons.1 h with rfl | h
    · exact .inl ⟨(Roster.find_some hx).2, rfl, rfl, rfl⟩
    · simp only [Roster.without, List.mem_filter, bne_iff_ne] at h
      exact .inr ⟨h.2, h.1⟩
  · rename_i hx
    exact .inr ⟨fun hn => Roster.find_none hx (List.mem_map.2 ⟨e, h, hn⟩), h⟩

/-- R31: no frame puts a protected entry out of the table, where its number is its own. -/
theorem Roster.kept_takeIn {r : Roster} {n : Nat} {e : Entry} (he : e ∈ r.entries) (hp : e.protected' = true)
    (hu : ∀ x ∈ r.entries, x.number = e.number → x = e) : e ∈ (r.takeIn n).1.entries := by
  unfold Roster.takeIn
  split
  · exact he
  · split
    · exact List.mem_cons_of_mem _ he
    · split
      · rename_i v hv
        refine List.mem_cons_of_mem _ (List.mem_filter.2 ⟨he, ?_⟩)
        obtain ⟨x, hx, rfl⟩ := Option.map_eq_some_iff.1 hv
        have hm : x ∈ r.entries := by simpa using List.mem_of_find?_eq_some hx
        have hn := List.find?_some (p := fun e : Entry => !e.protected') hx
        simp only [bne_iff_ne]
        intro hnum
        simp [hu x hm hnum.symm, hp] at hn
      · exact he

theorem Roster.kept_takeFrame {r : Roster} {n : Nat} {role : Role} {st : Option Status} {e : Entry} (he : e ∈ r.entries)
    (hn : e.number ≠ n) : e ∈ (r.takeFrame n role st).1.entries := by
  unfold Roster.takeFrame
  split
  · exact List.mem_cons_of_mem _ (List.mem_filter.2 ⟨he, by simpa using hn⟩)
  · exact he

/-- What a follower is once PU's STATUS is entered in its table. -/
structure Heard (s : State) (n : Nat) (st : Status) (u : State) : Prop where
  keeps : Keeps [.roster, .reports] s u
  onward : Onward s u
  state : ∃ p, u = { s with sr := u.sr, pp := p }
  entries : ∀ e ∈ u.sr.entries, (e.number = n ∧ e.presence = .present ∧ e.last = some st ∧ e.role = some .pu)
    ∨ (e.number ≠ n ∧ e ∈ s.sr.entries)
  kept : ∀ e ∈ s.sr.entries, e.protected' = true → e.number ≠ n → (∀ x ∈ s.sr.entries, x.number = e.number → x = e) →
    e ∈ u.sr.entries
  single : ∀ e ∈ u.sr.entries, e.hasRole .pu = true → e.number = n

/-- R29, R69: PU's STATUS offered as a remote trip. -/
def State.honourPu (s : State) (n : Nat) (st : Status) : State :=
  if st.phase = .tripped ∧ st.gen = s.pc.gen then s.honour n st.firstCause st.firstOrigin else s

theorem State.offerTrip_tripped {s : State} {h : Header} {st : Status} (ht : st.phase = .tripped) (hg : h.gen = s.pc.gen) :
    s.offerTrip (statusFrame h st) = s.honour h.sender st.firstCause st.firstOrigin := by
  have hc : (statusFrame h st).contents.remoteTrip = some (st.firstCause, st.firstOrigin) := if_pos ht
  unfold State.offerTrip
  rw [hc]
  exact if_pos hg

theorem State.offerTrip_pu (s : State) (n : Nat) (tr : BitVec 8) (st : Status) :
    s.offerTrip (statusFrame ⟨n, .pu, tr, st.gen⟩ st) = s.honourPu n st := by
  by_cases h : st.phase = .tripped ∧ st.gen = s.pc.gen
  · rw [State.offerTrip_tripped h.1 h.2, State.honourPu, if_pos h]
  · rw [State.offerTrip_none fun ht hg => h ⟨ht, hg⟩, State.honourPu, if_neg h]

theorem State.honourPu_keeps (s : State) (n : Nat) (st : Status) : Keeps cascadeParts s (s.honourPu n st) :=
  (s.honour_keeps _ _ _).iteSelf

/-- R29, R33: PU's STATUS at a follower: entered, offered to the Trip Unit, followed, and what comes after. -/
theorem PuStatusWaits.heard {s : State} {n : Nat} {st : Status} (h : PuStatusWaits s n st) :
    ∃ u e, Heard s n st u ∧ u.running = true ∧ u.hasRole .pu = false
      ∧ exec .rosterTakeFrame s = .next (((u.honourPu n st).followPu n st).takeTail e st) := by
  obtain ⟨hr, ⟨role, hrole, hnpu⟩, ⟨l, tr, hd, hf, hc⟩⟩ := h
  have hpu : s.hasRole .pu = false := by simp [State.hasRole, hrole, hnpu]
  obtain ⟨f, hfr⟩ : ∃ f : Received, f = statusFrame ⟨n, .pu, tr, st.gen⟩ st := ⟨_, rfl⟩
  have hk := s.enterFrame_keeps f
  have hpu' := (hk.hasRole (by decide) .pu).trans hpu
  have hsr : (s.enterFrame f).sr = ((s.sr.takeIn n).1.takeFrame n .pu (some st)).1 := by
    subst hfr
    exact (State.emitAll_keeps _ _).part .roster (by decide)
  have hhon : (s.enterFrame f).offerTrip f = (s.enterFrame f).honourPu n st := hfr ▸ State.offerTrip_pu _ _ _ _
  have hkh := (s.enterFrame f).honourPu_keeps n st
  refine ⟨s.enterFrame f, s.sr.find n, ?_, (hk.running (by decide)).trans hr, hpu', ?_⟩
  · have hentries : ∀ e ∈ (s.enterFrame f).sr.entries,
        (e.number = n ∧ e.presence = .present ∧ e.last = some st ∧ e.role = some .pu)
          ∨ (e.number ≠ n ∧ e ∈ s.sr.entries) := fun e he => by
      rw [hsr] at he
      exact (Roster.mem_takeFrame he).imp id fun ⟨hn, hm⟩ => ⟨hn, (Roster.mem_takeIn hm).resolve_left hn⟩
    refine ⟨hk, s.enterFrame_onward f, ⟨_, rfl⟩, hentries, fun e he hp hn hu => ?_, fun e he hp => ?_⟩
    · rw [hsr]
      exact Roster.kept_takeFrame (Roster.kept_takeIn he hp hu) hn
    · refine (hentries e he).elim And.left fun ⟨_, hm⟩ => ?_
      simp only [State.isClash, Role.single, Bool.or_eq_false_iff, Bool.true_and, List.any_eq_false, Bool.and_eq_true,
        not_and, bne_iff_ne, not_not] at hc
      exact hc.2.2 e hm hp
  · rw [State.execRosterTakeFrame_status hr hd hf hc, State.afterStatus, ← hfr, hhon, State.takeStatus,
      if_pos ⟨rfl, (hkh.hasRole (by decide) .pu).trans hpu'⟩]
    rfl

end Sys2Proof.Machine
end

section
/-! SUPPORT. The entry into OPENING at a follower: the channels it opens, and which of them refuse (R20, R84). -/

namespace Sys2Proof.Machine

/-! ## Leaving a phase other than TRIPPED -/

/-- The parts that leaving a phase other than TRIPPED touches. -/
def leftParts : List Part := [.phase, .meter, .record, .tanks, .frames, .reports]

theorem State.left_of_untripped {s : State} (p : Phase) (h : s.pc.phase ≠ .tripped) :
    s.left p = if p.active then { s.setPhase p with mr := s.mr.changePhase s.pc.phase p }
      else State.endClaim { s.setPhase p with mr := s.mr.changePhase s.pc.phase p } := by
  have hn : ¬ (s.pc.phase = .tripped ∧ (s.setPhase p).pc.phase ≠ .tripped) := fun hx => h hx.1
  unfold State.left State.leavePhase
  dsimp only
  rw [if_neg hn]
  rfl

/-- R90: the hold-off is left with TRIPPED alone. -/
theorem State.left_untripped {s : State} (p : Phase) (h : s.pc.phase ≠ .tripped) : Keeps leftParts s (s.left p) := by
  have hm : Keeps leftParts s { s.setPhase p with mr := s.mr.changePhase s.pc.phase p } :=
    ((s.setPhase_keeps p).mono (by decide)).trans
      (((s.setPhase p).putMeter_keeps (s.mr.changePhase s.pc.phase p) ⟨rfl, rfl⟩).mono (by decide))
  rw [State.left_of_untripped p h]
  exact Keeps.ite hm (hm.trans ((State.endClaim_keeps _).mono (by decide)))

/-! ## Open commands to several channels -/

theorem State.putChannel_from (s : State) (n : Ch) (c : Channel) :
    Keeps [.frames, .pressure] { s with vp := { s.vp with channels := s.vp.channels.set n c } } (s.putChannel n c) :=
  ((State.askStatusIf_keeps _ _).mono (by decide)).trans ((State.movementIf_keeps _ _).mono (by decide))

theorem State.putChannel_get (s : State) (n m : Ch) (c : Channel) :
    (s.putChannel n c).vp.channels.get m = if m = n then c else s.vp.channels.get m := by
  rw [((s.putChannel_from n c).part .channels (by decide)).1]
  split
  · rename_i h
    rw [h, Quad.get_set_self]
  · rename_i h
    rw [Quad.get_set_of_ne _ h]

/-- R84, R85: commands to several channels give each its own. -/
theorem State.eachChannel_get {f : State → Ch → State} {g : Channel → Bool → Bool → Channel}
    (hf : ∀ s n, f s n = s.putChannel n (g (s.vp.channels.get n) (s.openOn n) (s.shutOn n))) {l : List Ch} (hl : l.Nodup)
    (s : State) (m : Ch) :
    (s.eachChannel f l).vp.channels.get m
      = if m ∈ l then g (s.vp.channels.get m) (s.openOn m) (s.shutOn m) else s.vp.channels.get m := by
  induction l generalizing s with
  | nil => rfl
  | cons n l ih =>
    obtain ⟨hn, hl⟩ := List.nodup_cons.1 hl
    have hi : (f s n).inputs = s.inputs := hf s n ▸ (s.putChannel_from n _).part .inputs (by decide)
    have ho : (f s n).openOn m = s.openOn m := by simp only [State.openOn, hi]
    have hs : (f s n).shutOn m = s.shutOn m := by simp only [State.shutOn, hi]
    change ((f s n).eachChannel f l).vp.channels.get m = _
    rw [ih hl, ho, hs, hf, State.putChannel_get]
    by_cases hm : m = n
    · subst hm
      simp [hn]
    · simp [hm]

/-- R84: an open command puts no channel into FAULT, and takes none out of it. -/
theorem Channel.open'_refuses (c : Channel) (os cs : Bool) : (c.open' os cs).refusesOpen = c.refusesOpen := by
  have hprog (d : Channel) (hd : d.state = .opening) : (d.progress os cs).state ≠ .fault := by
    unfold Channel.progress
    split
    · simp only [Channel.arrive]
      split <;> simp
    · split
      · simp [Channel.driveOn, hd]
      · simp [hd]
  have hne (d : Channel) (hd : d.state ≠ .fault) : d.refusesOpen = false := by simp [Channel.refusesOpen, hd]
  unfold Channel.open'
  split
  · rfl
  · cases hs : c.state with
    | shut | stopped | closing => exact (hne _ (hprog _ rfl)).trans (hne c (by simp [hs])).symm
    | opening | opened | fault => rfl

/-! ## OPENING entry -/

theorem State.beginReceipt_channels (s : State) : s.beginReceipt.vp.channels = s.vp.channels :=
  (s.beginReceipt_keeps.part .channels (by decide)).1

theorem State.tanksTakingPart_nodup (s : State) : s.tanksTakingPart.Nodup := by
  unfold State.tanksTakingPart State.tanksUsed
  exact (List.Nodup.filter _ (by decide)).filter _

/-- R20: OPENING entry at TW opens the channels of the tanks taking part. -/
theorem State.openTanks_get (s : State) (m : Ch) :
    s.openTanks.vp.channels.get m
      = if m ∈ s.beginReceipt.tanksTakingPart then (s.vp.channels.get m).open' (s.openOn m) (s.shutOn m)
        else s.vp.channels.get m := by
  have hi : s.beginReceipt.inputs = s.inputs := s.beginReceipt_keeps.part .inputs (by decide)
  have ho : s.beginReceipt.openOn m = s.openOn m := by simp only [State.openOn, hi]
  have hs : s.beginReceipt.shutOn m = s.shutOn m := by simp only [State.shutOn, hi]
  change (s.beginReceipt.eachChannel State.openChannel s.beginReceipt.tanksTakingPart).vp.channels.get m = _
  rw [State.eachChannel_get (f := State.openChannel) (g := Channel.open') (fun _ _ => rfl)
    s.beginReceipt.tanksTakingPart_nodup, s.beginReceipt_channels, ho, hs]

theorem State.changePhase_channels (s : State) (p : Phase) (n r : Nat) :
    (s.changePhase p n r).vp.channels = ((s.left p).entryActions s.pc.phase n r).vp.channels :=
  ((s.changePhase_from p n r).part .channels (by decide)).1

/-- R20: at BV and SV OPENING entry leaves the channels alone. -/
theorem State.changePhase_opening_channels {s : State} (n r : Nat) (h : s.pc.phase ≠ .tripped)
    (hpu : s.hasRole .pu = false) (htw : s.hasRole .tw = false) :
    (s.changePhase .opening n r).vp.channels = s.vp.channels := by
  rw [s.changePhase_channels, State.entryActions_opening (s.left_phase _), if_neg (by simp [s.left_hasRole, hpu]),
    if_neg (by simp [s.left_hasRole, htw])]
  exact ((State.left_untripped .opening h).part .channels (by decide)).1

/-- R20: at TW OPENING entry opens the tanks. -/
theorem State.changePhase_opening_tw {s : State} (n r : Nat) (htw : s.hasRole .tw = true) :
    Keeps [.frames, .reports] (s.left .opening).openTanks (s.changePhase .opening n r) := by
  have hpu : s.hasRole .pu = false := by
    rw [State.hasRole_iff] at htw
    simp [State.hasRole, htw]
  have hk := s.changePhase_from .opening n r
  rwa [State.entryActions_opening (s.left_phase _), if_neg (by simp [s.left_hasRole, hpu]),
    if_pos ((s.left_hasRole _ _).trans htw)] at hk

/-- R84: at OPENING entry a channel refuses an open command if it refused one before. -/
theorem State.changePhase_opening_refuses {s : State} (n r : Nat) (h : s.pc.phase ≠ .tripped)
    (hpu : s.hasRole .pu = false) (m : Ch) :
    ((s.changePhase .opening n r).vp.channels.get m).refusesOpen = (s.vp.channels.get m).refusesOpen := by
  cases htw : s.hasRole .tw with
  | false => rw [State.changePhase_opening_channels n r h hpu htw]
  | true =>
    rw [((State.changePhase_opening_tw n r htw).part .channels (by decide)).1, State.openTanks_get,
      ((State.left_untripped .opening h).part .channels (by decide)).1]
    split
    · exact Channel.open'_refuses _ _ _
    · rfl

/-- R81: the tanks in use have channels in use. -/
theorem State.channelUsed_of_tank {s : State} {c : Ch} (h : s.tankUsed c = true) : s.channelUsed c = true := by
  simp only [State.tankUsed, Bool.and_eq_true, State.hasRole_iff] at h
  simpa [State.channelUsed, h.1] using h.2

theorem State.channelUsed_valve {s : State} (h : s.valveRole = true) : s.channelUsed .n1 = true := by
  simp only [State.valveRole, Bool.or_eq_true, State.hasRole_iff] at h
  rcases h with h | h <;> simp [State.channelUsed, h]

theorem NoValveFault.refuses {s : State} (h : NoValveFault s) {c : Ch} (hc : s.channelUsed c = true) :
    (s.vp.channels.get c).refusesOpen = false := by
  simp [Channel.refusesOpen, h c hc]

theorem Keeps.tankUsed {T : List Part} {s t : State} (h : Keeps T s t) (hT : decide (Part.setup ∉ T) = true) (c : Ch) :
    t.tankUsed c = s.tankUsed c := by
  have hs : t.sl = s.sl := h.part .setup hT
  simp only [State.tankUsed, h.hasRole hT, hs]

/-- R20, R84: where no channel in use is in FAULT, OPENING entry at TW leaves none that refused. -/
theorem State.refusedChannels_opening {s : State} (n r : Nat) (h : s.pc.phase ≠ .tripped) (hpu : s.hasRole .pu = false)
    (hv : NoValveFault s) : (s.changePhase .opening n r).refusedChannels = [] := by
  simp only [State.refusedChannels, List.map_eq_nil_iff, List.filter_eq_nil_iff]
  intro c hc
  have hu : s.tankUsed c = true := by
    rw [← (s.changePhase_keeps .opening n r).tankUsed (by decide)]
    simp only [State.tanksTakingPart, State.tanksUsed, List.mem_filter] at hc
    exact hc.1.2
  rw [State.changePhase_opening_refuses n r h hpu, hv.refuses (State.channelUsed_of_tank hu)]
  simp

/-- What follows the entry into an active phase before any cause is handed: the scan and the levels. -/
theorem State.settled_active {s : State} {old : Phase} (h : s.pc.phase.active = true) :
    Keeps (watchParts ++ [.scan]) s (s.settled old) := by
  have hk := s.scanAtPhase_keeps old
  have hf : (s.scanAtPhase old).followAll = s.scanAtPhase old := by
    have hp := (hk.part .phase (by decide)).1
    simp [State.followAll, hp, h]
  unfold State.settled
  rw [hf]
  exact (hk.mono (by decide)).trans ((State.watch_keeps _).mono (by decide))

/-! ## The adoption of PU's step -/

/-- R15: a follower that enters LINEUP from IDLE copies PU's transfer number first. -/
def State.adopting (s : State) (st : Status) : State :=
  if s.pc.phase = .idle ∧ st.phase = .lineup then { s with pc := { s.pc with transfer := st.transfer } } else s

/-- The state after the phase change of an adopted step. -/
def State.adopted (s : State) (st : Status) : State :=
  (s.adopting st).changePhase st.phase st.body.nomination.1 st.body.nomination.2

theorem State.adopt_eq (s : State) (st : Status) : s.adopt st = (s.adopted st).react (s.adopting st).pc.phase := rfl

theorem State.adopting_keeps (s : State) (st : Status) : Keeps [.transfer] s (s.adopting st) :=
  Keeps.iteSelf (s.putTransfer_keeps _)

/-- R12, R36, R84, R104, R115: what makes the adoption of a step hand no cause. -/
structure AdoptsStill (s : State) (st : Status) : Prop where
  role : s.hasRole .pu = false
  phase : s.pc.phase ≠ .tripped
  peers : ∀ e ∈ s.sr.entries, e.protected' = true → e.presence ≠ .silent
  scan : ∀ c : Ch, (s.hw.chans.get c).enabled = true → (s.hw.chans.get c).fault = false
  separation : (s.valveRole && s.inputs.sep) = false
  valves : st.phase = .opening → NoValveFault s

theorem AdoptsStill.reactsStill {s : State} {st : Status} (h : AdoptsStill s st) :
    ReactsStill (s.adopted st) (s.adopting st).pc.phase := by
  have hk := s.adopting_keeps st
  have hpu := (hk.hasRole (by decide) .pu).trans h.role
  have hp : (s.adopting st).pc.phase ≠ .tripped := by rw [(hk.part .phase (by decide)).1]; exact h.phase
  have hv (ho : st.phase = .opening) : NoValveFault (s.adopting st) := by
    have h1 : (s.adopting st).sl = s.sl := hk.part .setup (by decide)
    have h2 := (hk.part .channels (by decide)).1
    intro c hc
    rw [h2]
    refine h.valves ho c ?_
    rwa [State.channelUsed, State.role, h1] at hc
  have hc := (s.adopting st).changePhase_keeps st.phase st.body.nomination.1 st.body.nomination.2
  have hsc : Keeps (phaseParts ++ [.transfer]) s (s.adopted st) := (hk.mono (by decide)).trans (hc.mono (by decide))
  obtain ⟨hphase, horder, -⟩ := (s.adopting st).changePhase_phase st.phase st.body.nomination.1 st.body.nomination.2
  refine ⟨fun ho _ => ?_, fun _ => ?_, fun _ _ => ?_, fun ho => ?_, .inl ?_⟩
  · have ho' : st.phase = .opening := hphase.symm.trans ho
    rw [State.adopted, ho']
    exact State.refusedChannels_opening _ _ hp hpu (hv ho')
  · rw [hsc.silentNumbers (by decide)]
    exact State.silentNumbers_nil h.peers
  · rw [hsc.faultChannels (by decide)]
    exact State.faultChannels_nil h.scan
  · rw [State.adopted, horder] at ho
    have hopen : st.phase = .opening ∧ (s.adopting st).valveRole = true := by
      revert ho
      simp only [State.valveRole, Bool.or_eq_true, State.hasRole_iff]
      cases st.phase <;> rcases (s.adopting st).role with _ | (_ | _ | _ | _ | _) <;> simp [orderOf]
    have ha : (s.adopted st).pc.phase.active = true := by rw [State.adopted, hphase, hopen.1]; rfl
    rw [((State.settled_active ha).part .channels (by decide)).1]
    have hr := State.changePhase_opening_refuses st.body.nomination.1 st.body.nomination.2 hp hpu .n1
    rw [(hv hopen.1).refuses (State.channelUsed_valve hopen.2)] at hr
    rw [State.adopted, hopen.1]
    exact hr
  · rw [hsc.separated (by decide)]
    exact h.separation

/-- R12, R18: an adoption that hands no cause: the phase change, and what calmly follows it. -/
theorem AdoptsStill.adopt {s : State} {st : Status} (h : AdoptsStill s st) :
    Calm reactParts (s.adopted st) (s.adopt st) ∧ (s.adopt st).orderDue = false :=
  s.adopt_eq st ▸ h.reactsStill.react

end Sys2Proof.Machine
end

section
/-! SUPPORT and the proof of O23: the follower rule (R12 to R15, R74). -/

namespace Sys2Proof.Machine

/-! ## The branches of the follower rule -/

theorem State.compareTransfer_quiet {s : State} {st : Status} (h : s.pc.phase = .tripped ∨ st.phase = .tripped
    ∨ s.mr.record.state = .empty ∨ st.transfer = 0 ∨ st.transfer = s.pc.transfer) : s.compareTransfer st = s := by
  refine if_neg ?_
  rintro ⟨h1, h2, h3, h4, h5⟩
  rcases h with h | h | h | h | h <;> contradiction

theorem State.compareTransfer_differs {s : State} {st : Status} (h1 : s.pc.phase ≠ .tripped) (h2 : st.phase ≠ .tripped)
    (h3 : s.mr.record.state ≠ .empty) (h4 : st.transfer ≠ 0) (h5 : st.transfer ≠ s.pc.transfer) :
    s.compareTransfer st = s.handCause .phase none := if_pos ⟨h1, h2, h3, h4, h5⟩

theorem State.followSame_still {s : State} {st : Status}
    (h : s.pc.phase = .tripped ∨ st.phase = s.pc.phase ∨ st.phase = .tripped) : s.followSame st = s := if_pos h

theorem State.followPu_same {s : State} {n : Nat} {st : Status} (h : st.gen = s.pc.gen) :
    s.followPu n st = (s.followSame st).compareTransfer st := by rw [State.followPu, if_pos h]

theorem State.followPu_other {s : State} {n : Nat} {st : Status} (h : st.gen ≠ s.pc.gen) :
    s.followPu n st = (s.followOther n st).compareTransfer st := by rw [State.followPu, if_neg h]

theorem State.honourPu_not {s : State} {n : Nat} {st : Status} (h : ¬ (st.phase = .tripped ∧ st.gen = s.pc.gen)) :
    s.honourPu n st = s := if_neg h

/-- R14: another phase than those of the reset, under another generation. -/
theorem State.followOther_mismatch {s : State} {n : Nat} {st : Status} (h1 : st.phase ≠ .tripped)
    (h2 : ¬ (s.pc.phase = .tripped ∧ st.phase = .ended)) :
    s.followOther n st = (s.adoptGen st.gen).handCause .phase none := by
  unfold State.followOther
  by_cases ht : s.pc.phase = .tripped
  · rw [if_pos ht]
    have he : st.phase ≠ .ended := fun he => h2 ⟨ht, he⟩
    cases hp : st.phase <;> first | rfl | contradiction
  · rw [if_neg ht, if_neg h1]

/-- R74: the reset of PU at a follower that keeps a cause standing. -/
theorem State.followOther_stays {s : State} {n : Nat} {st : Status} (ht : s.pc.phase = .tripped)
    (hp : st.phase = .ended ∨ st.phase = .tripped) (hc : s.causeFlag = true) :
    s.followOther n st = (s.adoptGen st.gen).stayTripped := by
  unfold State.followOther
  rw [if_pos ht]
  rcases hp with hp | hp <;> rw [hp] <;> exact if_pos hc

/-- R74: the reset of PU shown as ENDED, at a follower with no cause standing. -/
theorem State.followOther_ended {s : State} {n : Nat} {st : Status} (ht : s.pc.phase = .tripped)
    (hp : st.phase = .ended) (hc : s.causeFlag = false) :
    s.followOther n st = ((s.adoptGen st.gen).clearTripRecord).stepTo .ended 0 0 := by
  unfold State.followOther
  rw [if_pos ht, hp]
  exact if_neg (by simp [hc])

/-- R74: a trip of PU after the reset, at a follower with no cause standing. -/
theorem State.followOther_tripped {s : State} {n : Nat} {st : Status} (ht : s.pc.phase = .tripped)
    (hp : st.phase = .tripped) (hc : s.causeFlag = false) :
    s.followOther n st = ((s.adoptGen st.gen).clearTripRecord).honour n st.firstCause st.firstOrigin := by
  unfold State.followOther
  rw [if_pos ht, hp]
  exact if_neg (by simp [hc])

/-! ## Remote trips and PHASE -/

/-- R69: the first-out after a remote trip is honoured. -/
theorem State.honour_firstOut (s : State) (n : Nat) (c : Option Cause) (o : Nat) :
    (s.honour n c o).tu.firstOut
      = some (s.tu.firstOut.getD ⟨c, .remoteOrigin, if c = none ∨ o = 0 then n else o, none⟩) := by
  unfold State.honour
  split
  · rename_i h
    obtain ⟨f, hf⟩ := Option.isSome_iff_exists.1 (Bool.and_eq_true_iff.1 h).1
    simp [hf]
  · have h (f : FirstOut) (b : Bool) (e : Event) :
        Onward { s with tu := { s.tu with firstOut := some f } }
          (((({ s with tu := { s.tu with firstOut := some f } } : State).askStatusIf b).enterTripped).emit e) :=
      ((State.askStatusIf_onward _ _).trans (State.enterTripped_onward _)).trans (State.emit_onward _ _)
    exact ((Onward.ite (h _ _ _) ((h _ _ _).trans (State.afterTrip_onward _))).trans (State.watch_onward _)).firstOut _ rfl

/-- R69: in TRIPPED a remote trip latches nothing. -/
theorem State.honour_latched {s : State} (n : Nat) (c : Option Cause) (o : Nat) (h : s.pc.phase = .tripped) :
    (s.honour n c o).tu.latched = s.tu.latched := by
  unfold State.honour
  by_cases hf : (s.tu.firstOut.isSome && s.pc.phase == .tripped) = true
  · rw [if_pos hf]
  · rw [if_neg hf]
    dsimp only
    rw [if_pos h]
    exact ((State.watch_keeps _).part .tripRecord (by decide)).2.1.trans
      (((State.emit_keeps _ _).part .tripRecord (by decide)).2.1.trans
        (((State.enterTripped_keeps _).part .tripRecord (by decide)).2.1.trans
          ((State.askStatusIf_keeps _ _).part .tripRecord (by decide)).2.1))

/-- R13, R14, R15: PHASE latched. -/
def PhaseTripped (s : State) : Prop := s.pc.phase = .tripped ∧ ⟨.phase, none⟩ ∈ s.tu.latched

theorem PhaseTripped.mono {s t : State} (h : PhaseTripped s) (ht : Trips s t) (ho : Onward s t) : PhaseTripped t :=
  ⟨ht.stays h.1, ho.latched.subset h.2⟩

theorem State.handPhase_tripped {s : State} (hr : s.running = true) (hn : s.hasLatched .phase = false) :
    PhaseTripped (s.handCause .phase none) := by
  obtain ⟨h1, h2, -⟩ := State.hand_latches (c := .phase) none hr rfl hn
  exact ⟨h1, h2.subset (by simp)⟩

theorem PhaseTripped.tail {s : State} (h : PhaseTripped s) (e : Option Entry) (st : Status) (hr : s.running = true)
    (hpu : s.hasRole .pu = false) : PhaseTripped (s.takeTail e st) :=
  h.mono (State.takeTail_trips e st hr hpu) (State.takeTail_onward e st s)

theorem State.adoptGen_gen (s : State) (g : BitVec 8) : (s.adoptGen g).pc.gen = g :=
  (State.askStatus_keeps _).part .generation (by decide)

theorem State.takeTail_gen (s : State) (e : Option Entry) (st : Status) : (s.takeTail e st).pc.gen = s.pc.gen :=
  (State.takeTail_keeps e st s).part .generation (by decide)

/-! ## The cases of O23 that hand nothing or trip -/

/-- What the follower rule reads, as it stood before PU's STATUS was heard. -/
theorem Heard.same {s u : State} {n : Nat} {st : Status} (hu : Heard s n st u) :
    u.pc.phase = s.pc.phase ∧ u.pc.order = s.pc.order ∧ u.pc.inHand = s.pc.inHand ∧ u.pc.gen = s.pc.gen
      ∧ u.pc.transfer = s.pc.transfer ∧ u.mr.record = s.mr.record ∧ u.tu.firstOut = s.tu.firstOut
      ∧ u.tu.latched = s.tu.latched := by
  obtain ⟨p, hp⟩ := hu.state
  rw [hp]
  exact ⟨rfl, rfl, rfl, rfl, rfl, rfl, rfl, rfl⟩

/-- The state a follower is in after PU's STATUS, once it is heard. -/
def State.followedBy (u : State) (n : Nat) (e : Option Entry) (st : Status) : State :=
  ((u.honourPu n st).followPu n st).takeTail e st

section
variable {u : State} {n : Nat} {st : Status} {e : Option Entry}

/-- The follower rule leaves PU's STATUS in the table as it was heard. -/
theorem State.followedBy_roster : (u.followedBy n e st).sr = u.sr :=
  (((u.honourPu_keeps n st).mono (by decide)).trans (((State.followPu_keeps _ n st).mono (by decide)).trans
    ((State.takeTail_keeps e st _).mono (by decide))) : Keeps (followParts ++ leakParts ++ [.receive]) u _).part .roster
    (by decide)

/-- Nothing to honour and nothing to follow. -/
theorem State.followedBy_calm (hr : u.running = true) (hpu : u.hasRole .pu = false)
    (hh : ¬ (st.phase = .tripped ∧ st.gen = u.pc.gen)) (hf : u.followPu n st = u)
    (hd : u.orderDue = false ∨ u.pc.phase = .tripped) : Calm tailParts u (u.followedBy n e st) := by
  rw [State.followedBy, State.honourPu_not hh, hf]
  exact State.takeTail_calm e st hr hpu hd

/-- PHASE latched by the follower rule. -/
theorem State.followedBy_phase (hr : u.running = true) (hpu : u.hasRole .pu = false)
    (hh : ¬ (st.phase = .tripped ∧ st.gen = u.pc.gen)) (hf : PhaseTripped (u.followPu n st)) :
    PhaseTripped (u.followedBy n e st) := by
  rw [State.followedBy, State.honourPu_not hh]
  have hk := u.followPu_keeps n st
  exact hf.tail e st ((hk.running (by decide)).trans hr) ((hk.hasRole (by decide) .pu).trans hpu)

/-- A later comparison of transfer numbers leaves PHASE latched. -/
theorem PhaseTripped.compare (h : PhaseTripped u) : PhaseTripped (u.compareTransfer st) :=
  h.mono (u.compareTransfer_trips st) (u.compareTransfer_onward st)

end

/-! ## Adoption -/

/-- R146, R152: an EMPTY record stays so through a phase change of a follower, into LINEUP and TRIPPED apart. -/
theorem State.changePhase_empty {s : State} {p : Phase} (a b : Nat) (hpu : s.hasRole .pu = false) (h1 : p ≠ .lineup)
    (h2 : p ≠ .tripped) (hr : s.mr.record.state = .empty) : (s.changePhase p a b).mr.record.state = .empty := by
  have hk : (s.changePhase p a b).mr.record = ((s.left p).entryActions s.pc.phase a b).mr.record :=
    (s.changePhase_from p a b).part .record (by decide)
  have hn : (s.left p).hasRole .pu = false := (s.left_hasRole _ _).trans hpu
  have hl : (s.left p).mr.record.state = .empty := by rw [s.left_record]; exact hr
  have hshut : (s.left p).mr.record.state ≠ .opened := by rw [hl]; decide
  have hp := s.left_phase p
  rw [hk]
  generalize s.left p = u at *
  cases p with
  | lineup | tripped => contradiction
  | idle =>
    have hc (v : State) : v.clearRecord.mr.record.state = .empty := rfl
    have hx (v : State) : v.clearRecord.excludeTanks.mr.record = v.clearRecord.mr.record :=
      (State.excludeTanks_keeps _).part .record (by decide)
    rw [State.entryActions_idle hp]
    split
    · rw [hx, hc]
    · exact hc u
  | opening =>
    rw [State.entryActions_opening hp, if_neg (by simp [hn])]
    have ho : u.openTanks.mr.record = u.mr.record := by
      have h := u.beginReceipt_keeps
      have k : Keeps [.channels, .frames, .pressure] u.beginReceipt u.openTanks :=
        State.eachChannel_keeps State.openChannel_keeps _ _
      exact (k.part .record (by decide) : _ = _).trans (h.part .record (by decide))
    split
    · rw [ho, hl]
    · exact hl
  | starting => rwa [State.entryActions_starting hp, if_neg (by simp [hn])]
  | pumping => rwa [State.entryActions_pumping hp, if_neg (by simp [hn])]
  | topping => rwa [State.entryActions_topping hp, if_neg (by simp [hn])]
  | paused => rwa [State.entryActions_paused hp, if_neg (by simp [hn])]
  | stopping => rwa [State.entryActions_stopping hp, if_neg (by simp [hn])]
  | closing =>
    rw [State.entryActions_closing hp, State.setExternalEnd_shut hshut, ite_self]
    split
    · rw [(State.closeChannel_keeps u .n1).part .record (by decide)]
      exact hl
    · exact hl
  | ended => rwa [State.entryActions_ended hp, State.forceSample_shut hshut]

/-- R15: the transfer numbers agree where they are compared. -/
def SameTransfer (s : State) (st : Status) : Prop :=
  s.pc.phase = .idle ∨ s.mr.record.state = .empty ∨ st.transfer = 0 ∨ st.transfer = s.pc.transfer

/-- R12, R15: PU's STATUS one step on, where nothing hands a cause: the follower adopts the step, and the transfer numbers
agree. -/
theorem AdoptsStill.follow {s : State} {n : Nat} {st : Status} (h : AdoptsStill s st) (hg : st.gen = s.pc.gen)
    (hrow : s.pc.phase.stepsTo st.phase = true) (ht : SameTransfer s st) :
    s.honourPu n st = s ∧ s.followPu n st = s.adopt st := by
  have hp : st.phase ≠ s.pc.phase ∧ st.phase ≠ .tripped ∧ (st.phase = .lineup → s.pc.phase = .idle)
      ∧ (s.pc.phase = .idle → st.phase = .lineup) := by
    revert hrow
    cases s.pc.phase <;> cases st.phase <;> simp [Phase.stepsTo]
  obtain ⟨h1, h2, h3, h4⟩ := hp
  have hf : s.followSame st = s.adopt st := by
    rw [State.followSame, if_neg (by simp [h.phase, h1, h2]), if_pos hrow]
  obtain ⟨hc, -⟩ := h.adopt
  refine ⟨State.honourPu_not fun hx => h2 hx.1, ?_⟩
  rw [State.followPu_same hg, hf]
  refine State.compareTransfer_quiet (.inr (.inr ?_))
  have hka := s.adopting_keeps st
  have hkc := (s.adopting st).changePhase_keeps st.phase st.body.nomination.1 st.body.nomination.2
  have htr : (s.adopt st).pc.transfer = (s.adopting st).pc.transfer :=
    (hc.keeps.part .transfer (by decide) : _ = _).trans (hkc.part .transfer (by decide))
  have hrec : (s.adopt st).mr.record = (s.adopted st).mr.record := hc.keeps.part .record (by decide)
  by_cases hi : s.pc.phase = .idle
  · refine .inr (.inr ?_)
    rw [htr, State.adopting, if_pos ⟨hi, h4 hi⟩]
  · have hsame : s.adopting st = s := if_neg fun hx => hi hx.1
    rw [hsame] at htr
    rw [htr]
    refine (ht.resolve_left hi).imp (fun he => ?_) id
    rw [hrec, State.adopted, hsame]
    exact State.changePhase_empty _ _ h.role (fun hl => hi (h3 hl)) h2 he

/-- The parts that an adopted step touches after its phase change. -/
def adoptParts : List Part := reactParts ++ tailParts

/-- R12, R33: PU's STATUS one step on, where nothing hands a cause: the phase change and what calmly follows it. -/
theorem AdoptsStill.followedBy {s : State} {n : Nat} {e : Option Entry} {st : Status} (h : AdoptsStill s st)
    (hr : s.running = true) (hg : st.gen = s.pc.gen) (hrow : s.pc.phase.stepsTo st.phase = true) (ht : SameTransfer s st) :
    s.followedBy n e st = (s.adopt st).takeTail e st ∧ Calm adoptParts (s.adopted st) (s.followedBy n e st) := by
  obtain ⟨h1, h2⟩ := h.follow (n := n) hg hrow ht
  obtain ⟨hc, hd⟩ := h.adopt
  have he : s.followedBy n e st = (s.adopt st).takeTail e st := by rw [State.followedBy, h1, h2]
  have hk := s.adopt_keeps st
  have hx := State.takeTail_calm e st ((hk.running (by decide)).trans hr) ((hk.hasRole (by decide) .pu).trans h.role)
    (.inl hd)
  exact ⟨he, he ▸ (hc.mono (by decide)).trans (hx.mono (by decide))⟩

/-- R4, R12: the phase change of an adopted step. -/
theorem State.adopted_spec {s : State} {st : Status} (hr : s.running = true) (hpu : s.hasRole .pu = false) :
    Keeps (phaseParts ++ [.transfer]) s (s.adopted st) ∧ (s.adopted st).pc.phase = st.phase
      ∧ (s.adopted st).pc.order = orderOf st.phase s.role ∧ (s.adopted st).pc.inHand = s.pc.inHand
      ∧ (s.adopted st).lc.status.isSome = true ∧ (s.adopted st).pc.transfer = (s.adopting st).pc.transfer := by
  have hk := s.adopting_keeps st
  have hc := (s.adopting st).changePhase_keeps st.phase st.body.nomination.1 st.body.nomination.2
  obtain ⟨h1, h2, h3⟩ := (s.adopting st).changePhase_phase st.phase st.body.nomination.1 st.body.nomination.2
  rw [hk.role (by decide)] at h2
  rw [hk.hasRole (by decide), hpu, if_neg (by simp), (hk.part .phase (by decide)).2.1] at h3
  exact ⟨(hk.mono (by decide)).trans (hc.mono (by decide)), h1, h2, h3,
    State.changePhase_status _ _ _ ((hk.running (by decide)).trans hr), hc.part .transfer (by decide)⟩

/-- R36, R104, R115: what O23 and O24 ask of an adoption, once PU's STATUS is heard. -/
theorem Heard.adopts {s u : State} {n : Nat} {st : Status} (hu : Heard s n st u) (hpu : u.hasRole .pu = false)
    (hp : s.pc.phase ≠ .tripped) (hq : QuietEntry s n st) (hv : st.phase = .opening → NoValveFault s) :
    AdoptsStill u st where
  role := hpu
  phase := by rw [hu.same.1]; exact hp
  peers e he hg := by
    rcases hu.entries e he with ⟨-, h, -⟩ | ⟨hn, hm⟩
    · rw [h]
      decide
    · exact hq.peers e hm hg hn
  scan := by
    obtain ⟨p, hp⟩ := hu.state
    rw [hp]
    exact hq.scan
  separation := by
    rw [hu.keeps.separated (by decide)]
    cases h : s.valveRole
    · rfl
    · simp [hq.separation h]
  valves ho := by
    obtain ⟨p, hp⟩ := hu.state
    rw [hp]
    exact hv ho

theorem Heard.sameTransfer {s u : State} {n : Nat} {st : Status} (hu : Heard s n st u) (hq : QuietEntry s n st) :
    SameTransfer u st := by
  obtain ⟨h1, -, -, -, h5, h6, -⟩ := hu.same
  rw [SameTransfer, h1, h5, h6]
  exact hq.transfer

/-! ## The reset followed -/

theorem Heard.causeActive {s u : State} {n : Nat} {st : Status} (hu : Heard s n st u) (c : Cause) :
    u.causeActive c = ({ s with sr := u.sr } : State).causeActive c := by
  obtain ⟨p, hp⟩ := hu.state
  rw [hp]
  cases c <;> rfl

/-- R68: the CAUSE flag that PU's STATUS finds. -/
theorem Heard.causeFlag {s u : State} {n : Nat} {st : Status} (hu : Heard s n st u) :
    u.causeFlag = true ↔ ∃ l ∈ s.tu.latched, ({ s with sr := u.sr } : State).causeActive l.cause = true := by
  obtain ⟨-, -, -, -, -, -, -, h8⟩ := hu.same
  simp only [State.causeFlag, h8, List.any_eq_true, hu.causeActive]

/-- The follower's trip record cleared under the new generation. -/
theorem State.reset_cleared (u : State) (g : BitVec 8) :
    Keeps (clearParts ++ [.generation]) u (u.adoptGen g).clearTripRecord
      ∧ (u.adoptGen g).clearTripRecord.pc.gen = g ∧ (u.adoptGen g).clearTripRecord.tu.firstOut = none
      ∧ (u.adoptGen g).clearTripRecord.tu.latched = [] := by
  obtain ⟨c1, c2, -⟩ := (u.adoptGen g).clearTripRecord_cleared
  exact ⟨((u.adoptGen_keeps _).mono (by decide)).trans ((State.clearTripRecord_keeps _).mono (by decide)),
    ((State.clearTripRecord_keeps _).part .generation (by decide) : _ = _).trans (u.adoptGen_gen _), c1, c2⟩

section
variable {u : State} {n : Nat} {st : Status} {e : Option Entry} (hr : u.running = true) (hpu : u.hasRole .pu = false)
  (hg : st.gen ≠ u.pc.gen) (hp : u.pc.phase = .tripped)
include hr hpu hg hp

/-- R74: a cause keeps the follower TRIPPED under the new generation, with its TRIP. -/
theorem State.reset_stays (hph : st.phase = .ended ∨ st.phase = .tripped) (hc : u.causeFlag = true) :
    (u.followedBy n e st).pc.gen = st.gen ∧ (u.followedBy n e st).pc.phase = .tripped
      ∧ (u.followedBy n e st).tu.firstOut = u.tu.firstOut ∧ (u.followedBy n e st).tu.latched = u.tu.latched
      ∧ (u.followedBy n e st).lc.trip.isSome = true := by
  have hk : Keeps [.generation, .frames] u (u.adoptGen st.gen).stayTripped :=
    (u.adoptGen_keeps _).trans ((State.stayTripped_keeps _).mono (by decide))
  have hx := (hk.part .phase (by decide)).1.trans hp
  have hf : u.followPu n st = (u.adoptGen st.gen).stayTripped := by
    rw [State.followPu_other hg, State.followOther_stays hp hph hc, State.compareTransfer_quiet (.inl hx)]
  have hgen : (u.adoptGen st.gen).stayTripped.pc.gen = st.gen :=
    ((State.stayTripped_keeps _).part .generation (by decide) : _ = _).trans (u.adoptGen_gen _)
  have htrip : (u.adoptGen st.gen).stayTripped.lc.trip.isSome = true :=
    State.ask_trip_placed (((u.adoptGen_keeps st.gen).running (by decide)).trans hr)
  rw [State.followedBy, State.honourPu_not fun h => hg h.2, hf]
  have hc := State.takeTail_calm e st ((hk.running (by decide)).trans hr) ((hk.hasRole (by decide) .pu).trans hpu)
    (.inr hx)
  obtain ⟨t1, t2⟩ := hc.tripRecord (by decide)
  obtain ⟨k1, k2, -⟩ := hk.part .tripRecord (by decide)
  exact ⟨(State.takeTail_gen _ _ _).trans hgen, hc.phase.trans hx, t1.trans k1, t2.trans k2,
    hc.onward.trip.elim (fun h => by rw [h]; exact htrip) And.left⟩

/-- R71, R74: PU's reset shown as a trip, where no cause is standing. -/
theorem State.reset_tripped (hph : st.phase = .tripped) (hc : u.causeFlag = false) :
    (u.followedBy n e st).pc.gen = st.gen ∧ (u.followedBy n e st).pc.phase = .tripped
      ∧ (u.followedBy n e st).tu.latched = []
      ∧ (u.followedBy n e st).tu.firstOut = some ⟨st.firstCause, .remoteOrigin,
          if st.firstCause = none ∨ st.firstOrigin = 0 then n else st.firstOrigin, none⟩ := by
  obtain ⟨hk, hgen, hf, hl⟩ := u.reset_cleared st.gen
  rw [State.followedBy, State.honourPu_not fun h => hg h.2, State.followPu_other hg,
    State.followOther_tripped hp hph hc]
  have hxp := (hk.part .phase (by decide)).1.trans hp
  have hxr := (hk.running (by decide)).trans hr
  have hxpu := (hk.hasRole (by decide) .pu).trans hpu
  generalize (u.adoptGen st.gen).clearTripRecord = x at *
  have hkh := x.honour_keeps n st.firstCause st.firstOrigin
  have hfo := x.honour_firstOut n st.firstCause st.firstOrigin
  have hla := State.honour_latched n st.firstCause st.firstOrigin hxp
  have hph' := x.honour_phase n st.firstCause st.firstOrigin
  rw [State.compareTransfer_quiet (.inl hph')]
  have hc := State.takeTail_calm e st ((hkh.running (by decide)).trans hxr) ((hkh.hasRole (by decide) .pu).trans hxpu)
    (.inr hph')
  obtain ⟨t1, t2⟩ := hc.tripRecord (by decide)
  rw [hf] at hfo
  exact ⟨(State.takeTail_gen _ _ _).trans ((hkh.part .generation (by decide) : _ = _).trans hgen), hc.phase.trans hph',
    t2.trans (hla.trans hl), t1.trans hfo⟩

/-- R71, R74, R152: PU's reset, where no cause is standing: ENDED, with the trip record clear and an OPEN record
sampled. -/
theorem State.reset_ended (hph : st.phase = .ended) (hc : u.causeFlag = false)
    (ht : u.mr.record.state = .empty ∨ st.transfer = 0 ∨ st.transfer = u.pc.transfer) :
    (u.followedBy n e st).pc.phase = .ended ∧ (u.followedBy n e st).tu.firstOut = none
      ∧ (u.followedBy n e st).tu.latched = [] ∧ (u.followedBy n e st).tu.cause = false
      ∧ (u.mr.record.state = .opened →
          (u.followedBy n e st).mr.record.state = .sampled ∧ (u.followedBy n e st).mr.record.sampleKind = .forced) := by
  obtain ⟨hk, hgen, hf, hl⟩ := u.reset_cleared st.gen
  rw [State.followedBy, State.honourPu_not fun h => hg h.2, State.followPu_other hg,
    State.followOther_ended hp hph hc]
  have hxr := (hk.running (by decide)).trans hr
  have hxpu := (hk.hasRole (by decide) .pu).trans hpu
  have hxrec : _ = u.mr.record := hk.part .record (by decide)
  have hxtr : _ = u.pc.transfer := hk.part .transfer (by decide)
  generalize (u.adoptGen st.gen).clearTripRecord = x at *
  have hch := x.changePhase_keeps .ended 0 0
  obtain ⟨hcp, hco, -⟩ := x.changePhase_phase .ended 0 0
  have hstill : Calm reactParts (x.changePhase .ended 0 0) (x.stepTo .ended 0 0) ∧ (x.stepTo .ended 0 0).orderDue = false :=
    ReactsStill.react {
      refused := fun h => absurd (hcp.symm.trans h) (by decide)
      silent := fun h => absurd (hcp.symm.trans h) (by decide)
      faults := fun _ h => absurd h (by rw [hcp]; decide)
      opens := fun h => absurd (hco.symm.trans h) (by simp [orderOf])
      separation := .inr (.inr hcp) }
  obtain ⟨hs, hd⟩ := hstill
  have hsk := x.stepTo_keeps .ended 0 0
  have hrec : (x.stepTo .ended 0 0).mr.record = (x.changePhase .ended 0 0).mr.record := hs.keeps.part .record (by decide)
  have hquiet : (x.stepTo .ended 0 0).compareTransfer st = x.stepTo .ended 0 0 := by
    refine State.compareTransfer_quiet (.inr (.inr (ht.imp (fun he => ?_) (.imp_right fun h => ?_))))
    · rw [hrec]
      exact State.changePhase_empty 0 0 hxpu (by decide) (by decide) (by rw [hxrec]; exact he)
    · rw [h, ← hxtr]
      exact (hsk.part .transfer (by decide) : _ = _).symm
  rw [hquiet]
  have hsr := (hsk.running (by decide)).trans hxr
  have hspu := (hsk.hasRole (by decide) .pu).trans hxpu
  have hcalm := State.takeTail_calm e st hsr hspu (.inl hd)
  obtain ⟨t1, t2⟩ := hcalm.tripRecord (by decide)
  obtain ⟨s1, s2⟩ := hs.tripRecord (by decide)
  obtain ⟨c1, c2, -⟩ := hch.part .tripRecord (by decide)
  have hlat := t2.trans (s2.trans (c2.trans hl))
  refine ⟨hcalm.phase.trans (hs.phase.trans hcp), t1.trans (s1.trans (c1.trans hf)), hlat,
    State.takeTail_cause e st hsr hspu hlat, fun ho => ?_⟩
  obtain ⟨g1, g2, -⟩ := State.changePhase_ended_sampled (s := x) 0 0 (by rw [hxrec]; exact ho)
  rw [State.takeTail_shut e st hsr hspu hd (by rw [hrec, g1]; decide), hrec]
  exact ⟨g1, g2⟩

omit hr hpu in
/-- R74: the new generation is adopted with the reset, whatever else it does. -/
theorem State.reset_gen (hph : st.phase = .ended ∨ st.phase = .tripped) : (u.followedBy n e st).pc.gen = st.gen := by
  obtain ⟨-, hgen, -⟩ := u.reset_cleared st.gen
  have hf : (u.followOther n st).pc.gen = st.gen := by
    cases hc : u.causeFlag with
    | true =>
      rw [State.followOther_stays hp hph hc]
      exact ((State.stayTripped_keeps _).part .generation (by decide) : _ = _).trans (u.adoptGen_gen _)
    | false =>
      rcases hph with hph | hph
      · rw [State.followOther_ended hp hph hc]
        exact ((State.stepTo_keeps _ _ _ _).part .generation (by decide) : _ = _).trans hgen
      · rw [State.followOther_tripped hp hph hc]
        exact ((State.honour_keeps _ _ _ _).part .generation (by decide) : _ = _).trans hgen
  rw [State.followedBy, State.honourPu_not fun h => hg h.2, State.followPu_other hg, State.takeTail_gen]
  exact ((State.compareTransfer_keeps _ _).part .generation (by decide) : _ = _).trans hf

end

/-- R12: the rows of the step table that a follower adopts, TRIPPED apart. -/
theorem stepsTo_of_row {p q : Phase} (h : (p, q) ∈
    ([(.idle, .lineup), (.lineup, .idle), (.lineup, .opening), (.opening, .starting), (.opening, .closing),
      (.starting, .pumping), (.pumping, .topping), (.starting, .stopping), (.pumping, .stopping),
      (.topping, .stopping), (.pumping, .paused), (.topping, .paused), (.paused, .starting),
      (.paused, .stopping), (.stopping, .closing), (.closing, .ended), (.ended, .idle)] : List (Phase × Phase))) :
    p.stepsTo q = true ∧ p ≠ .tripped ∧ (q = .lineup ↔ p = .idle) := by
  revert h
  cases p <;> cases q <;> decide

section
variable {s u : State} {n : Nat} {st : Status} {e : Option Entry} (hu : Heard s n st u) (hr : u.running = true)
  (hpu : u.hasRole .pu = false)
include hu hr hpu

/-- R12: a phase one step on is adopted. -/
theorem Heard.adopted (hg : st.gen = u.pc.gen) (hs : u.pc.phase.stepsTo st.phase = true) (hn : s.pc.phase ≠ .tripped)
    (hl : u.pc.phase = .idle → st.phase = .lineup) (hq : QuietEntry s n st) (hv : st.phase = .opening → NoValveFault s) :
    (u.followedBy n e st).pc.phase = st.phase ∧ (u.followedBy n e st).pc.gen = u.pc.gen
      ∧ (u.followedBy n e st).pc.inHand = s.pc.inHand ∧ (u.followedBy n e st).tu.firstOut = s.tu.firstOut
      ∧ (u.followedBy n e st).tu.latched = s.tu.latched ∧ (u.followedBy n e st).lc.status.isSome = true
      ∧ (u.followedBy n e st).pc.transfer = if u.pc.phase = .idle then st.transfer else u.pc.transfer := by
  obtain ⟨-, -, h3, -, -, -, h7, h8⟩ := hu.same
  obtain ⟨-, hc⟩ := (hu.adopts hpu hn hq hv).followedBy (n := n) (e := e) hr hg hs (hu.sameTransfer hq)
  obtain ⟨hk, hp, -, hi, hst, htr⟩ := State.adopted_spec (st := st) hr hpu
  obtain ⟨t1, t2⟩ := hc.tripRecord (by decide)
  obtain ⟨k1, k2, -⟩ := hk.part .tripRecord (by decide)
  refine ⟨hc.phase.trans hp, (hc.keeps.part .generation (by decide) : _ = _).trans (hk.part .generation (by decide)),
    hc.inHand.trans (hi.trans h3), t1.trans (k1.trans h7), t2.trans (k2.trans h8), hc.onward.status hst,
    (hc.keeps.part .transfer (by decide) : _ = _).trans (htr.trans ?_)⟩
  by_cases hidle : u.pc.phase = .idle
  · rw [State.adopting, if_pos ⟨hidle, hl hidle⟩, if_pos hidle]
  · rw [State.adopting, if_neg fun h => hidle h.1, if_neg hidle]

omit hu in
/-- R26, R69: a STATUS of PU in TRIPPED under the follower's generation is a remote trip. -/
theorem State.followedBy_remote (hg : st.gen = u.pc.gen) (ht : st.phase = .tripped) :
    (u.followedBy n e st).pc.phase = .tripped ∧ (u.followedBy n e st).pc.gen = u.pc.gen
      ∧ (u.followedBy n e st).tu.firstOut = some (u.tu.firstOut.getD ⟨st.firstCause, .remoteOrigin,
          if st.firstCause = none ∨ st.firstOrigin = 0 then n else st.firstOrigin, none⟩) := by
  have hk := u.honour_keeps n st.firstCause st.firstOrigin
  have hkg : _ = u.pc.gen := hk.part .generation (by decide)
  have hf : (u.honour n st.firstCause st.firstOrigin).followPu n st = u.honour n st.firstCause st.firstOrigin := by
    rw [State.followPu_same (by rw [hkg]; exact hg), State.followSame_still (.inr (.inr ht)),
      State.compareTransfer_quiet (.inr (.inl ht))]
  rw [State.followedBy, State.honourPu, if_pos ⟨ht, hg⟩, hf]
  exact ⟨(State.takeTail_trips e st ((hk.running (by decide)).trans hr) ((hk.hasRole (by decide) .pu).trans hpu)).stays
      (u.honour_phase _ _ _), (State.takeTail_gen _ _ _).trans hkg,
    (State.takeTail_onward e st _).firstOut _ (u.honour_firstOut _ _ _)⟩

omit hu in
/-- R12: in TRIPPED no phase of PU under the follower's generation moves it. -/
theorem State.followedBy_tripped (hg : st.gen = u.pc.gen) (ht : u.pc.phase = .tripped) :
    (u.followedBy n e st).pc.phase = .tripped ∧ (u.followedBy n e st).pc.gen = u.pc.gen
      ∧ (u.followedBy n e st).tu.latched = u.tu.latched := by
  have hk := u.honourPu_keeps n st
  have hx : (u.honourPu n st).pc.phase = .tripped ∧ (u.honourPu n st).tu.latched = u.tu.latched := by
    unfold State.honourPu
    split
    · exact ⟨u.honour_phase _ _ _, State.honour_latched _ _ _ ht⟩
    · exact ⟨ht, rfl⟩
  have hkg : _ = u.pc.gen := hk.part .generation (by decide)
  have hf : (u.honourPu n st).followPu n st = u.honourPu n st := by
    rw [State.followPu_same (by rw [hkg]; exact hg), State.followSame_still (.inl hx.1),
      State.compareTransfer_quiet (.inl hx.1)]
  rw [State.followedBy, hf]
  have hc := State.takeTail_calm e st ((hk.running (by decide)).trans hr) ((hk.hasRole (by decide) .pu).trans hpu)
    (.inr hx.1)
  exact ⟨hc.phase.trans hx.1, (State.takeTail_gen _ _ _).trans hkg, (hc.tripRecord (by decide)).2.trans hx.2⟩

omit hu in
/-- R14: another phase of PU under another generation latches PHASE under the new one. -/
theorem State.followedBy_mismatch (hg : st.gen ≠ u.pc.gen) (hn : st.phase ≠ .tripped)
    (hne : ¬ (u.pc.phase = .tripped ∧ st.phase = .ended)) (hl : u.hasLatched .phase = false) :
    (u.followedBy n e st).pc.gen = st.gen ∧ PhaseTripped (u.followedBy n e st) := by
  have hk := u.adoptGen_keeps st.gen
  have hla : (u.adoptGen st.gen).hasLatched .phase = false := by
    have h := (hk.part .tripRecord (by decide)).2.1
    simpa only [State.hasLatched, h] using hl
  have hf : u.followPu n st = ((u.adoptGen st.gen).handCause .phase none).compareTransfer st := by
    rw [State.followPu_other hg, State.followOther_mismatch hn hne]
  refine ⟨?_, State.followedBy_phase hr hpu (fun h => hg h.2)
    (hf ▸ (State.handPhase_tripped ((hk.running (by decide)).trans hr) hla).compare)⟩
  rw [State.followedBy, State.honourPu_not fun h => hg h.2, hf, State.takeTail_gen]
  exact ((State.compareTransfer_keeps _ _).part .generation (by decide) : _ = _).trans
    (((State.handCause_keeps _ _ _).part .generation (by decide) : _ = _).trans (u.adoptGen_gen _))

end

end Sys2Proof.Machine

open Sys2Proof Sys2Proof.Machine

/-- Settles O23: each case names its branch of the follower rule; what follows PU's STATUS then hands nothing more, or
takes nothing back. -/
theorem followerFollows : Obligations.FollowerFollows := by
  intro s n st hw
  obtain ⟨u, e, hu, hr, hpu, hx⟩ := hw.heard
  change exec .rosterTakeFrame s = .next (u.followedBy n e st) at hx
  obtain ⟨h1, h2, h3, h4, h5, h6, h7, h8⟩ := hu.same
  have hlatch : u.hasLatched .phase = s.hasLatched .phase := by simp only [State.hasLatched, h8]
  have hkeep (hc : Calm tailParts u (u.followedBy n e st)) :
      (u.followedBy n e st).pc.phase = u.pc.phase ∧ (u.followedBy n e st).pc.gen = u.pc.gen
        ∧ (u.followedBy n e st).tu.firstOut = u.tu.firstOut ∧ (u.followedBy n e st).tu.latched = u.tu.latched :=
    ⟨hc.phase, hc.keeps.part .generation (by decide), (hc.tripRecord (by decide)).1, (hc.tripRecord (by decide)).2⟩
  have hcause := hu.causeFlag
  rw [← u.followedBy_roster (n := n) (st := st) (e := e)] at hcause
  have hflag (hc : ∀ l ∈ s.tu.latched, ({ s with sr := (u.followedBy n e st).sr } : State).causeActive l.cause = false) :
      u.causeFlag = false := by
    rw [← Bool.not_eq_true, hcause]
    rintro ⟨l, hl, ha⟩
    exact absurd ha (by simp [hc l hl])
  rw [← h1, ← h2, ← h4, ← h5, ← h6, ← hlatch]
  refine ⟨fun hg hq hv hrow => ⟨_, hx, ?_⟩, fun hg hp hn ho ht => ⟨_, hx, ?_⟩, fun hg hp hn h3 h4 h5 hl => ⟨_, hx, ?_⟩,
    fun hg hn hnt hne hst hl => ⟨_, hx, ?_⟩, fun hg ht => ⟨_, hx, ?_⟩, fun hg ht => ⟨_, hx, ?_⟩,
    fun hg hn ht ho => ⟨_, hx, ?_⟩, fun hg ht hp => ⟨_, hx, State.reset_gen hg ht hp, fun hc => ?_, fun hc hp ht' => ?_,
      fun hc hp => ?_⟩, fun hg hn hne hl => ⟨_, hx, State.followedBy_mismatch hr hpu hg hn hne hl⟩⟩
  · obtain ⟨hs, hn, hl⟩ := stepsTo_of_row hrow
    exact hu.adopted hr hpu hg hs (h1 ▸ hn) hl.2 hq fun _ => hv
  · rw [← h7, ← h8]
    refine hkeep (State.followedBy_calm hr hpu (fun h => hn (hp.symm.trans h.1)) ?_ (.inl (State.orderDue_none ho)))
    rw [State.followPu_same hg, State.followSame_still (.inr (.inl hp)), State.compareTransfer_quiet (.inr (.inr ht))]
  · have hst : st.phase ≠ .tripped := fun h => hn (hp.symm.trans h)
    refine State.followedBy_phase hr hpu (fun h => hst h.1) ?_
    rw [State.followPu_same hg, State.followSame_still (.inr (.inl hp)), State.compareTransfer_differs hn hst h3 h4 h5]
    exact State.handPhase_tripped hr hl
  · refine State.followedBy_phase hr hpu (fun h => hnt h.1) ?_
    rw [State.followPu_same hg, State.followSame, if_neg (by simp [hn, hnt, hne]), if_neg (by simp [hst])]
    exact (State.handPhase_tripped hr hl).compare
  · rw [← h7]
    exact State.followedBy_remote hr hpu hg ht
  · rw [← h8]
    exact State.followedBy_tripped hr hpu hg ht
  · rw [← h7, ← h8]
    refine hkeep (State.followedBy_calm hr hpu (fun h => hg h.2) ?_ (.inl (State.orderDue_none ho)))
    rw [State.followPu_other hg, State.followOther, if_neg hn, if_pos ht, State.compareTransfer_quiet (.inr (.inl ht))]
  · rw [← h7, ← h8]
    exact (State.reset_stays hr hpu hg ht hp (hcause.2 hc)).2
  · exact State.reset_ended hr hpu hg ht hp (hflag hc) ht'
  · exact (State.reset_tripped hr hpu hg ht hp (hflag hc)).2
end

section
/-! SUPPORT. What the entry into a phase does to the channels, the tanks and the standing order of a follower (R18 to R25,
R85, R121, R125). -/

namespace Sys2Proof.Machine

/-! ## The hold-off -/

theorem State.putChannel_holdOff (s : State) (n : Ch) (c : Channel) : (s.putChannel n c).vp.holdOff = s.vp.holdOff :=
  ((s.putChannel_from n c).part .channels (by decide)).2.1

theorem State.eachChannel_holdOff {f : State → Ch → State} (hf : ∀ s n, (f s n).vp.holdOff = s.vp.holdOff) (l : List Ch)
    (s : State) : (s.eachChannel f l).vp.holdOff = s.vp.holdOff := by
  induction l generalizing s with
  | nil => rfl
  | cons n l ih => exact (ih (f s n)).trans (hf s n)

/-! ## A roster change at a station that does not hold -/

/-- The parts that a roster change touches where no standing order is due and the station does not hold. -/
def unheldParts : List Part := watchParts ++ [.tanks, .record, .leak]

/-- R90: only a HOLDING station releases. -/
theorem State.rosterRest_unheld {s : State} (h : s.vp.holdOff ≠ .holding) : Keeps unheldParts s s.rosterRest := by
  have hr : s.releaseIfStopped = s := by simp [State.releaseIfStopped, h]
  unfold State.rosterRest
  rw [hr]
  refine Keeps.trans ?_ ((State.watch_keeps _).mono (by decide))
  refine Keeps.trans ?_ ((State.watchLeak_keeps _).mono (by decide))
  refine Keeps.trans ?_ ((State.judgeEnds_keeps _).mono (by decide))
  refine Keeps.trans ?_ ((State.readExternalEnd_keeps _).mono (by decide))
  exact ((s.readRoute_keeps).mono (by decide)).trans ((State.takeReceived_keeps _).mono (by decide))

/-- R29, R33: what follows PU's STATUS where no standing order is due and the station does not hold. -/
theorem State.takeTail_unheld {s : State} (e : Option Entry) (st : Status) (h : s.running = true) (hpu : s.hasRole .pu = false)
    (hd : s.orderDue = false) (hh : s.vp.holdOff ≠ .holding) :
    Keeps (unheldParts ++ [.pressure, .receive]) s (s.takeTail e st) := by
  have hk := s.takePuStatus_keeps e st
  unfold State.takeTail
  rw [State.rosterChanged_follower ((hk.running (by decide)).trans h) ((hk.hasRole (by decide) .pu).trans hpu),
    State.runOrder_notDue ((hk.orderDue (by decide)).trans hd)]
  have hh' : (s.takePuStatus e st).vp.holdOff ≠ .holding := by
    rw [(hk.part .channels (by decide)).2.1]
    exact hh
  exact ((hk.mono (by decide)).trans ((State.rosterRest_unheld hh').mono (by decide))).trans
    ((State.delivered_keeps _).mono (by decide))

/-! ## The adoption of a step into an active phase -/

/-- The state in which the standing order of an adopted step is judged at its entry. -/
def State.atEntry (s : State) (st : Status) : State := (s.adopted st).settled (s.adopting st).pc.phase

theorem State.atEntry_keeps {s : State} {st : Status} (hr : s.running = true) (hpu : s.hasRole .pu = false)
    (ha : st.phase.active = true) : Keeps (watchParts ++ [.scan]) (s.adopted st) (s.atEntry st) :=
  State.settled_active (by rw [(State.adopted_spec hr hpu).2.1]; exact ha)

/-- R18, R115: an adoption that hands no cause is the phase change, the levels, the standing order, and the levels. -/
theorem AdoptsStill.adopt_run {s : State} {st : Status} (h : AdoptsStill s st) (hr : s.running = true)
    (ha : st.phase.active = true) :
    s.adopt st = (s.atEntry st).runOrder.watch
      ∧ ((s.atEntry st).pc.order = some .openVc1 → (s.atEntry st).vp.channels.n1.refusesOpen = false) := by
  have hs := h.reactsStill
  have hk := State.atEntry_keeps hr h.role ha
  have hk' := (State.adopted_spec (st := st) hr h.role).1
  have ho : (s.atEntry st).pc.order = some .openVc1 → (s.atEntry st).vp.channels.n1.refusesOpen = false :=
    fun hv => hs.opens ((hk.part .phase (by decide)).2.2.symm.trans hv)
  obtain ⟨hc, -⟩ := State.runOrder_calm (.inr ho)
  refine ⟨?_, ho⟩
  rw [s.adopt_eq, State.react_calm hs.refused hs.silent hs.faults]
  change (s.atEntry st).runOrder.separate.watch = _
  rw [State.separate_off]
  rw [hc.keeps.separated (by decide), hk.separated (by decide), hk'.separated (by decide)]
  exact h.separation

/-! ## The standing order -/

/-- R21, R24: a standing order is due where its condition holds in the table. -/
theorem State.orderDue_iff {s : State} {o : Order} (h : s.pc.order = some o) : s.orderDue = true ↔ OrderHolds s o := by
  unfold State.orderDue
  rw [h]
  cases o with
  | openVc1 =>
    change (if s.hasRole .sv then s.pathProved else s.svOpen) = true ↔ OrderHolds s .openVc1
    unfold OrderHolds
    cases s.hasRole .sv with
    | true => exact State.everyTw_iff tests_flag
    | false => exact State.roleShows_iff tests_valveOpen
  | closeVc1 => exact State.roleShows_iff tests_flag
  | closeTanks => exact State.roleShows_iff tests_flag

/-- The condition of a standing order reads the role, the table and the generation. -/
theorem OrderHolds.congr {s t : State} (h1 : t.sl = s.sl) (h2 : t.sr = s.sr) (h3 : t.pc.gen = s.pc.gen) (o : Order) :
    OrderHolds t o ↔ OrderHolds s o := by
  have hr : t.hasRole .sv = s.hasRole .sv := by simp only [State.hasRole, State.role, h1]
  cases o <;> simp only [OrderHolds, RoleShowing, EveryTwShows, hr, h2, Showing.congr h3]

/-- R85: a close command leaves a channel that closes, or is shut. -/
theorem Channel.close_closes (c : Channel) (os cs : Bool) : (c.close os cs).Closes := by
  have hp (d : Channel) (hc : d.command = .close) (hs : d.state = .closing) (hn : d.pending = false) :
      (d.progress os cs).Closes := by
    unfold Channel.progress
    split
    · exact ⟨.inr (by simp [Channel.arrive, Channel.driveOff, hc]), rfl⟩
    · split
      · exact ⟨.inl hs, hn⟩
      · exact ⟨.inl hs, hn⟩
  unfold Channel.close
  cases hs : c.state with
  | shut => exact ⟨.inr rfl, rfl⟩
  | closing => exact ⟨.inl rfl, rfl⟩
  | opened | stopped | fault | opening => exact hp _ rfl rfl rfl

/-- R84, R86: an open command to a channel that is SHUT or STOPPED. -/
theorem Channel.open'_resting {c : Channel} {os cs : Bool} (h : c.state = .shut ∨ c.state = .stopped)
    (hp : c.pending = false) :
    if os = true ∧ cs = false then (c.open' os cs).state = .opened ∧ (c.open' os cs).command = .none
    else (c.open' os cs).state = .opening ∧ (c.open' os cs).command = .opened := by
  have ho : c.open' os cs = Channel.progress { c with command := .opened, state := .opening } os cs := by
    rcases h with h | h <;> simp [Channel.open', hp, h]
  rw [ho]
  cases os <;> cases cs <;> simp [Channel.progress, Channel.arrived, Channel.arrive]
  all_goals split <;> simp [Channel.driveOn]

/-- R21, R24: a standing order carried out. -/
theorem State.carryOrder_done {s : State} {o : Order} (h : o = .openVc1 → s.vp.channels.n1.refusesOpen = false) :
    OrderDone s (s.carryOrder o) o := by
  have hn (c : Channel) (m : Ch) (hm : m ≠ .n1) : (s.putChannel .n1 c).vp.channels.get m = s.vp.channels.get m := by
    rw [s.putChannel_get, if_neg hm]
  have h1 (c : Channel) : (s.putChannel .n1 c).vp.channels.n1 = c := (s.putChannel_get .n1 .n1 c).trans (if_pos rfl)
  cases o with
  | openVc1 =>
    have ho : s.carryOrder .openVc1 = s.openChannel .n1 := by
      simp only [State.carryOrder, State.openVc1, h rfl, Bool.false_eq_true, if_false]
    rw [ho]
    refine ⟨fun hs hp => ?_, hn _⟩
    rw [State.openChannel, h1]
    exact Channel.open'_resting hs hp
  | closeVc1 => exact ⟨(h1 _).symm ▸ Channel.close_closes _ _ _, hn _⟩
  | closeTanks =>
    have hget (m : Ch) := State.eachChannel_get (f := State.closeChannel) (g := Channel.close) (fun _ _ => rfl)
      (l := s.channelsUsed) (List.Nodup.filter _ (by decide)) s m
    have hmem (m : Ch) : m ∈ s.channelsUsed ↔ s.channelUsed m = true := by simp [State.channelsUsed, Ch.mem_all]
    refine ⟨fun m hm => ?_, fun m hm => ?_⟩
    · change ((s.eachChannel State.closeChannel s.channelsUsed).vp.channels.get m).Closes
      rw [hget m, if_pos ((hmem m).2 hm)]
      exact Channel.close_closes _ _ _
    · change (s.eachChannel State.closeChannel s.channelsUsed).vp.channels.get m = _
      rw [hget m, if_neg (by rw [hmem, hm]; decide)]

/-- What an order carried out is judged by. -/
theorem OrderDone.congr {s s' t t' : State} {o : Order} (h : OrderDone s t o) (hc : s'.vp.channels = s.vp.channels)
    (hi : s'.inputs = s.inputs) (hl : s'.sl = s.sl) (ht : t'.vp.channels = t.vp.channels) : OrderDone s' t' o := by
  have h1 (n : Ch) : s'.openOn n = s.openOn n := by simp only [State.openOn, hi]
  have h2 (n : Ch) : s'.shutOn n = s.shutOn n := by simp only [State.shutOn, hi]
  have h3 (n : Ch) : s'.channelUsed n = s.channelUsed n := by simp only [State.channelUsed, State.role, hl]
  cases o <;> simpa only [OrderDone, hc, ht, h1, h2, h3] using h

/-- R18: a standing order whose condition holds is carried out and is standing no more. -/
theorem State.runOrder_done {s : State} {o : Order} (ho : s.pc.order = some o) (hd : s.orderDue = true)
    (h : o = .openVc1 → s.vp.channels.n1.refusesOpen = false) :
    OrderDone s s.runOrder o ∧ s.runOrder.pc.order = none ∧ s.runOrder.vp.holdOff = s.vp.holdOff := by
  have hx : s.runOrder = s.dropOrder.carryOrder o := by
    rcases s.runOrder_cases with ⟨hn, -⟩ | ⟨p, -, hp, he⟩
    · rw [hd] at hn
      cases hn
    · rw [ho] at hp
      cases hp
      exact he
  have hk := (State.carryOrder_moves (s := s.dropOrder) h).1
  have hput (t : State) (n : Ch) (c : Channel) := t.putChannel_holdOff n c
  rw [hx]
  refine ⟨(State.carryOrder_done (s := s.dropOrder) h).congr rfl rfl rfl rfl, (hk.part .phase (by decide)).2.2, ?_⟩
  cases o with
  | openVc1 =>
    have hv : s.dropOrder.carryOrder .openVc1 = s.dropOrder.openChannel .n1 := by
      have hr : s.dropOrder.vp.channels.n1.refusesOpen = false := h rfl
      simp only [State.carryOrder, State.openVc1, hr, Bool.false_eq_true, if_false]
    rw [hv]
    exact hput _ _ _
  | closeVc1 => exact hput _ _ _
  | closeTanks => exact State.eachChannel_holdOff (fun t n => t.putChannel_holdOff n _) _ _

end Sys2Proof.Machine
end

section
/-! SUPPORT. The entries and the standing orders of a follower, one by one (R18 to R25). -/

namespace Sys2Proof.Machine

/-! ## A quiet adoption -/

/-- R12: PU's STATUS one step on, where nothing hands a cause: what the follower does with it. -/
theorem PuStatusWaits.adopts {s : State} {n : Nat} {st : Status} (hw : PuStatusWaits s n st) (hq : QuietEntry s n st)
    (hg : st.gen = s.pc.gen) (hs : s.pc.phase.stepsTo st.phase = true) (hn : s.pc.phase ≠ .tripped)
    (hv : st.phase = .opening → NoValveFault s) :
    ∃ u e, Heard s n st u ∧ u.running = true ∧ AdoptsStill u st
      ∧ exec .rosterTakeFrame s = .next ((u.adopt st).takeTail e st)
      ∧ Calm adoptParts (u.adopted st) ((u.adopt st).takeTail e st) := by
  obtain ⟨u, e, hu, hr, hpu, hx⟩ := hw.heard
  obtain ⟨h1, -, -, h4, -⟩ := hu.same
  have ha := hu.adopts hpu hn hq hv
  obtain ⟨he, hc⟩ := ha.followedBy (n := n) (e := e) hr (hg.trans h4.symm) (h1 ▸ hs) (hu.sameTransfer hq)
  exact ⟨u, e, hu, hr, ha, he ▸ hx, he ▸ hc⟩

/-- A follower that is not in IDLE keeps its transfer number. -/
theorem State.adopted_of_busy {s : State} {st : Status} (h : s.pc.phase ≠ .idle) :
    s.adopted st = s.changePhase st.phase st.body.nomination.1 st.body.nomination.2 := by
  rw [State.adopted, State.adopting, if_neg fun hx => h hx.1]

/-- Only BV closes VC1 at CLOSING entry. -/
theorem State.changePhase_closing_from (s : State) (n r : Nat) (h : s.pc.phase ≠ .tripped) :
    ∃ v, Keeps (leftParts ++ endParts) s v
      ∧ Keeps [.frames, .reports] (if s.hasRole .bv then v.closeChannel .n1 else v) (s.changePhase .closing n r) := by
  have hk := s.changePhase_from .closing n r
  rw [State.entryActions_closing (s.left_phase _)] at hk
  have he : Keeps (leftParts ++ endParts) s (if s.pc.phase = .opening then (s.left .closing).setExternalEnd else s.left .closing) :=
    ((State.left_untripped .closing h).mono (by decide)).trans
      (Keeps.iteSelf ((State.setExternalEnd_keeps _).mono (by decide)))
  rw [he.hasRole (by decide)] at hk
  exact ⟨_, he, hk⟩

/-- R20, R24: at OPENING entry TW alone moves channels, and at CLOSING entry BV alone. -/
theorem State.adopted_channels {s : State} {st : Status} (hpu : s.hasRole .pu = false) (hn : s.pc.phase ≠ .tripped)
    (hi : s.pc.phase ≠ .idle)
    (h : st.phase = .opening ∧ s.hasRole .tw = false ∨ st.phase = .closing ∧ s.hasRole .bv = false) :
    Part.same s (s.adopted st) .channels := by
  rw [State.adopted_of_busy hi]
  rcases h with ⟨hp, hr⟩ | ⟨hp, hr⟩ <;> rw [hp]
  · have hk := s.changePhase_from .opening st.body.nomination.1 st.body.nomination.2
    rw [State.entryActions_opening (s.left_phase _), if_neg (by simp [s.left_hasRole, hpu]),
      if_neg (by simp [s.left_hasRole, hr])] at hk
    exact Part.same_trans ((State.left_untripped .opening hn).part .channels (by decide)) (hk.part .channels (by decide))
  · obtain ⟨v, hv, hk⟩ := s.changePhase_closing_from st.body.nomination.1 st.body.nomination.2 hn
    rw [hr, if_neg (by simp)] at hk
    exact Part.same_trans (hv.part .channels (by decide)) (hk.part .channels (by decide))

/-! ## The standing order at its entry -/

/-- R18, R21, R24: the standing order of an adopted step, and its channels. -/
theorem AdoptsStill.order {s : State} {st : Status} {o : Order} {e : Option Entry} (h : AdoptsStill s st)
    (hr : s.running = true) (ha : st.phase.active = true) (ho : orderOf st.phase s.role = some o)
    (hc : Part.same s (s.adopted st) .channels) (hh : s.vp.holdOff ≠ .holding) :
    (OrderHolds s o → ((s.adopt st).takeTail e st).pc.order = none ∧ OrderDone s ((s.adopt st).takeTail e st) o)
      ∧ (¬ OrderHolds s o → ((s.adopt st).takeTail e st).pc.order = some o
          ∧ ((s.adopt st).takeTail e st).vp.channels = s.vp.channels) := by
  obtain ⟨hx, hopen⟩ := h.adopt_run hr ha
  obtain ⟨-, hd⟩ := h.adopt
  have hk := s.adopt_keeps st
  obtain ⟨hk1, -, ho1, -⟩ := State.adopted_spec (st := st) hr h.role
  have hk2 := State.atEntry_keeps hr h.role ha
  have hz : Keeps (phaseParts ++ [.transfer] ++ watchParts ++ [.scan]) s (s.atEntry st) :=
    (hk1.mono (by decide)).trans (hk2.mono (by decide))
  have hzo : (s.atEntry st).pc.order = some o := (hk2.part .phase (by decide)).2.2.trans (ho1.trans ho)
  obtain ⟨z1, z2, -⟩ := Part.same_trans hc (hk2.part .channels (by decide))
  have hholds : (s.atEntry st).orderDue = true ↔ OrderHolds s o := (State.orderDue_iff hzo).trans
    (OrderHolds.congr (hz.part .setup (by decide)) (hz.part .roster (by decide)) (hz.part .generation (by decide)) o)
  have hw := (s.atEntry st).runOrder.watch_keeps
  have htail (hhold : (s.adopt st).vp.holdOff ≠ .holding) :=
    State.takeTail_unheld e st ((hk.running (by decide)).trans hr) ((hk.hasRole (by decide) .pu).trans h.role) hd hhold
  rw [hx] at htail ⊢
  generalize s.atEntry st = z at *
  refine ⟨fun hs => ?_, fun hs => ?_⟩
  · obtain ⟨h1, h2, h3⟩ := State.runOrder_done hzo (hholds.2 hs) fun hv => hopen (hv ▸ hzo)
    have ht := htail (by rw [(hw.part .channels (by decide)).2.1, h3, z2]; exact hh)
    refine ⟨(ht.part .phase (by decide)).2.2.trans ((hw.part .phase (by decide)).2.2.trans h2), h1.congr z1.symm
      (hz.part .inputs (by decide)).symm (hz.part .setup (by decide)).symm
      ((ht.part .channels (by decide)).1.trans (hw.part .channels (by decide)).1)⟩
  · have hnd : z.orderDue = false := by
      rw [← Bool.not_eq_true, hholds]
      exact hs
    rw [State.runOrder_notDue hnd] at hw htail ⊢
    have ht := htail (by rw [(hw.part .channels (by decide)).2.1, z2]; exact hh)
    exact ⟨(ht.part .phase (by decide)).2.2.trans ((hw.part .phase (by decide)).2.2.trans hzo),
      (ht.part .channels (by decide)).1.trans ((hw.part .channels (by decide)).1.trans z1)⟩

/-- R18: the adoption of a step into an active phase that places no standing order. -/
theorem AdoptsStill.noOrder {s : State} {st : Status} {e : Option Entry} (h : AdoptsStill s st) (hr : s.running = true)
    (ha : st.phase.active = true) (ho : orderOf st.phase s.role = none) (hh : (s.adopted st).vp.holdOff ≠ .holding) :
    ∃ z, Keeps (watchParts ++ [.scan]) (s.adopted st) z ∧ z.watch.running = true
      ∧ Keeps (unheldParts ++ [.pressure, .receive]) z.watch ((s.adopt st).takeTail e st)
      ∧ s.adopt st = z.watch := by
  obtain ⟨hx, -⟩ := h.adopt_run hr ha
  obtain ⟨-, hd⟩ := h.adopt
  have hk := s.adopt_keeps st
  obtain ⟨-, -, ho1, -⟩ := State.adopted_spec (st := st) hr h.role
  have hk2 := State.atEntry_keeps hr h.role ha
  have hz : (s.atEntry st).orderDue = false :=
    State.orderDue_none ((hk2.part .phase (by decide)).2.2.trans (ho1.trans ho))
  rw [State.runOrder_notDue hz] at hx
  have hhold : (s.adopt st).vp.holdOff ≠ .holding := by
    rw [hx, ((s.atEntry st).watch_keeps.part .channels (by decide)).2.1, (hk2.part .channels (by decide)).2.1]
    exact hh
  exact ⟨s.atEntry st, hk2, hx ▸ (hk.running (by decide)).trans hr,
    hx ▸ State.takeTail_unheld e st ((hk.running (by decide)).trans hr) ((hk.hasRole (by decide) .pu).trans h.role) hd hhold,
    hx⟩

/-! ## The cases of O24 -/

theorem State.hasRole_unique {s : State} {r r' : Role} (h : s.hasRole r = true) (hn : r ≠ r') : s.hasRole r' = false := by
  rw [State.hasRole_iff] at h
  simp [State.hasRole, h, hn]

/-- R18, R21, R24: the standing orders of OPENING at BV and SV and of CLOSING at SV and TW. -/
theorem order_at_entry {s : State} {n : Nat} {st : Status} {o : Order} (hw : PuStatusWaits s n st) (hq : QuietEntry s n st)
    (hv : NoValveFault s) (hg : st.gen = s.pc.gen) (hh : s.vp.holdOff ≠ .holding)
    (hrow : (s.pc.phase, st.phase)
      ∈ ([(.lineup, .opening), (.opening, .closing), (.stopping, .closing)] : List (Phase × Phase)))
    (ho : st.phase = .opening ∧ s.valveRole = true ∧ o = .openVc1
      ∨ st.phase = .closing ∧ s.hasRole .sv = true ∧ o = .closeVc1
      ∨ st.phase = .closing ∧ s.hasRole .tw = true ∧ o = .closeTanks) :
    ∃ t, exec .rosterTakeFrame s = .next t ∧ t.pc.phase = st.phase
      ∧ (OrderHolds { s with sr := t.sr } o → t.pc.order = none ∧ OrderDone s t o)
      ∧ (¬ OrderHolds { s with sr := t.sr } o → t.pc.order = some o ∧ t.vp.channels = s.vp.channels) := by
  have hphase : s.pc.phase.stepsTo st.phase = true ∧ st.phase.active = true ∧ s.pc.phase ≠ .tripped ∧ s.pc.phase ≠ .idle := by
    revert hrow
    cases s.pc.phase <;> cases st.phase <;> decide
  obtain ⟨hs, ha, hn, hi⟩ := hphase
  obtain ⟨u, e, hu, hr, hau, hx, hc⟩ := hw.adopts hq hg hs hn fun _ => hv
  obtain ⟨hk1, hp1, -⟩ := State.adopted_spec (st := st) hr hau.role
  have husl : u.sl = s.sl := hu.keeps.part .setup (by decide)
  obtain ⟨h1, -, -, h4, -⟩ := hu.same
  have hrole : orderOf st.phase u.role = some o ∧ (st.phase = .opening ∧ u.hasRole .tw = false
      ∨ st.phase = .closing ∧ u.hasRole .bv = false) := by
    rw [hu.keeps.role (by decide), hu.keeps.hasRole (by decide), hu.keeps.hasRole (by decide)]
    rcases ho with ⟨hp, hro, rfl⟩ | ⟨hp, hro, rfl⟩ | ⟨hp, hro, rfl⟩
    · simp only [State.valveRole, Bool.or_eq_true] at hro
      rcases hro with hro | hro
      · exact ⟨by rw [hp, (s.hasRole_iff _).1 hro]; rfl, .inl ⟨hp, State.hasRole_unique hro (by decide)⟩⟩
      · exact ⟨by rw [hp, (s.hasRole_iff _).1 hro]; rfl, .inl ⟨hp, State.hasRole_unique hro (by decide)⟩⟩
    · exact ⟨by rw [hp, (s.hasRole_iff _).1 hro]; rfl, .inr ⟨hp, State.hasRole_unique hro (by decide)⟩⟩
    · exact ⟨by rw [hp, (s.hasRole_iff _).1 hro]; rfl, .inr ⟨hp, State.hasRole_unique hro (by decide)⟩⟩
  have hch := State.adopted_channels hau.role hau.phase (by rw [h1]; exact hi) hrole.2
  have hvp := (hu.keeps.part .channels (by decide))
  obtain ⟨hyes, hno⟩ := hau.order (e := e) hr ha hrole.1 hch (by rw [hvp.2.1]; exact hh)
  have hsr : ((u.adopt st).takeTail e st).sr = u.sr :=
    (hc.keeps.part .roster (by decide) : _ = _).trans (hk1.part .roster (by decide))
  have hholds : OrderHolds { s with sr := ((u.adopt st).takeTail e st).sr } o ↔ OrderHolds u o :=
    OrderHolds.congr (s := u) (t := { s with sr := ((u.adopt st).takeTail e st).sr }) husl.symm hsr h4.symm o
  rw [← hholds] at hyes hno
  refine ⟨_, hx, hc.phase.trans hp1, fun hy => ⟨(hyes hy).1, ?_⟩, fun hn => ⟨(hno hn).1, (hno hn).2.trans hvp.1⟩⟩
  exact (hyes hy).2.congr hvp.1.symm (hu.keeps.part .inputs (by decide)).symm husl.symm rfl

/-- R24: CLOSING at BV closes VC1. -/
theorem closing_at_bv {s : State} {n : Nat} {st : Status} (hw : PuStatusWaits s n st) (hq : QuietEntry s n st)
    (hg : st.gen = s.pc.gen) (hp : s.pc.phase = .opening ∨ s.pc.phase = .stopping) (hst : st.phase = .closing)
    (hbv : s.hasRole .bv = true) (hh : s.vp.holdOff ≠ .holding) :
    ∃ t, exec .rosterTakeFrame s = .next t ∧ t.pc.phase = .closing ∧ t.vp.channels.n1.Closes
      ∧ ∀ m, m ≠ .n1 → t.vp.channels.get m = s.vp.channels.get m := by
  obtain ⟨u, e, hu, hr, hau, hx, hc⟩ := hw.adopts hq hg (by rw [hst]; rcases hp with hp | hp <;> rw [hp] <;> rfl)
    (by rcases hp with hp | hp <;> rw [hp] <;> decide) (by simp [hst])
  obtain ⟨-, hp1, -⟩ := State.adopted_spec (st := st) hr hau.role
  obtain ⟨h1, -⟩ := hu.same
  have hbu := (hu.keeps.hasRole (by decide) .bv).trans hbv
  have hi : u.pc.phase ≠ .idle := by rw [h1]; rcases hp with hp | hp <;> rw [hp] <;> decide
  obtain ⟨v, hv, hk⟩ := u.changePhase_closing_from st.body.nomination.1 st.body.nomination.2 hau.phase
  rw [hbu, if_pos rfl] at hk
  have hsv : Part.same s v .channels := Part.same_trans (hu.keeps.part .channels (by decide)) (hv.part .channels (by decide))
  have hca : Part.same (v.closeChannel .n1) (u.adopted st) .channels := by
    rw [State.adopted_of_busy hi, hst]
    exact hk.part .channels (by decide)
  have hhold : (u.adopted st).vp.holdOff ≠ .holding := by
    rw [hca.2.1, State.closeChannel, State.putChannel_holdOff, hsv.2.1]
    exact hh
  obtain ⟨z, hz, -, ht, hxz⟩ := hau.noOrder (e := e) hr (by rw [hst]; rfl)
    (by rw [hst, (u.hasRole_iff _).1 hbu]; rfl) hhold
  have hct := (ht.part .channels (by decide)).1.trans ((z.watch_keeps.part .channels (by decide)).1.trans
    ((hz.part .channels (by decide)).1.trans hca.1))
  have hget (m : Ch) := v.putChannel_get .n1 m ((v.vp.channels.get .n1).close (v.openOn .n1) (v.shutOn .n1))
  refine ⟨_, hx, hc.phase.trans (hp1.trans hst), ?_, fun m hm => ?_⟩
  · rw [hct]
    change ((v.closeChannel .n1).vp.channels.get .n1).Closes
    rw [State.closeChannel, hget, if_pos rfl]
    exact Channel.close_closes _ _ _
  · rw [hct, State.closeChannel, hget, if_neg hm, hsv.1]

/-- R147, R148: PU's figures take no external end back. -/
theorem State.takePuFigures_externalEnd (s : State) (st : Status) :
    (s.takePuFigures st).mr.record.externalEnd = s.mr.record.externalEnd := by
  have hk (u : State) (k : EndKind) : (u.handEndKind k).mr.record.externalEnd = u.mr.record.externalEnd := by
    rw [u.handEndKind_record]
    split <;> rfl
  unfold State.takePuFigures
  cases st.body with
  | pu _ _ _ d k _ _ =>
    dsimp only
    split
    · exact hk _ _
    · rfl
  | _ => rfl

theorem State.takePuStatus_externalEnd (s : State) (e : Option Entry) (st : Status) :
    (s.takePuStatus e st).mr.record.externalEnd = s.mr.record.externalEnd := by
  have hm : (s.movementIf (s.valveRole && pumpBegins e st)).mr.record = s.mr.record :=
    (s.movementIf_keeps _).part .record (by decide)
  rw [State.takePuStatus, State.takePuFigures_externalEnd, hm]

/-- R149: a roster change takes no external end back. -/
theorem State.rosterRest_externalEnd {s : State} (h : s.mr.record.externalEnd = true) :
    s.rosterRest.mr.record.externalEnd = true := by
  have hk : Keeps (watchParts ++ [.channels, .pressure, .tanks]) s (s.releaseIfStopped).readRoute :=
    (s.releaseIfStopped_keeps.mono (by decide)).trans ((State.readRoute_keeps _).mono (by decide))
  have hr : (s.releaseIfStopped).readRoute.mr.record = s.mr.record := hk.part .record (by decide)
  obtain ⟨v, hv⟩ := ((s.releaseIfStopped).readRoute).takeReceived_record
  have h1 : ((s.releaseIfStopped).readRoute).takeReceived.mr.record.externalEnd = true := by
    rw [hv, hr]
    exact h
  have h2 (u : State) (hu : u.mr.record.externalEnd = true) : u.readExternalEnd.mr.record.externalEnd = true := by
    unfold State.readExternalEnd
    split
    · exact u.setExternalEnd_ends.1.externalEnd hu
    · exact hu
  have hw : s.rosterRest.mr.record
      = (((s.releaseIfStopped).readRoute).takeReceived.readExternalEnd.judgeEnds).mr.record :=
    ((State.watch_keeps _).part .record (by decide) : _ = _).trans ((State.watchLeak_keeps _).part .record (by decide))
  rw [hw]
  exact (State.judgeEnds_ends _).externalEnd (h2 _ h1)

/-- R149: what follows PU's STATUS takes no external end back. -/
theorem State.takeTail_externalEnd {s : State} (e : Option Entry) (st : Status) (h : s.running = true)
    (hpu : s.hasRole .pu = false) (hd : s.orderDue = false) (hx : s.mr.record.externalEnd = true) :
    (s.takeTail e st).mr.record.externalEnd = true := by
  have hk := s.takePuStatus_keeps e st
  have he : (s.takeTail e st).mr.record = (s.takePuStatus e st).rosterChanged.mr.record :=
    (State.delivered_keeps _).part .record (by decide)
  rw [he, State.rosterChanged_follower ((hk.running (by decide)).trans h) ((hk.hasRole (by decide) .pu).trans hpu),
    State.runOrder_notDue ((hk.orderDue (by decide)).trans hd)]
  exact State.rosterRest_externalEnd (by rw [s.takePuStatus_externalEnd]; exact hx)

/-- R17: PATH as the levels leave it. -/
theorem State.watch_path (s : State) : s.watch.pc.path = s.watchTimers.pathNow := by
  simp [State.watch, State.watchFlags, State.watchCause, State.watchAlarms, State.sweepAlarms]

/-- R17: PATH is off in the phases that show none. -/
theorem State.watch_path_off {s : State} (h : s.pc.phase = .closing) : s.watch.pc.path = false := by
  have hp : s.watchTimers.pc.phase = .closing := ((s.watchTimers_keeps).part .phase (by decide)).1.trans h
  rw [s.watch_path, State.pathNow, hp]
  simp

/-- R17: what follows PU's STATUS leaves PATH off in CLOSING. -/
theorem State.takeTail_path {s : State} (e : Option Entry) (st : Status) (h : s.running = true)
    (hpu : s.hasRole .pu = false) (hp : (s.takeTail e st).pc.phase = .closing) : (s.takeTail e st).pc.path = false := by
  have hk := s.takePuStatus_keeps e st
  have hd := (s.takePuStatus e st).rosterChanged.delivered_keeps
  rw [State.takeTail, (hd.part .phase (by decide)).1] at hp
  rw [State.takeTail, (hd.part .flags (by decide)).2.1]
  rw [State.rosterChanged_follower ((hk.running (by decide)).trans h) ((hk.hasRole (by decide) .pu).trans hpu)] at hp ⊢
  exact State.watch_path_off (((State.watch_keeps _).part .phase (by decide)).1.symm.trans hp)

/-- R149: CLOSING from OPENING sets the external end of an OPEN record, and PATH goes off. -/
theorem closing_from_opening {s : State} {n : Nat} {st : Status} (hw : PuStatusWaits s n st) (hq : QuietEntry s n st)
    (hg : st.gen = s.pc.gen) (hp : s.pc.phase = .opening) (hst : st.phase = .closing) (ho : s.mr.record.state = .opened) :
    ∃ t, exec .rosterTakeFrame s = .next t ∧ t.mr.record.externalEnd = true ∧ t.pc.path = false := by
  obtain ⟨u, e, hu, hr, hau, hx, hc⟩ := hw.adopts hq hg (by rw [hst, hp]; rfl) (by rw [hp]; decide) (by simp [hst])
  obtain ⟨-, hp1, -⟩ := State.adopted_spec (st := st) hr hau.role
  obtain ⟨h1, -, -, -, -, h6, -⟩ := hu.same
  have hup := h1.trans hp
  obtain ⟨hcalm, hd⟩ := hau.adopt
  have hk := u.adopt_keeps st
  have hxr := (hk.running (by decide)).trans hr
  have hxpu := (hk.hasRole (by decide) .pu).trans hau.role
  have hrec : (u.adopt st).mr.record = (u.adopted st).mr.record := hcalm.keeps.part .record (by decide)
  refine ⟨_, hx, State.takeTail_externalEnd e st hxr hxpu hd ?_, State.takeTail_path e st hxr hxpu
    (hc.phase.trans (hp1.trans hst))⟩
  rw [hrec, State.adopted_of_busy (by rw [hup]; decide), hst]
  exact (u.changePhase_closing _ _).2 hup (by rw [h6]; exact ho)

/-! ## A standing order at the STATUS of another peer -/

/-- R18, R33: a STATUS of another peer at a follower is a roster change. -/
theorem other_status {s : State} {l : List Byte} {h : Header} {st : Status} (hr : s.running = true)
    (hpu : s.hasRole .pu = false) (hd : s.lc.delivery = some l) (hf : readFrame l = some ⟨.status, h, .status st⟩)
    (hc : s.isClash h = false) (hn : h.role ≠ .pu) (ht : st.phase = .tripped → h.gen ≠ s.pc.gen) :
    ∃ u, Keeps [.roster, .reports] s u ∧ exec .rosterTakeFrame s = .next (u.runOrder.rosterRest.delivered) := by
  have hk := s.enterFrame_keeps (statusFrame h st)
  have hg : (s.enterFrame (statusFrame h st)).pc.gen = s.pc.gen := hk.part .generation (by decide)
  refine ⟨_, hk, ?_⟩
  rw [State.execRosterTakeFrame_status hr hd hf hc, State.afterStatus, State.offerTrip_none (by rw [hg]; exact ht),
    State.takeStatus, if_neg fun hx => hn hx.1,
    State.rosterChanged_follower ((hk.running (by decide)).trans hr) ((hk.hasRole (by decide) .pu).trans hpu)]

/-- R18, R21, R24, R84: a standing order at the STATUS of another peer. -/
theorem order_at_status {s : State} {l : List Byte} {h : Header} {st : Status} {o : Order} (hr : s.running = true)
    (hpu : s.hasRole .pu = false) (hd : s.lc.delivery = some l) (hf : readFrame l = some ⟨.status, h, .status st⟩)
    (hc : s.isClash h = false) (hn : h.role ≠ .pu) (ht : st.phase = .tripped → h.gen ≠ s.pc.gen)
    (hh : s.vp.holdOff ≠ .holding) (ho : s.pc.order = some o) :
    ∃ t, exec .rosterTakeFrame s = .next t
      ∧ (¬ OrderHolds { s with sr := t.sr } o →
          t.pc.phase = s.pc.phase ∧ t.pc.order = some o ∧ t.vp.channels = s.vp.channels)
      ∧ (OrderHolds { s with sr := t.sr } o → (o = .openVc1 → s.vp.channels.n1.state ≠ .fault) →
          t.pc.phase = s.pc.phase ∧ t.pc.order = none ∧ OrderDone s t o)
      ∧ (OrderHolds { s with sr := t.sr } o → o = .openVc1 → s.vp.channels.n1.state = .fault →
          s.vp.channels.n1.pending = false → s.pc.phase.active = true → s.hasLatched .valve = false →
          t.pc.phase = .tripped ∧ ⟨.valve, some 1⟩ ∈ t.tu.latched) := by
  obtain ⟨u, hu, hx⟩ := other_status hr hpu hd hf hc hn ht
  have hsl : u.sl = s.sl := hu.part .setup (by decide)
  have hgen : u.pc.gen = s.pc.gen := hu.part .generation (by decide)
  have hin : u.inputs = s.inputs := hu.part .inputs (by decide)
  obtain ⟨v1, v2, -⟩ := hu.part .channels (by decide)
  obtain ⟨p1, -, p3⟩ := hu.part .phase (by decide)
  have huo := p3.trans ho
  have hsr : u.runOrder.rosterRest.delivered.sr = u.sr :=
    (((u.runOrder_keeps.mono (by decide)).trans (u.runOrder.rosterRest_keeps.mono (by decide))).trans
      ((State.delivered_keeps _).mono (by decide)) : Keeps (leakParts ++ [.receive]) u _).part .roster (by decide)
  have hholds : u.orderDue = true ↔ OrderHolds { s with sr := u.runOrder.rosterRest.delivered.sr } o :=
    (State.orderDue_iff huo).trans (OrderHolds.congr (s := { s with sr := u.runOrder.rosterRest.delivered.sr }) (t := u)
      hsl hsr.symm hgen o)
  have hrest (w : State) (hw : w.vp.holdOff ≠ .holding) : Keeps (unheldParts ++ [.receive]) w w.rosterRest.delivered :=
    ((State.rosterRest_unheld hw).mono (by decide)).trans (w.rosterRest.delivered_keeps.mono (by decide))
  refine ⟨_, hx, ?_⟩
  rw [← hholds]
  refine ⟨fun hno => ?_, fun hdue hop => ?_, fun hdue hop hfault hpend hact hlat => ?_⟩
  · have hnd : u.orderDue = false := by simpa using hno
    rw [State.runOrder_notDue hnd]
    have hk := hrest u (by rw [v2]; exact hh)
    obtain ⟨k1, -, k3⟩ := hk.part .phase (by decide)
    exact ⟨k1.trans p1, k3.trans huo, (hk.part .channels (by decide)).1.trans v1⟩
  · have href : o = .openVc1 → u.vp.channels.n1.refusesOpen = false := fun hv => by
      simp [Channel.refusesOpen, v1, hop hv]
    obtain ⟨d1, d2, d3⟩ := State.runOrder_done huo hdue href
    obtain ⟨hcalm, -⟩ := State.runOrder_calm (s := u) (.inr fun hv => href (by rw [huo] at hv; exact Option.some.inj hv))
    have hk := hrest u.runOrder (by rw [d3, v2]; exact hh)
    obtain ⟨k1, -, k3⟩ := hk.part .phase (by decide)
    exact ⟨k1.trans (hcalm.phase.trans p1), k3.trans d2,
      d1.congr v1.symm hin.symm hsl.symm (hk.part .channels (by decide)).1⟩
  · subst hop
    have hrun : u.runOrder = u.dropOrder.handCause .valve (some 1) := by
      rcases u.runOrder_cases with ⟨hnd, -⟩ | ⟨o', -, ho', he⟩
      · rw [hdue] at hnd
        cases hnd
      · rw [huo] at ho'
        cases ho'
        rw [he]
        have hr1 : u.dropOrder.vp.channels.n1.refusesOpen = true := by
          change u.vp.channels.n1.refusesOpen = true
          simp [Channel.refusesOpen, v1, hfault, hpend]
        simp only [State.carryOrder, State.openVc1, hr1, if_true]
    have hact' : Cause.valve.latchesIn u.dropOrder.pc.phase = true := by
      change u.pc.phase.active = true
      rw [p1]
      exact hact
    have hlat' : u.dropOrder.hasLatched .valve = false := by
      have := (hu.part .tripRecord (by decide)).2.1
      change u.tu.latched.any _ = false
      rw [this]
      exact hlat
    obtain ⟨g1, g2, -⟩ := State.hand_latches (s := u.dropOrder) (c := .valve) (some 1)
      ((hu.running (by decide)).trans hr) rfl hlat'
    rw [State.handCause, hact'] at hrun
    rw [← hrun] at g1 g2
    have htr : Trips u.runOrder u.runOrder.rosterRest.delivered :=
      u.runOrder.rosterRest_trips.trans (.of_keeps (State.delivered_keeps _) (by decide))
    have hon : Keeps (rosterParts ++ [.receive]) u.runOrder u.runOrder.rosterRest.delivered :=
      (u.runOrder.rosterRest_keeps.mono (by decide)).trans ((State.delivered_keeps _).mono (by decide))
    refine ⟨htr.stays g1, ?_⟩
    rw [(hon.part .tripRecord (by decide)).2.1]
    exact g2.subset (by simp)

/-! ## PATH -/

/-- R20: every tank taking part has its channel OPEN. -/
theorem State.allRoutesOpen_iff (s : State) : s.allRoutesOpen = true
    ↔ ∀ m, s.tankUsed m = true → (s.ow.tanks.get m).takingPart = true → (s.vp.channels.get m).state = .opened := by
  rw [State.allRoutesOpen, s.tanksUsed_all]
  simp [Classical.or_iff_not_imp_left]

/-- R17: PATH in OPENING at TW. -/
theorem State.watch_path_opening {s : State} (hr : s.running = true) (htw : s.hasRole .tw = true)
    (hp : s.pc.phase = .opening) : s.watch.pc.path = true ↔ s.pc.path = true
      ∨ ∀ m, s.tankUsed m = true → (s.ow.tanks.get m).takingPart = true → (s.vp.channels.get m).state = .opened := by
  have hk := s.watchTimers_keeps
  have h1 : s.watchTimers.runningTw = true := by
    simp [State.runningTw, hk.running (by decide), hk.hasRole (by decide), hr, htw]
  have h2 := (hk.part .phase (by decide)).1.trans hp
  have h3 := (hk.part .flags (by decide)).2.1
  have h4 : s.watchTimers.ow = s.ow := hk.part .tanks (by decide)
  have h5 := (hk.part .channels (by decide)).1
  have h6 : s.watchTimers.allRoutesOpen = s.allRoutesOpen := by
    rw [Bool.eq_iff_iff, State.allRoutesOpen_iff, State.allRoutesOpen_iff]
    simp only [hk.tankUsed (by decide), h4, h5]
  rw [s.watch_path, State.pathNow, h1, h2, h3, h6, ← s.allRoutesOpen_iff]
  simp

/-- R86: the open switch comes on at a channel that opens: it arrives. -/
theorem Channel.switched_open {c : Channel} (active : Bool) (h : HoldOff) (hc : c.command = .opened)
    (hs : c.state ≠ .fault) : c.switched .openSw true active h true false = (c.arrive, false) := by
  simp [Channel.switched, hs, Channel.arrived, hc]

/-- R20: PATH, as the last channel of a tank taking part arrives. -/
theorem path_at_arrival {s : State} {n : Ch} (hr : s.running = true) (htw : s.hasRole .tw = true)
    (hp : s.pc.phase = .opening) (hn : s.tankUsed n = true) (hc : (s.vp.channels.get n).command = .opened)
    (hf : (s.vp.channels.get n).state ≠ .fault) (ho : s.openOn n = false) (hs : s.shutOn n = false) :
    ∃ t, exec (.valveSwitchChange n .openSw true) s = .next t
      ∧ (t.pc.path = true ↔ s.pc.path = true ∨ ∀ m, s.tankUsed m = true → (s.ow.tanks.get m).takingPart = true →
          m = n ∨ (s.vp.channels.get m).state = .opened) := by
  obtain ⟨u, hu⟩ : ∃ u : State, u = { s with inputs := s.inputs.setSwitch n .openSw true } := ⟨_, rfl⟩
  have hopen : u.openOn n = true := by
    rw [hu]
    exact Quad.get_set_self _ _ _
  have hshut : u.shutOn n = false := by rw [hu]; exact hs
  have hvp : u.vp = s.vp := by rw [hu]
  have hx : exec (.valveSwitchChange n .openSw true) s
      = .next (u.putChannel n (s.vp.channels.get n).arrive).watch := by
    have hsw : s.inputs.switch n .openSw = false := ho
    have hused := State.channelUsed_of_tank hn
    change execValveSwitchChange n .openSw true s = _
    simp only [execValveSwitchChange, hsw, hr, hused, Bool.and_self, if_true, Bool.false_eq_true, if_false, ← hu,
      State.switchUsed, hopen, hshut, Channel.switched_open _ _ hc hf]
  have hk : Keeps [.inputs, .channels, .frames, .pressure] s (u.putChannel n (s.vp.channels.get n).arrive) := by
    have hsu : Keeps [.inputs] s u := hu ▸ s.putInputs_keeps _
    exact (hsu.mono (by decide)).trans ((u.putChannel_keeps n _ fun h =>
      Channel.arrive_ok (hvp ▸ h.channels n)).mono (by decide))
  refine ⟨_, hx, ?_⟩
  have hget (m : Ch) := u.putChannel_get n m (s.vp.channels.get n).arrive
  rw [hvp] at hget
  have harr : (s.vp.channels.get n).arrive.state = .opened := by simp [Channel.arrive, hc]
  have how : (u.putChannel n (s.vp.channels.get n).arrive).ow = s.ow := hk.part .tanks (by decide)
  rw [State.watch_path_opening ((hk.running (by decide)).trans hr) ((hk.hasRole (by decide) .tw).trans htw)
    ((hk.part .phase (by decide)).1.trans hp), (hk.part .flags (by decide)).2.1, how]
  simp only [hk.tankUsed (by decide), hget]
  refine or_congr_right (forall_congr' fun m => imp_congr_right fun _ => imp_congr_right fun _ => ?_)
  by_cases hm : m = n
  · simp [hm, harr]
  · simp [hm]

end Sys2Proof.Machine
end

section
/-! SUPPORT. The tanks at the entries into OPENING and IDLE (R121, R125), and the causes handed at OPENING entry (R20, R36,
R84, R104, R115). -/

namespace Sys2Proof.Machine

/-! ## The tanks -/

/-- R121: a tank at OPENING entry. -/
def Tank.begun (t : Tank) : Tank :=
  if t.state = .assigned then { t with state := .opened, takingPart := true, startLevel := t.level.getD 0 } else t

/-- R125: a tank at IDLE entry. -/
def Tank.excluded (t : Tank) : Tank := { t with state := .excluded, takingPart := false, startLevel := 0 }

theorem State.setTank_tanks (s : State) (n : Ch) (st : TankState) :
    (s.setTank n st).ow
      = if (s.ow.tanks.get n).state = st then s.ow
        else { s.ow with tanks := s.ow.tanks.set n { s.ow.tanks.get n with state := st } } := by
  unfold State.setTank
  split
  · rfl
  · exact ((State.emit_keeps _ _).part .tanks (by decide) : _ = _).trans ((State.askStatus_keeps _).part .tanks (by decide))

theorem State.beginTank_get (s : State) (n m : Ch) :
    (s.beginTank n).ow.tanks.get m = if m = n then (s.ow.tanks.get n).begun else s.ow.tanks.get m := by
  unfold State.beginTank Tank.begun
  by_cases ha : (s.ow.tanks.get n).state = .assigned
  · rw [if_pos ha, if_pos ha]
    dsimp only [State.putTank]
    rw [s.setTank_tanks, if_neg (by rw [ha]; decide)]
    by_cases hm : m = n
    · subst hm
      simp
    · rw [Quad.get_set_of_ne _ hm, Quad.get_set_of_ne _ hm, if_neg hm]
  · rw [if_neg ha, if_neg ha]
    split
    · rename_i h
      rw [h]
    · rfl

theorem State.excludeTank_get (s : State) (n m : Ch) :
    (s.excludeTank n).ow.tanks.get m = if m = n then (s.ow.tanks.get n).excluded else s.ow.tanks.get m := by
  unfold State.excludeTank Tank.excluded
  dsimp only [State.putTank]
  rw [s.setTank_tanks]
  by_cases hm : m = n
  · subst hm
    by_cases hx : (s.ow.tanks.get m).state = .excluded
    · simp [hx]
    · simp [hx]
  · rw [Quad.get_set_of_ne _ hm, if_neg hm]
    split
    · rfl
    · rw [Quad.get_set_of_ne _ hm]

/-- An operation on several tanks, each its own. -/
theorem foldTanks_get {f : State → Ch → State} {g : Tank → Tank}
    (hf : ∀ s n m, (f s n).ow.tanks.get m = if m = n then g (s.ow.tanks.get n) else s.ow.tanks.get m) {l : List Ch}
    (hl : l.Nodup) (s : State) (m : Ch) :
    (l.foldl f s).ow.tanks.get m = if m ∈ l then g (s.ow.tanks.get m) else s.ow.tanks.get m := by
  induction l generalizing s with
  | nil => rfl
  | cons n l ih =>
    obtain ⟨hn, hl⟩ := List.nodup_cons.1 hl
    rw [List.foldl_cons, ih hl, hf]
    by_cases hm : m = n
    · subst hm
      simp [hn]
    · simp [hm]

theorem State.tanksUsed_nodup (s : State) : s.tanksUsed.Nodup := List.Nodup.filter _ (by decide)

theorem State.mem_tanksUsed (s : State) (m : Ch) : m ∈ s.tanksUsed ↔ s.tankUsed m = true := by
  simp [State.tanksUsed, Ch.mem_all]

theorem State.setReceipt_ow (s : State) (r : ReceiptState) : (s.setReceipt r).ow = { s.ow with receipt := r } := by
  unfold State.setReceipt
  split
  · rename_i h
    rw [← h]
  · exact ((State.emit_keeps _ _).part .tanks (by decide) : _ = _).trans ((State.askStatus_keeps _).part .tanks (by decide))

/-- R121: the tanks at OPENING entry. -/
theorem State.beginReceipt_ow (s : State) :
    s.beginReceipt.ow.receipt = .receiving ∧ s.beginReceipt.ow.received = 0
      ∧ ∀ m, s.beginReceipt.ow.tanks.get m = if s.tankUsed m = true then (s.ow.tanks.get m).begun else s.ow.tanks.get m := by
  unfold State.beginReceipt
  dsimp only
  rw [State.setReceipt_ow]
  refine ⟨rfl, rfl, fun m => ?_⟩
  simp only [foldTanks_get State.beginTank_get s.tanksUsed_nodup, s.mem_tanksUsed]

theorem State.endClaim_ow (s : State) :
    s.endClaim.ow.tanks = s.ow.tanks ∧ s.endClaim.ow.receipt = s.ow.receipt
      ∧ (s.ow.claim.waiting = false → s.endClaim = s)
      ∧ (s.ow.claim.tank.isSome = true → s.endClaim.ow.claim.waiting = false) := by
  unfold State.endClaim
  cases hw : s.ow.claim.waiting with
  | false => exact ⟨rfl, rfl, fun _ => rfl, fun _ => hw⟩
  | true =>
    cases ht : s.ow.claim.tank with
    | none => exact ⟨rfl, rfl, nofun, nofun⟩
    | some n =>
      have ho : (s.setClaim .start n .ended).ow = { s.ow with claim := .start } :=
        ((State.emit_keeps _ _).part .tanks (by decide) : _ = _).trans ((State.askStatus_keeps _).part .tanks (by decide))
      dsimp only
      rw [ho]
      exact ⟨rfl, rfl, nofun, fun _ => rfl⟩

theorem State.excludeTank_claim (s : State) (n : Ch) : (s.excludeTank n).ow.claim = s.ow.claim := by
  unfold State.excludeTank
  dsimp only [State.putTank]
  rw [s.setTank_tanks]
  split <;> rfl

theorem State.foldExclude_claim (l : List Ch) (s : State) : (l.foldl State.excludeTank s).ow.claim = s.ow.claim := by
  induction l generalizing s with
  | nil => rfl
  | cons n l ih => exact (ih (s.excludeTank n)).trans (s.excludeTank_claim n)

/-- R125: the tanks, the receipt and the claim at IDLE entry. -/
theorem State.excludeTanks_ow (s : State) :
    s.excludeTanks.ow.receipt = .none ∧ s.excludeTanks.ow.received = 0
      ∧ s.excludeTanks.ow.settleWindow = ⟨false, 0⟩ ∧ s.excludeTanks.ow.settleLimit = ⟨false, 0⟩
      ∧ (s.ow.claim.waiting = false → s.excludeTanks.ow.claim.waiting = false)
      ∧ ∀ m, s.excludeTanks.ow.tanks.get m
          = if s.tankUsed m = true then (s.ow.tanks.get m).excluded else s.ow.tanks.get m := by
  have hf := State.foldExclude_claim s.tanksUsed s
  obtain ⟨e1, -, e3, -⟩ := (s.tanksUsed.foldl State.excludeTank s).endClaim_ow
  unfold State.excludeTanks
  dsimp only
  rw [State.setReceipt_ow]
  refine ⟨rfl, rfl, rfl, rfl, fun hc => ?_, fun m => ?_⟩
  · dsimp only
    rw [e3 (by rw [hf]; exact hc), hf, hc]
  · dsimp only
    rw [e1, foldTanks_get State.excludeTank_get s.tanksUsed_nodup]
    simp only [s.mem_tanksUsed]

theorem State.left_ow_active {s : State} {p : Phase} (h : s.pc.phase ≠ .tripped) (ha : p.active = true) :
    (s.left p).ow = s.ow := by rw [State.left_of_untripped p h, if_pos ha]; rfl

theorem State.left_ow_inactive {s : State} {p : Phase} (h : s.pc.phase ≠ .tripped) (ha : p.active = false) :
    (s.left p).ow.tanks = s.ow.tanks
      ∧ (s.ow.claim.tank.isSome = true → (s.left p).ow.claim.waiting = false) := by
  rw [State.left_of_untripped p h, if_neg (by simp [ha])]
  obtain ⟨h1, -, -, h4⟩ := State.endClaim_ow { s.setPhase p with mr := s.mr.changePhase s.pc.phase p }
  exact ⟨h1, h4⟩

/-! ## The Overflow Watch at a roster change -/

theorem State.readRoute_ow (s : State) : ∃ c b, s.readRoute.ow = { s.ow with claim := c, routeSeen := b }
    ∧ (s.pc.phase.active = false → c = s.ow.claim) := by
  have hs (n : Ch) (t : State) : (t.startClaim n).ow = { t.ow with claim := ⟨true, some n, .fromZero⟩ } :=
    ((State.emit_keeps _ _).part .tanks (by decide) : _ = _).trans ((State.askStatus_keeps _).part .tanks (by decide))
  have hr (ha : s.pc.phase.active = false) : s.retryTank = none := by simp [State.retryTank, ha]
  unfold State.readRoute
  dsimp only
  split
  · exact ⟨_, _, rfl, fun _ => rfl⟩
  · cases ht : s.retryTank with
    | none => exact ⟨_, _, rfl, fun _ => rfl⟩
    | some n =>
      exact ⟨_, _, hs n _, fun ha => by
        rw [hr ha] at ht
        cases ht⟩

/-- R130, R149: a roster change that sets no external end leaves the tanks and the receipt alone. -/
theorem State.rosterRest_ow {s : State} (h : s.externalEndSeen = false ∨ s.mr.record.state ≠ .opened) :
    ∃ c b, s.rosterRest.ow = { s.ow with claim := c, routeSeen := b }
      ∧ (s.pc.phase.active = false → c = s.ow.claim) := by
  have hk1 := s.releaseIfStopped_keeps
  have ho1 : s.releaseIfStopped.ow = s.ow := hk1.part .tanks (by decide)
  obtain ⟨c, b, hcb, hc⟩ := s.releaseIfStopped.readRoute_ow
  have hk2 := s.releaseIfStopped.readRoute_keeps
  have hk3 := (s.releaseIfStopped.readRoute).takeReceived_keeps
  have hk : Keeps (watchParts ++ [.channels, .pressure, .tanks, .record]) s (s.releaseIfStopped.readRoute).takeReceived :=
    ((hk1.mono (by decide)).trans (hk2.mono (by decide))).trans (hk3.mono (by decide))
  have hext : (s.releaseIfStopped.readRoute).takeReceived.readExternalEnd = (s.releaseIfStopped.readRoute).takeReceived := by
    rcases h with h | h
    · have h1 : _ = s.sr := hk.part .roster (by decide)
      have h2 : _ = s.pc.gen := hk.part .generation (by decide)
      have h3 : (s.releaseIfStopped.readRoute).takeReceived.externalEndSeen = false := by
        rw [← h]
        simp only [State.externalEndSeen, State.roleShows, h1, h2]
      simp [State.readExternalEnd, h3]
    · have hr : (s.releaseIfStopped.readRoute).mr.record = s.mr.record :=
        (((hk1.mono (by decide)).trans (hk2.mono (by decide)) : Keeps (watchParts ++ [.channels, .pressure, .tanks]) s _)).part
          .record (by decide)
      rw [State.takeReceived_shut (by rw [hr]; exact h), State.readExternalEnd,
        State.setExternalEnd_shut (by rw [hr]; exact h), ite_self]
  have hw : s.rosterRest.ow = (s.releaseIfStopped.readRoute).takeReceived.ow := by
    have k : Keeps (watchParts ++ [.record, .leak]) (s.releaseIfStopped.readRoute).takeReceived s.rosterRest := by
      unfold State.rosterRest
      rw [hext]
      exact (((State.judgeEnds_keeps _).mono (by decide)).trans ((State.watchLeak_keeps _).mono (by decide))).trans
        ((State.watch_keeps _).mono (by decide))
    exact k.part .tanks (by decide)
  have ho3 : (s.releaseIfStopped.readRoute).takeReceived.ow = (s.releaseIfStopped.readRoute).ow :=
    hk3.part .tanks (by decide)
  rw [ho1] at hcb hc
  refine ⟨c, b, hw.trans (ho3.trans hcb), fun ha => hc ?_⟩
  rw [(hk1.part .phase (by decide)).1]
  exact ha

/-- R33, R130, R149: what follows PU's STATUS leaves the tanks and the receipt alone where it sets no external end. -/
theorem State.takeTail_ow {s : State} (e : Option Entry) (st : Status) (h : s.running = true) (hpu : s.hasRole .pu = false)
    (hd : s.orderDue = false) (hx : s.externalEndSeen = false ∨ s.mr.record.state ≠ .opened) :
    ∃ c b, (s.takeTail e st).ow = { s.ow with claim := c, routeSeen := b }
      ∧ (s.pc.phase.active = false → c = s.ow.claim) := by
  have hk := s.takePuStatus_keeps e st
  have h1 : (s.takePuStatus e st).sr = s.sr := hk.part .roster (by decide)
  have h2 : (s.takePuStatus e st).pc.gen = s.pc.gen := hk.part .generation (by decide)
  have h3 : (s.takePuStatus e st).ow = s.ow := hk.part .tanks (by decide)
  have hx' : (s.takePuStatus e st).externalEndSeen = false ∨ (s.takePuStatus e st).mr.record.state ≠ .opened := by
    refine hx.imp (fun hx => ?_) (fun hx => ?_)
    · rw [← hx]
      simp only [State.externalEndSeen, State.roleShows, h1, h2]
    · rw [State.takePuStatus_shut e st hx]
      exact hx
  obtain ⟨c, b, hcb, hc⟩ := State.rosterRest_ow hx'
  have he : (s.takeTail e st).ow = (s.takePuStatus e st).rosterChanged.ow :=
    (State.delivered_keeps _).part .tanks (by decide)
  rw [State.rosterChanged_follower ((hk.running (by decide)).trans h) ((hk.hasRole (by decide) .pu).trans hpu),
    State.runOrder_notDue ((hk.orderDue (by decide)).trans hd)] at he
  rw [h3] at hcb hc
  refine ⟨c, b, he.trans hcb, fun ha => hc ?_⟩
  rw [(hk.part .phase (by decide)).1]
  exact ha

/-! ## IDLE -/

theorem State.clearRecord_ow (s : State) : s.clearRecord.ow = s.ow := (State.emit_keeps _ _).part .tanks (by decide)

/-- R125, R155: the record and the tanks at IDLE entry. -/
theorem State.changePhase_idle_tanks {s : State} (n r : Nat) (h : s.pc.phase ≠ .tripped) :
    (s.changePhase .idle n r).mr.record = Record.empty
      ∧ (s.pc.phase ≠ .ended → (s.changePhase .idle n r).ow.tanks = s.ow.tanks)
      ∧ (s.pc.phase = .ended → s.hasRole .tw = true →
          (s.changePhase .idle n r).ow.receipt = .none ∧ (s.changePhase .idle n r).ow.received = 0
            ∧ (s.changePhase .idle n r).ow.settleWindow = ⟨false, 0⟩
            ∧ (s.changePhase .idle n r).ow.settleLimit = ⟨false, 0⟩
            ∧ (s.ow.claim.tank.isSome = true → (s.changePhase .idle n r).ow.claim.waiting = false)
            ∧ ∀ m, (s.changePhase .idle n r).ow.tanks.get m
                = if s.tankUsed m = true then (s.ow.tanks.get m).excluded else s.ow.tanks.get m) := by
  have hk := s.changePhase_from .idle n r
  rw [State.entryActions_idle (s.left_phase _), s.left_hasRole] at hk
  obtain ⟨t1, t2⟩ := State.left_ow_inactive (p := .idle) h rfl
  have hr : (if s.pc.phase = .ended ∧ s.hasRole .tw = true then (s.left .idle).clearRecord.excludeTanks
      else (s.left .idle).clearRecord).mr.record = Record.empty := by
    split
    · exact (State.excludeTanks_keeps _).part .record (by decide)
    · rfl
  refine ⟨(hk.part .record (by decide) : _ = _).trans hr, fun hp => ?_, fun hp htw => ?_⟩
  · rw [if_neg fun hx => hp hx.1] at hk
    rw [(hk.part .tanks (by decide) : _ = _), State.clearRecord_ow, t1]
  · rw [if_pos ⟨hp, htw⟩] at hk
    obtain ⟨x1, x2, x3, x4, x5, x6⟩ := (s.left .idle).clearRecord.excludeTanks_ow
    rw [State.clearRecord_ow, t1] at x6
    rw [State.clearRecord_ow] at x5
    have hu (m : Ch) : (s.left .idle).clearRecord.tankUsed m = s.tankUsed m :=
      (((State.left_untripped .idle h).mono (by decide)).trans ((State.clearRecord_keeps _).mono (by decide)) :
        Keeps (leftParts ++ [.meter]) s _).tankUsed (by decide) m
    rw [(hk.part .tanks (by decide) : _ = _)]
    refine ⟨x1, x2, x3, x4, fun hc => x5 (t2 hc), fun m => ?_⟩
    rw [x6 m, hu m]

/-- R125, R155: IDLE at a follower. -/
theorem idle_entry {s : State} {n : Nat} {st : Status} (hw : PuStatusWaits s n st) (hq : QuietEntry s n st)
    (hg : st.gen = s.pc.gen) (hp : s.pc.phase = .ended ∨ s.pc.phase = .lineup) (hst : st.phase = .idle) :
    ∃ t, exec .rosterTakeFrame s = .next t ∧ t.pc.phase = .idle ∧ t.mr.record = Record.empty
      ∧ (s.pc.phase = .lineup → t.ow.tanks = s.ow.tanks)
      ∧ (s.pc.phase = .ended → s.hasRole .tw = true →
          (∀ c, s.tankUsed c = true → t.ow.tanks.get c = { s.ow.tanks.get c with
              state := .excluded, takingPart := false, startLevel := 0 })
            ∧ (∀ c, s.tankUsed c = false → t.ow.tanks.get c = s.ow.tanks.get c)
            ∧ (∀ c, s.ow.claim.tank = some c → t.ow.claim.waiting = false)
            ∧ t.ow.receipt = .none ∧ t.ow.received = 0 ∧ t.ow.settleWindow = ⟨false, 0⟩
            ∧ t.ow.settleLimit = ⟨false, 0⟩) := by
  obtain ⟨u, e, hu, hr, hau, hx, hc⟩ := hw.adopts hq hg (by rw [hst]; rcases hp with hp | hp <;> rw [hp] <;> rfl)
    (by rcases hp with hp | hp <;> rw [hp] <;> decide) (by simp [hst])
  obtain ⟨-, hp1, -⟩ := State.adopted_spec (st := st) hr hau.role
  obtain ⟨h1, -⟩ := hu.same
  have hi : u.pc.phase ≠ .idle := by rw [h1]; rcases hp with hp | hp <;> rw [hp] <;> decide
  obtain ⟨hcalm, hd⟩ := hau.adopt
  have hk := u.adopt_keeps st
  have hxr := (hk.running (by decide)).trans hr
  have hxpu := (hk.hasRole (by decide) .pu).trans hau.role
  have hrec : (u.adopt st).mr.record = (u.adopted st).mr.record := hcalm.keeps.part .record (by decide)
  have how : (u.adopt st).ow = (u.adopted st).ow := hcalm.keeps.part .tanks (by decide)
  have huow : u.ow = s.ow := hu.keeps.part .tanks (by decide)
  have hat := State.adopted_of_busy (st := st) hi
  rw [hst] at hat
  obtain ⟨c1, c2, c3⟩ := u.changePhase_idle_tanks st.body.nomination.1 st.body.nomination.2 hau.phase
  rw [← hat] at c1 c2 c3
  rw [h1, huow] at c2 c3
  have hshut : (u.adopt st).mr.record.state ≠ .opened := by rw [hrec, c1]; decide
  obtain ⟨c, b, hcb, hcl⟩ := State.takeTail_ow e st hxr hxpu hd (.inr hshut)
  have hclaim := hcl (by rw [hcalm.phase, hp1, hst]; rfl)
  subst hclaim
  rw [how] at hcb
  refine ⟨_, hx, hc.phase.trans (hp1.trans hst), ?_, fun hl => ?_, fun he htw => ?_⟩
  · rw [State.takeTail_shut e st hxr hxpu hd hshut, hrec, c1]
  · rw [hcb]
    exact c2 (by rw [hl]; decide)
  · obtain ⟨x1, x2, x3, x4, x5, x6⟩ := c3 he ((hu.keeps.hasRole (by decide) .tw).trans htw)
    have hused (m : Ch) : u.tankUsed m = s.tankUsed m := hu.keeps.tankUsed (by decide) m
    rw [hcb]
    refine ⟨fun m hm => ?_, fun m hm => ?_, fun m hm => ?_, x1, x2, x3, x4⟩
    · dsimp only
      rw [x6 m, hused, if_pos hm]
      rfl
    · dsimp only
      rw [x6 m, hused, hm]
      rfl
    · exact x5 (by rw [hm]; rfl)

/-! ## OPENING at TW -/

/-- R20, R121: the tanks and the channels at OPENING entry at TW. -/
structure TanksOpened (s t : State) : Prop where
  receipt : t.ow.receipt = .receiving
  received : t.ow.received = 0
  tanks : ∀ m, t.ow.tanks.get m = if s.tankUsed m = true then (s.ow.tanks.get m).begun else s.ow.tanks.get m
  channels : ∀ m, t.vp.channels.get m
    = if s.tankUsed m = true ∧ (s.ow.tanks.get m).begun.takingPart = true then
        (s.vp.channels.get m).open' (s.openOn m) (s.shutOn m)
      else s.vp.channels.get m
  holdOff : t.vp.holdOff = s.vp.holdOff

theorem State.openTanks_opened (s : State) : TanksOpened s s.openTanks := by
  have hk : Keeps [.channels, .frames, .pressure] s.beginReceipt s.openTanks :=
    State.eachChannel_keeps State.openChannel_keeps _ _
  obtain ⟨b1, b2, b3⟩ := s.beginReceipt_ow
  have how : s.openTanks.ow = s.beginReceipt.ow := hk.part .tanks (by decide)
  have hmem (m : Ch) : m ∈ s.beginReceipt.tanksTakingPart
      ↔ s.tankUsed m = true ∧ (s.ow.tanks.get m).begun.takingPart = true := by
    simp only [State.tanksTakingPart, List.mem_filter, State.mem_tanksUsed, s.beginReceipt_keeps.tankUsed (by decide), b3 m]
    exact and_congr_right fun hu => by rw [if_pos hu]
  refine ⟨how ▸ b1, how ▸ b2, fun m => how ▸ b3 m, fun m => ?_, ?_⟩
  · rw [s.openTanks_get]
    simp only [hmem m]
  · exact (State.eachChannel_holdOff (fun t n => t.putChannel_holdOff n _) _ s.beginReceipt).trans
      (s.beginReceipt_keeps.part .channels (by decide)).2.1

theorem State.changePhase_opening_tanks {s : State} (n r : Nat) (h : s.pc.phase ≠ .tripped) (htw : s.hasRole .tw = true) :
    TanksOpened s (s.changePhase .opening n r) := by
  have hl := State.left_untripped .opening h
  have ho := (s.left .opening).openTanks_opened
  have hk := State.changePhase_opening_tw n r htw
  obtain ⟨k1, k2, -⟩ := hk.part .channels (by decide)
  obtain ⟨l1, l2, -⟩ := hl.part .channels (by decide)
  have how : (s.changePhase .opening n r).ow = (s.left .opening).openTanks.ow := hk.part .tanks (by decide)
  have hin : (s.left .opening).inputs = s.inputs := hl.part .inputs (by decide)
  have hos (m : Ch) : (s.left .opening).openOn m = s.openOn m := by simp only [State.openOn, hin]
  have hss (m : Ch) : (s.left .opening).shutOn m = s.shutOn m := by simp only [State.shutOn, hin]
  have hlo := State.left_ow_active (p := .opening) h rfl
  have hu (m : Ch) := hl.tankUsed (by decide) m
  refine ⟨how ▸ ho.receipt, how ▸ ho.received, fun m => ?_, fun m => ?_, k2.trans (ho.holdOff.trans l2)⟩
  · rw [how, ho.tanks m, hu m, hlo]
  · rw [k1, ho.channels m, hu m, hlo, l1, hos, hss]

/-- R149: PU's STATUS in OPENING shows no external end. -/
theorem Heard.noExternalEnd {s u x : State} {n : Nat} {st : Status} (hu : Heard s n st u) (hx : x.sr = u.sr)
    (hp : st.phase = .opening) : x.externalEndSeen = false := by
  rw [State.externalEndSeen, State.roleShows, hx]
  cases ho : u.sr.ofRole .pu with
  | none => rfl
  | some e =>
    have he : e ∈ u.sr.entries := List.mem_of_find?_eq_some ho
    have hr : e.hasRole .pu = true := List.find?_some (p := fun e : Entry => e.hasRole .pu) ho
    have hlast : e.last = some st :=
      (hu.entries e he).elim (fun h => h.2.2.1) fun h => absurd (hu.single e he hr) h.1
    simp only [Option.any_some, Entry.shows, Entry.current, hlast, Option.filter_some]
    split <;> simp [hp]

/-- R20: every tank taking part has its channel OPEN. -/
def RoutesOpen (s : State) : Prop :=
  ∀ m, s.tankUsed m = true → (s.ow.tanks.get m).takingPart = true → (s.vp.channels.get m).state = .opened

/-- R17: one round of the levels leaves PATH on where it was on and where every route is open. -/
theorem path_round {T : List Part} {s y : State} (hk : Keeps T s y)
    (hT : decide (Part.flags ∉ T ∧ Part.phase ∉ T ∧ Part.setup ∉ T ∧ Part.station ∉ T ∧ Part.channels ∉ T) = true)
    (ht : y.ow.tanks = s.ow.tanks) (hr : s.running = true) (htw : s.hasRole .tw = true) (hp : s.pc.phase = .opening) :
    (y.watch.pc.path = true ↔ s.pc.path = true ∨ RoutesOpen s) ∧ (RoutesOpen y.watch ↔ RoutesOpen s) := by
  obtain ⟨t1, t2, t3, t4, t5⟩ := of_decide_eq_true hT
  have hc := (hk.part .channels (decide_eq_true t5)).1
  have hroutes : RoutesOpen y ↔ RoutesOpen s := by
    simp only [RoutesOpen, hk.tankUsed (decide_eq_true t3), ht, hc]
  have hw := y.watch_keeps
  have hwc := (hw.part .channels (by decide)).1
  have hwo : y.watch.ow = y.ow := hw.part .tanks (by decide)
  refine ⟨?_, ?_⟩
  · rw [State.watch_path_opening ((hk.running (decide_eq_true t4)).trans hr)
      ((hk.hasRole (decide_eq_true t3) .tw).trans htw) ((hk.part .phase (decide_eq_true t2)).1.trans hp),
      (hk.part .flags (decide_eq_true t1)).2.1, ← hroutes]
    rfl
  · rw [← hroutes]
    simp only [RoutesOpen, hw.tankUsed (by decide), hwo, hwc]

/-- R29, R33: what follows PU's STATUS ends with the levels, where no standing order is due and the station does not
hold. -/
theorem State.takeTail_watch {s : State} (e : Option Entry) (st : Status) (h : s.running = true) (hpu : s.hasRole .pu = false)
    (hd : s.orderDue = false) (hh : s.vp.holdOff ≠ .holding) :
    ∃ y, Keeps [.tanks, .record, .leak, .frames, .reports, .pressure] s y ∧ s.takeTail e st = y.watch.delivered := by
  have hk := s.takePuStatus_keeps e st
  have hh' : (s.takePuStatus e st).vp.holdOff ≠ .holding := by
    rw [(hk.part .channels (by decide)).2.1]
    exact hh
  have hrel : (s.takePuStatus e st).releaseIfStopped = s.takePuStatus e st := by simp [State.releaseIfStopped, hh']
  refine ⟨((((s.takePuStatus e st).readRoute).takeReceived.readExternalEnd).judgeEnds).watchLeak, ?_, ?_⟩
  · refine Keeps.trans ?_ ((State.watchLeak_keeps _).mono (by decide))
    refine Keeps.trans ?_ ((State.judgeEnds_keeps _).mono (by decide))
    refine Keeps.trans ?_ ((State.readExternalEnd_keeps _).mono (by decide))
    refine Keeps.trans ?_ ((State.takeReceived_keeps _).mono (by decide))
    exact (hk.mono (by decide)).trans ((State.readRoute_keeps _).mono (by decide))
  · rw [State.takeTail, State.rosterChanged_follower ((hk.running (by decide)).trans h)
      ((hk.hasRole (by decide) .pu).trans hpu), State.runOrder_notDue ((hk.orderDue (by decide)).trans hd),
      State.rosterRest, hrel]

/-- R17: PATH after what follows PU's STATUS in OPENING at TW. -/
theorem State.takeTail_path_opening {s : State} (e : Option Entry) (st : Status) (h : s.running = true)
    (htw : s.hasRole .tw = true) (hp : s.pc.phase = .opening) (hd : s.orderDue = false) (hh : s.vp.holdOff ≠ .holding)
    (hx : s.externalEndSeen = false) :
    (s.takeTail e st).pc.path = true ↔ s.pc.path = true ∨ RoutesOpen s := by
  have hpu := State.hasRole_unique (r' := .pu) htw (by decide)
  obtain ⟨y, hy, hty⟩ := State.takeTail_watch e st h hpu hd hh
  obtain ⟨c, b, how, -⟩ := State.takeTail_ow e st h hpu hd (.inl hx)
  have hk : Keeps (watchParts ++ [.receive]) y y.watch.delivered :=
    (y.watch_keeps.mono (by decide)).trans ((State.delivered_keeps _).mono (by decide))
  have hyo : y.ow = (s.takeTail e st).ow := hty ▸ (hk.part .tanks (by decide) : _ = _).symm
  obtain ⟨g, -⟩ := path_round hy (by decide) (by rw [hyo, how]) h htw hp
  rw [hty, ((State.delivered_keeps _).part .flags (by decide)).2.1]
  exact g

/-- R17, R20: PATH once a step into OPENING is adopted at TW. -/
theorem AdoptsStill.path {s : State} {st : Status} (h : AdoptsStill s st) (hr : s.running = true)
    (htw : s.hasRole .tw = true) (hst : st.phase = .opening) :
    ((s.adopt st).pc.path = true ↔ s.pc.path = true ∨ RoutesOpen (s.adopted st))
      ∧ (RoutesOpen (s.adopt st) ↔ RoutesOpen (s.adopted st)) := by
  have ha : st.phase.active = true := by rw [hst]; rfl
  obtain ⟨hk1, hp1, ho1, -⟩ := State.adopted_spec (st := st) hr h.role
  have hek := State.atEntry_keeps hr h.role ha
  have hz : (s.atEntry st).orderDue = false := by
    refine State.orderDue_none ((hek.part .phase (by decide)).2.2.trans (ho1.trans ?_))
    rw [hst, (s.hasRole_iff _).1 htw]
    rfl
  obtain ⟨hrun, -⟩ := h.adopt_run hr ha
  rw [State.runOrder_notDue hz] at hrun
  have hr1 := (hk1.running (by decide)).trans hr
  have htw1 := (hk1.hasRole (by decide) .tw).trans htw
  have hp1' := hp1.trans hst
  have hpath : (s.adopted st).pc.path = s.pc.path := (hk1.part .flags (by decide)).2.1
  have hdef : s.atEntry st = (s.adopted st).settled (s.adopting st).pc.phase := rfl
  rw [hrun]
  generalize s.atEntry st = z at *
  generalize s.adopted st = c at *
  have hsk := c.scanAtPhase_keeps (s.adopting st).pc.phase
  have hentry : z = (c.scanAtPhase (s.adopting st).pc.phase).watch := by
    have hsp := (hsk.part .phase (by decide)).1
    rw [hdef, State.settled]
    simp [State.followAll, hsp, hp1', Phase.active]
  have how : (c.scanAtPhase (s.adopting st).pc.phase).ow = c.ow := hsk.part .tanks (by decide)
  obtain ⟨e1, e2⟩ := path_round hsk (by decide) (by rw [how]) hr1 htw1 hp1'
  rw [← hentry] at e1 e2
  obtain ⟨f1, f2⟩ := path_round (Keeps.refl [] z) (by decide) rfl ((hek.running (by decide)).trans hr1)
    ((hek.hasRole (by decide) .tw).trans htw1) ((hek.part .phase (by decide)).1.trans hp1')
  rw [f1, f2, e1, e2, hpath, or_assoc, or_self]
  exact ⟨Iff.rfl, Iff.rfl⟩

theorem Tank.begun_assigned {t : Tank} (h : t.state = .assigned) :
    t.begun = { t with state := .opened, takingPart := true, startLevel := t.level.getD 0 } := if_pos h

theorem Tank.begun_other {t : Tank} (h : t.state ≠ .assigned) : t.begun = t := if_neg h

/-- R83, R84: an open command drives a SHUT channel whose drive may go on. -/
theorem Channel.open'_drives {c : Channel} {cs : Bool} (hs : c.state = .shut) (hp : c.pending = false)
    (hw : c.dwell.running = false) (hd : c.drive = .off) :
    (c.open' false cs).drive = .opened ∧ (c.open' false cs).travel = ⟨true, 0⟩ := by
  have ho : c.open' false cs = Channel.progress { c with command := .opened, state := .opening } false cs := by
    simp [Channel.open', hp, hs]
  rw [ho]
  simp [Channel.progress, Channel.arrived, Channel.mayDrive, hp, hw, hd, Channel.driveOn, Timer.fromZero]

/-- R20, R121: OPENING at TW. -/
theorem opening_at_tw {s : State} {n : Nat} {st : Status} (hw : PuStatusWaits s n st) (hq : QuietEntry s n st)
    (hg : st.gen = s.pc.gen) (hp : s.pc.phase = .lineup) (hst : st.phase = .opening) (htw : s.hasRole .tw = true)
    (hv : NoValveFault s) (hh : s.vp.holdOff ≠ .holding) :
    ∃ t, exec .rosterTakeFrame s = .next t ∧ t.pc.phase = .opening ∧ t.ow.receipt = .receiving ∧ t.ow.received = 0
      ∧ (∀ c, s.tankUsed c = true → (s.ow.tanks.get c).state = .assigned →
          t.ow.tanks.get c = { s.ow.tanks.get c with
              state := .opened, takingPart := true, startLevel := (s.ow.tanks.get c).level.getD 0 }
            ∧ ((s.vp.channels.get c).state = .shut → (s.vp.channels.get c).pending = false → s.openOn c = false →
                (t.vp.channels.get c).state = .opening ∧ (t.vp.channels.get c).command = .opened
                  ∧ ((s.vp.channels.get c).dwell.running = false → (s.vp.channels.get c).drive = .off →
                      (t.vp.channels.get c).drive = .opened ∧ (t.vp.channels.get c).travel = ⟨true, 0⟩)))
      ∧ (∀ c, (s.tankUsed c = false ∨ (s.ow.tanks.get c).state ≠ .assigned) →
          t.ow.tanks.get c = s.ow.tanks.get c
            ∧ ((s.ow.tanks.get c).takingPart = false → t.vp.channels.get c = s.vp.channels.get c))
      ∧ ((∀ c, (s.ow.tanks.get c).takingPart = false) →
          (t.pc.path = true ↔ s.pc.path = true ∨ ∀ c, s.tankUsed c = true → (s.ow.tanks.get c).state = .assigned →
            (t.vp.channels.get c).state = .opened)) := by
  obtain ⟨u, e, hu, hr, hau, hx, hc⟩ := hw.adopts hq hg (by rw [hst, hp]; rfl) (by rw [hp]; decide) fun _ => hv
  obtain ⟨hk1, hp1, -⟩ := State.adopted_spec (st := st) hr hau.role
  have hbusy : u.pc.phase ≠ .idle := by rw [hu.same.1, hp]; decide
  have htwu := (hu.keeps.hasRole (by decide) .tw).trans htw
  have ho := State.changePhase_opening_tanks st.body.nomination.1 st.body.nomination.2 hau.phase htwu
  rw [← hst, ← State.adopted_of_busy hbusy] at ho
  obtain ⟨v1, v2, -⟩ := hu.keeps.part .channels (by decide)
  have huow : u.ow = s.ow := hu.keeps.part .tanks (by decide)
  have huin : u.inputs = s.inputs := hu.keeps.part .inputs (by decide)
  have hos (m : Ch) : u.openOn m = s.openOn m := by simp only [State.openOn, huin]
  have hss (m : Ch) : u.shutOn m = s.shutOn m := by simp only [State.shutOn, huin]
  have hpath : u.pc.path = s.pc.path := (hu.keeps.part .flags (by decide)).2.1
  have hused (m : Ch) := hu.keeps.tankUsed (by decide) m
  have hhold : (u.adopted st).vp.holdOff ≠ .holding := by rw [ho.holdOff, v2]; exact hh
  obtain ⟨z, hz, -, ht, hxz⟩ := hau.noOrder (e := e) hr (by rw [hst]; rfl)
    (by rw [hst, (u.hasRole_iff _).1 htwu]; rfl) hhold
  obtain ⟨hcalm, hd⟩ := hau.adopt
  have hak := u.adopt_keeps st
  have hxr := (hak.running (by decide)).trans hr
  have hxtw := (hak.hasRole (by decide) .tw).trans htwu
  have hext : (u.adopt st).externalEndSeen = false := hu.noExternalEnd (hak.part .roster (by decide)) hst
  have how : (u.adopt st).ow = (u.adopted st).ow := hcalm.keeps.part .tanks (by decide)
  obtain ⟨c, b, htow, -⟩ := State.takeTail_ow e st hxr ((hak.hasRole (by decide) .pu).trans hau.role) hd (.inl hext)
  rw [how] at htow
  have hxhold : (u.adopt st).vp.holdOff ≠ .holding := by
    rw [hxz, (z.watch_keeps.part .channels (by decide)).2.1, (hz.part .channels (by decide)).2.1]
    exact hhold
  have hpt := State.takeTail_path_opening e st hxr hxtw (hcalm.phase.trans (hp1.trans hst)) hd hxhold hext
  obtain ⟨hpa, hra⟩ := hau.path hr htwu hst
  have hct := (ht.part .channels (by decide)).1.trans ((z.watch_keeps.part .channels (by decide)).1.trans
    (hz.part .channels (by decide)).1)
  have htank (m : Ch) : ((u.adopt st).takeTail e st).ow.tanks.get m
      = if s.tankUsed m = true then (s.ow.tanks.get m).begun else s.ow.tanks.get m := by
    rw [htow]
    exact (ho.tanks m).trans (by rw [hused m, huow])
  have hchan (m : Ch) : ((u.adopt st).takeTail e st).vp.channels.get m
      = if s.tankUsed m = true ∧ (s.ow.tanks.get m).begun.takingPart = true then
          (s.vp.channels.get m).open' (s.openOn m) (s.shutOn m)
        else s.vp.channels.get m := by
    rw [hct, ho.channels m, hused m, huow, v1, hos, hss]
  refine ⟨_, hx, hc.phase.trans (hp1.trans hst), ?_, ?_, fun m hm has => ⟨?_, fun hsh hpe hoo => ?_⟩,
    fun m hm => ⟨?_, fun htp => ?_⟩, fun hnone => ?_⟩
  · rw [htow]
    exact ho.receipt
  · rw [htow]
    exact ho.received
  · rw [htank m, if_pos hm, Tank.begun_assigned has]
  · have hopen : ((u.adopt st).takeTail e st).vp.channels.get m
        = (s.vp.channels.get m).open' false (s.shutOn m) := by
      rw [hchan m, if_pos ⟨hm, by rw [Tank.begun_assigned has]⟩, hoo]
    rw [hopen]
    have h1 := Channel.open'_resting (os := false) (cs := s.shutOn m) (.inl hsh) hpe
    rw [if_neg (by simp)] at h1
    exact ⟨h1.1, h1.2, fun hwell hdr => Channel.open'_drives hsh hpe hwell hdr⟩
  · rw [htank m]
    split
    · rename_i hm'
      rw [Tank.begun_other (hm.resolve_left (by simp [hm']))]
    · rfl
  · rw [hchan m, if_neg]
    rintro ⟨h1, h2⟩
    rw [Tank.begun_other (hm.resolve_left (by simp [h1])), htp] at h2
    cases h2
  · rw [hpt, hpa, hra, hpath, or_assoc, or_self]
    refine or_congr_right (forall_congr' fun m => ?_)
    rw [hk1.tankUsed (by decide), hused m, ho.tanks m, hused m, huow, hct]
    refine imp_congr_right fun hm => ?_
    rw [if_pos hm]
    by_cases has : (s.ow.tanks.get m).state = .assigned
    · simp [Tank.begun_assigned has, has]
    · simp [Tank.begun_other has, has, hnone m]

/-! ## The causes handed at OPENING entry -/

end Sys2Proof.Machine
end

section
/-! SUPPORT and the proof of O24: the causes handed at OPENING entry (R20, R36, R84, R104, R115). -/

namespace Sys2Proof.Machine

/-! ## What an entry into OPENING hands -/

section
variable {s : State} {old : Phase} {silent faults : List Nat} (hr : s.running = true)
include hr

/-- R36: the peers SILENT at OPENING entry latch LINKLOSS. -/
theorem State.handAtEntry_linkloss (hs : silent ≠ []) :
    (s.handAtEntry old .opening silent faults).hasLatched .linkloss = true := by
  have h : (s.handEach .linkloss .opening silent).hasLatched .linkloss = true :=
    State.handEach_hasLatched hr rfl rfl hs
  refine State.hasLatched_mono ?_ h
  exact ((Onward.iteSelf (State.handEach_onward _ _ _ _)).trans (Onward.iteSelf (State.handSeparation_onward _))).latched

/-- R104: the channels in sensor fault at an entry into the active phases latch SENSOR. -/
theorem State.handAtEntry_sensor (ho : old.active = false) (hm : s.tu.mask.sensor = true) (hf : faults ≠ []) :
    (s.handAtEntry old .opening silent faults).hasLatched .sensor = true := by
  have hk : Keeps cascadeParts s (s.handEach .linkloss .opening silent) := s.handEach_keeps _ _ _
  have hmask : (s.handEach .linkloss .opening silent).tu.mask = s.tu.mask := hk.part .profile (by decide)
  have h : ((s.handEach .linkloss .opening silent).handEach .sensor .opening faults).hasLatched .sensor = true :=
    State.handEach_hasLatched ((hk.running (by decide)).trans hr)
      (show (s.handEach .linkloss .opening silent).tu.mask.sensor = true by rw [hmask]; exact hm) rfl hf
  have hcond : (!old.active && Phase.opening.active) = true := by rw [ho]; rfl
  have hdef : s.handAtEntry old .opening silent faults
      = ((s.handEach .linkloss .opening silent).handEach .sensor .opening faults).separate := by
    unfold State.handAtEntry
    dsimp only
    rw [if_pos (rfl : Phase.opening = .opening), if_pos hcond]
    rfl
  rw [hdef]
  exact State.hasLatched_mono (Onward.iteSelf (State.handSeparation_onward _)).latched h

/-- R115: SEP_IN on latches SEPARATION. -/
theorem State.handAtEntry_separation (hp : s.pc.phase = .opening ∨ s.pc.phase = .tripped)
    (hs : (s.valveRole && s.inputs.sep) = true) :
    (s.handAtEntry old .opening silent faults).hasLatched .separation = true := by
  obtain ⟨x, hx, hdef⟩ : ∃ x, (Keeps cascadeParts s x ∧ Trips s x)
      ∧ s.handAtEntry old .opening silent faults = if x.valveRole && x.inputs.sep then x.handSeparation else x := by
    refine ⟨_, ⟨?_, ?_⟩, rfl⟩
    · exact (Keeps.iteSelf (State.handEach_keeps _ _ _ _)).trans (Keeps.iteSelf (State.handEach_keeps _ _ _ _))
    · exact (Trips.iteSelf (State.handEach_trips _ _ _ _)).trans (Trips.iteSelf (State.handEach_trips _ _ _ _))
  obtain ⟨hk, ht⟩ := hx
  have hxp : x.pc.phase = .opening ∨ x.pc.phase = .tripped := by
    rcases ht.same_or_tripped with ⟨h, -⟩ | h
    · rw [h]
      exact hp
    · exact .inr h
  have hck := x.closeChannel_keeps .n1
  have hl : Cause.separation.latchesIn (x.closeChannel .n1).pc.phase = true := by
    rw [(hck.part .phase (by decide)).1]
    rcases hxp with h | h <;> rw [h] <;> rfl
  rw [hdef, hk.separated (by decide), if_pos hs]
  change ((x.closeChannel .n1).handCause .separation none).hasLatched .separation = true
  rw [State.handCause, hl]
  exact State.hand_hasLatched none ((hck.running (by decide)).trans ((hk.running (by decide)).trans hr)) rfl

end

/-- R21, R84: a standing order to open VC1 that is due, with VC1 refusing, latches VALVE. -/
theorem State.runOrder_valve {s : State} (hr : s.running = true) (ho : s.pc.order = some .openVc1) (hd : s.orderDue = true)
    (hp : s.pc.phase.active = true) (hv : s.vp.channels.n1.refusesOpen = true) : s.runOrder.hasLatched .valve = true := by
  have hx : s.runOrder = s.dropOrder.handCause .valve (some 1) := by
    rcases s.runOrder_cases with ⟨hnd, -⟩ | ⟨o, -, ho', he⟩
    · rw [hd] at hnd
      cases hnd
    · rw [ho] at ho'
      cases ho'
      rw [he]
      exact if_pos hv
  have hl : Cause.valve.latchesIn s.dropOrder.pc.phase = true := hp
  rw [hx, State.handCause, hl]
  exact State.hand_hasLatched (s := s.dropOrder) (some 1) hr rfl

/-! ## The entry as a whole -/

/-- What the react to an entry hands first, up to the causes of SR and HW. -/
def State.orderRun (s : State) (old : Phase) : State := ((s.settled old).handRefused s.refusedChannels).runOrder

theorem State.react_eq (s : State) (old : Phase) :
    s.react old = ((s.orderRun old).handAtEntry old s.pc.phase s.silentNumbers s.faultChannels).watch := rfl

theorem State.orderRun_keeps (s : State) (old : Phase) : Keeps cascadeParts s (s.orderRun old) :=
  (((s.settled_keeps old).mono (by decide)).trans (State.handRefused_keeps _ _)).trans (State.runOrder_keeps _)

theorem State.handRefused_trips (s : State) (l : List Nat) : Trips s (s.handRefused l) :=
  Trips.iteSelf (s.handEach_trips _ _ _)

theorem State.orderRun_trips (s : State) (old : Phase) : Trips s (s.orderRun old) :=
  ((Trips.of_keeps (s.settled_keeps old) (by decide)).trans (State.handRefused_trips _ _)).trans (State.runOrder_trips _)

/-- What a step into OPENING hands latches, whatever else it hands. -/
theorem State.react_handed {s : State} {old : Phase} {c : Cause} (hr : s.running = true) (hp : s.pc.phase = .opening)
    (hold : old.active = false)
    (h : (c = .linkloss ∧ s.silentNumbers ≠ []) ∨ (c = .sensor ∧ s.tu.mask.sensor = true ∧ s.faultChannels ≠ [])
      ∨ (c = .separation ∧ (s.valveRole && s.inputs.sep) = true) ∨ (c = .valve ∧ (s.orderRun old).hasLatched .valve = true)) :
    (s.react old).hasLatched c = true := by
  have hk := s.orderRun_keeps old
  have hr' := (hk.running (by decide)).trans hr
  have hw : ((s.orderRun old).handAtEntry old .opening s.silentNumbers s.faultChannels).hasLatched c = true := by
    rcases h with ⟨rfl, h⟩ | ⟨rfl, hm, h⟩ | ⟨rfl, h⟩ | ⟨rfl, h⟩
    · exact State.handAtEntry_linkloss hr' h
    · have hmask : (s.orderRun old).tu.mask = s.tu.mask := hk.part .profile (by decide)
      exact State.handAtEntry_sensor hr' hold (by rw [hmask]; exact hm) h
    · refine State.handAtEntry_separation hr' ?_ (by rw [hk.separated (by decide)]; exact h)
      rcases (s.orderRun_trips old).same_or_tripped with ⟨h, -⟩ | h
      · exact .inl (h.trans hp)
      · exact .inr h
    · exact State.hasLatched_mono (State.handAtEntry_onward _ _ _ _ _).latched h
  rw [State.react_eq, hp]
  exact State.hasLatched_mono (State.watch_onward _).latched hw

/-- R36: a protected peer of the line-up list that is SILENT is named. -/
theorem State.silentNumbers_ne {s : State} {e : Entry} (he : e ∈ s.sr.entries) (hg : e.protected' = true)
    (hp : e.presence = .silent) (hl : e.number ∈ s.sl.setup.lineup)
    (hu : ∀ x ∈ s.sr.entries, x.number = e.number → x = e) : s.silentNumbers ≠ [] := by
  have hfind : (s.sr.guarded.find? fun x => x.number == e.number) = some e := by
    have hsome : (s.sr.guarded.find? fun x => x.number == e.number).isSome = true := by
      rw [List.find?_isSome]
      exact ⟨e, List.mem_filter.2 ⟨he, hg⟩, by simp⟩
    obtain ⟨x, hx⟩ := Option.isSome_iff_exists.1 hsome
    have hnum := List.find?_some (p := fun x : Entry => x.number == e.number) hx
    rw [hx, hu x (List.mem_filter.1 (List.mem_of_find?_eq_some hx)).1 (by simpa using hnum)]
  have hm : e ∈ s.lineupEntries := List.mem_filterMap.2 ⟨e.number, hl, hfind⟩
  simp only [State.silentNumbers, ne_eq, List.map_eq_nil_iff, List.filter_eq_nil_iff]
  exact fun h => h e hm (by simp [hp])

/-- R104: an enabled channel in sensor fault is named. -/
theorem State.faultChannels_ne {s : State} {c : Ch} (he : (s.hw.chans.get c).enabled = true)
    (hf : (s.hw.chans.get c).fault = true) : s.faultChannels ≠ [] := by
  simp only [State.faultChannels, ne_eq, List.map_eq_nil_iff, List.filter_eq_nil_iff]
  exact fun h => h c (Ch.mem_all c) (by simp [he, hf])

/-- R20, R84: a tank taking part whose channel refuses is named. -/
theorem State.refusedChannels_ne {s : State} {c : Ch} (hu : s.tankUsed c = true)
    (ht : (s.ow.tanks.get c).takingPart = true) (hr : (s.vp.channels.get c).refusesOpen = true) :
    s.refusedChannels ≠ [] := by
  simp only [State.refusedChannels, ne_eq, List.map_eq_nil_iff, List.filter_eq_nil_iff]
  exact fun h => h c (List.mem_filter.2 ⟨(s.mem_tanksUsed c).2 hu, ht⟩) hr

/-- R21, R84: the standing order of OPENING at BV and SV, due at its entry with VC1 in FAULT. -/
theorem State.orderRun_valve {s : State} {old : Phase} (hr : s.running = true) (hp : s.pc.phase = .opening)
    (hv : s.valveRole = true) (ho : s.pc.order = some .openVc1) (hd : OrderHolds s .openVc1)
    (hf : s.vp.channels.n1.refusesOpen = true) : (s.orderRun old).hasLatched .valve = true := by
  have htw : s.hasRole .tw = false := by
    simp only [State.valveRole, Bool.or_eq_true] at hv
    rcases hv with hv | hv <;> exact State.hasRole_unique hv (by decide)
  have hk := State.settled_active (s := s) (old := old) (by rw [hp]; rfl)
  obtain ⟨k1, -, k3⟩ := hk.part .phase (by decide)
  have hid : (s.settled old).handRefused s.refusedChannels = s.settled old := by
    refine if_neg fun h => ?_
    rw [hk.hasRole (by decide), htw] at h
    cases h.2
  have hdue : (s.settled old).orderDue = true := (State.orderDue_iff (k3.trans ho)).2
    ((OrderHolds.congr (hk.part .setup (by decide)) (hk.part .roster (by decide)) (hk.part .generation (by decide)) _).2 hd)
  rw [State.orderRun, hid]
  exact State.runOrder_valve ((hk.running (by decide)).trans hr) (k3.trans ho) hdue (by rw [k1, hp]; rfl)
    (by rw [(hk.part .channels (by decide)).1]; exact hf)

/-- R20, R21, R36, R84, R104, R115: the causes handed at OPENING entry latch. -/
theorem causes_at_opening {s : State} {n : Nat} {st : Status} (hw : PuStatusWaits s n st) (hg : st.gen = s.pc.gen)
    (hp : s.pc.phase = .lineup) (hst : st.phase = .opening) :
    ∃ t, exec .rosterTakeFrame s = .next t
      ∧ ∀ c, (HandedAtOpening s n c
            ∨ c = .valve ∧ s.valveRole = true ∧ OrderHolds { s with sr := t.sr } .openVc1
              ∧ s.vp.channels.n1.state = .fault ∧ s.vp.channels.n1.pending = false) →
          t.hasLatched c = true ∧ (s.hasLatched c = false → t.pc.phase = .tripped) := by
  obtain ⟨u, e, hu, hr, hpu, hx⟩ := hw.heard
  obtain ⟨h1, -, -, h4, -, -, -, h8⟩ := hu.same
  have hup := h1.trans hp
  have hn : u.pc.phase ≠ .tripped := by rw [hup]; decide
  have hfollow : (u.honourPu n st).followPu n st = (u.adopt st).compareTransfer st := by
    rw [State.honourPu_not (by simp [hst]), State.followPu_same (hg.trans h4.symm), State.followSame,
      if_neg (by simp [hup, hst]), if_pos (by rw [hup, hst]; rfl)]
  rw [hfollow] at hx
  obtain ⟨hk, hcp, hco, -⟩ := State.adopted_spec (st := st) hr hpu
  have hcp' := hcp.trans hst
  have hcr := (hk.running (by decide)).trans hr
  have hat := State.adopted_of_busy (s := u) (st := st) (by rw [hup]; decide)
  rw [hst] at hat
  have hold : (u.adopting st).pc.phase.active = false := by
    rw [((u.adopting_keeps st).part .phase (by decide)).1, hup]
    rfl
  have hak := u.adopt_keeps st
  have hkc := (u.adopt st).compareTransfer_keeps st
  have hcalmless : Trips (u.adopted st) (((u.adopt st).compareTransfer st).takeTail e st) :=
    ((State.react_trips _ _).trans (State.compareTransfer_trips _ st)).trans (State.takeTail_trips e st
      ((hkc.running (by decide)).trans ((hak.running (by decide)).trans hr))
      ((hkc.hasRole (by decide) .pu).trans ((hak.hasRole (by decide) .pu).trans hpu)))
  have honward : Onward (u.adopt st) (((u.adopt st).compareTransfer st).takeTail e st) :=
    (State.compareTransfer_onward _ st).trans (State.takeTail_onward e st _)
  have hcs : Keeps (phaseParts ++ [.transfer, .roster]) s (u.adopted st) :=
    (hu.keeps.mono (by decide)).trans (hk.mono (by decide))
  have hlatched (c : Cause) : (u.adopted st).hasLatched c = s.hasLatched c := by
    have := (hcs.part .tripRecord (by decide)).2.1
    simp only [State.hasLatched, this]
  have hsr : (((u.adopt st).compareTransfer st).takeTail e st).sr = (u.adopted st).sr := by
    have k : Keeps (followParts ++ leakParts ++ [.receive]) u (((u.adopt st).compareTransfer st).takeTail e st) :=
      ((hak.mono (by decide)).trans (hkc.mono (by decide))).trans ((State.takeTail_keeps e st _).mono (by decide))
    exact (k.part .roster (by decide) : _ = _).trans (hk.part .roster (by decide) : _ = _).symm
  have hrefuses (m : Ch) : ((u.adopted st).vp.channels.get m).refusesOpen = (s.vp.channels.get m).refusesOpen := by
    rw [hat, State.changePhase_opening_refuses _ _ hn hpu, (hu.keeps.part .channels (by decide)).1]
  refine ⟨_, hx, fun c hc => ?_⟩
  have hreact : (u.adopt st).hasLatched c = true := by
    rw [u.adopt_eq]
    rcases hc with hc | ⟨rfl, hv, ho, hf, hpend⟩
    · cases c with
      | valve =>
        obtain ⟨htw, k, hused, has, hf, hpend⟩ := hc
        have htwu := (hu.keeps.hasRole (by decide) .tw).trans htw
        have ht := (State.changePhase_opening_tanks st.body.nomination.1 st.body.nomination.2 hn htwu).tanks k
        have huow : u.ow = s.ow := hu.keeps.part .tanks (by decide)
        rw [← hat, hu.keeps.tankUsed (by decide), if_pos hused, huow, Tank.begun_assigned has] at ht
        refine State.react_refused _ hcr hcp' ((hk.hasRole (by decide) .tw).trans htwu) (State.refusedChannels_ne (c := k)
          ((hcs.tankUsed (by decide) k).trans hused) (by rw [ht]) ?_)
        rw [hrefuses]
        simp [Channel.refusesOpen, hf, hpend]
      | linkloss =>
        obtain ⟨x, hx, hg, hpr, hnum, hl, huniq⟩ := hc
        have husl : u.sl = s.sl := hu.keeps.part .setup (by decide)
        refine State.react_handed hcr hcp' hold (.inl ⟨rfl, ?_⟩)
        rw [hk.silentNumbers (by decide)]
        refine State.silentNumbers_ne (hu.kept x hx hg hnum huniq) hg hpr (by rw [husl]; exact hl) fun y hy hyn => ?_
        exact (hu.entries y hy).elim (fun h => absurd (hyn.symm.trans h.1) hnum) fun h => huniq y h.2 hyn
      | sensor =>
        obtain ⟨hm, k, he, hf⟩ := hc
        have hmask : (u.adopted st).tu.mask = s.tu.mask := hcs.part .profile (by decide)
        refine State.react_handed hcr hcp' hold (.inr (.inl ⟨rfl, by rw [hmask]; exact hm, ?_⟩))
        rw [hcs.faultChannels (by decide)]
        exact State.faultChannels_ne he hf
      | separation =>
        refine State.react_handed hcr hcp' hold (.inr (.inr (.inl ⟨rfl, ?_⟩)))
        rw [hcs.separated (by decide), hc.1, hc.2]
        rfl
      | manual | overfill | surge | hardlimit | leak | pump | phase | noflow => exact hc.elim
    · have hvu := (hcs.valveRole (by decide)).trans hv
      refine State.react_handed hcr hcp' hold (.inr (.inr (.inr ⟨rfl, ?_⟩)))
      refine State.orderRun_valve hcr hcp' hvu (hco.trans ?_) ?_ ?_
      · rw [hu.keeps.role (by decide), hst]
        simp only [State.valveRole, Bool.or_eq_true, State.hasRole_iff] at hv
        rcases hv with hv | hv <;> rw [hv] <;> rfl
      · exact (OrderHolds.congr (s := { s with sr := (((u.adopt st).compareTransfer st).takeTail e st).sr })
          (hcs.part .setup (by decide)) hsr.symm (hcs.part .generation (by decide)) _).2 ho
      · have h := hrefuses .n1
        change (u.adopted st).vp.channels.n1.refusesOpen = _ at h
        rw [h]
        have hf' : (s.vp.channels.get .n1).state = .fault := hf
        have hp' : (s.vp.channels.get .n1).pending = false := hpend
        simp [Channel.refusesOpen, hf', hp']
  have hfin := State.hasLatched_mono honward.latched hreact
  exact ⟨hfin, fun hno => hcalmless.tripped ((hlatched c).trans hno) hfin⟩

end Sys2Proof.Machine

open Sys2Proof Sys2Proof.Machine

/-- Settles O24, entry by entry: what the adoption of PU's step does at the phase change, and that what follows leaves it
so. -/
theorem entryActions : Obligations.EntryActions :=
  ⟨fun _ _ _ hw hq hg hp hst htw hv hh => opening_at_tw hw hq hg hp hst htw hv hh,
    fun _ _ _ hw hg hp hst => causes_at_opening hw hg hp hst,
    fun _ _ _ hw hq hg hp hst => idle_entry hw hq hg hp hst,
    fun _ _ _ _ hw hq hv hg hh hrow ho => order_at_entry hw hq hv hg hh hrow ho,
    fun _ _ _ hw hq hg hp hst hbv hh => closing_at_bv hw hq hg hp hst hbv hh,
    fun _ _ _ hw hq hg hp hst ho => closing_from_opening hw hq hg hp hst ho,
    fun _ _ _ _ _ hr hpu _ hd hf hc hn ht hh ho => order_at_status hr hpu hd hf hc hn ht hh ho,
    fun _ _ hr htw hp hn hc hf ho hs => path_at_arrival hr htw hp hn hc hf ho hs⟩
end

section
/-! SUPPORT. The bounds of the manual together, and the blocks that have one (R27, R75, R81, R162, R169, R197, R202). -/

namespace Sys2Proof.Machine

/-! ## The bounds together -/

/-- The bounds of the manual: the report queue, the attempt counts, the alarm set and the channel records, the table,
the two buffers. -/
structure Bounded (s : State) : Prop where
  sound : Sound s
  roster : RosterOk s
  buffers : BuffersOk s

theorem Bounded.iff (s : State) : Bounded s ↔ Sound s ∧ RosterOk s ∧ BuffersOk s :=
  ⟨fun h => ⟨h.sound, h.roster, h.buffers⟩, fun ⟨h1, h2, h3⟩ => ⟨h1, h2, h3⟩⟩

/-- A change of state that keeps the sound shape and leaves the table and the two buffers alone. -/
theorem Bounded.frame {T : List Part} {s t : State} (h : Bounded s) (hf : Frame T s t) (ht : Sound t)
    (hT : decide (Part.roster ∉ T ∧ Part.receive ∉ T ∧ Part.panelLine ∉ T) = true) : Bounded t := by
  obtain ⟨h1, h2, h3⟩ := of_decide_eq_true hT
  have hsr : t.sr = s.sr := hf .roster h1
  obtain ⟨-, -, hasm, -, -⟩ := hf .receive h2
  obtain ⟨hbuf, -⟩ := hf .panelLine h3
  exact ⟨ht, ⟨hsr ▸ h.roster.places, hsr ▸ h.roster.distinct⟩, ⟨hasm ▸ h.buffers.frame, hbuf ▸ h.buffers.line⟩⟩

theorem Keeps.bounded {T : List Part} {s t : State} (k : Keeps T s t) (h : Bounded s)
    (hT : decide (Part.roster ∉ T ∧ Part.receive ∉ T ∧ Part.panelLine ∉ T) = true) : Bounded t :=
  h.frame k.frame (k.sound h.sound) hT

/-- A change that touches none of the things that have a bound. -/
theorem Bounded.congr {s t : State} (h : Bounded s) (hpp : t.pp = s.pp) (hlc : t.lc = s.lc) (han : t.an.set = s.an.set)
    (hvp : t.vp.channels = s.vp.channels) (hsr : t.sr.entries = s.sr.entries) : Bounded t :=
  ⟨⟨hpp ▸ h.sound.queue, hlc ▸ h.sound.counts, han ▸ h.sound.alarms, hvp ▸ h.sound.channels⟩,
    ⟨hsr ▸ h.roster.places, hsr ▸ h.roster.distinct⟩, ⟨hlc ▸ h.buffers.frame, hpp ▸ h.buffers.line⟩⟩

theorem Bounded.ite {s t : State} {c : Prop} [Decidable c] (h : c → Bounded s) (k : ¬ c → Bounded t) :
    Bounded (if c then s else t) := by
  split
  · exact h ‹_›
  · exact k ‹_›

theorem Bounded.iteSelf {s t : State} {c : Prop} [Decidable c] (k : Bounded s) (h : c → Bounded t) :
    Bounded (if c then t else s) := .ite h fun _ => k

/-! ## The blocks with a bound -/

theorem Bounded.putLink {s : State} (l : LinkController) (h : Bounded s) (hc : l.countsOk)
    (ha : l.assembly.bytes.length ≤ 64) : Bounded { s with lc := l } :=
  ⟨⟨h.sound.queue, hc, h.sound.alarms, h.sound.channels⟩, ⟨h.roster.places, h.roster.distinct⟩, ⟨ha, h.buffers.line⟩⟩

theorem Bounded.putPort {s : State} (p : PanelPort) (h : Bounded s) (hq : p.queue.length ≤ 8)
    (hb : p.buffer.length ≤ 40) : Bounded { s with pp := p } :=
  ⟨⟨hq, h.sound.counts, h.sound.alarms, h.sound.channels⟩, ⟨h.roster.places, h.roster.distinct⟩, ⟨h.buffers.frame, hb⟩⟩

theorem Bounded.putRoster {s : State} (r : Roster) (h : Bounded s) (hr : tableOk r.entries) :
    Bounded { s with sr := r } :=
  ⟨⟨h.sound.queue, h.sound.counts, h.sound.alarms, h.sound.channels⟩, (RosterOk.iff _).2 hr,
    ⟨h.buffers.frame, h.buffers.line⟩⟩

theorem Bounded.putChannels {s : State} (v : ValvePump) (h : Bounded s) (hv : ∀ n : Ch, (v.channels.get n).Ok) :
    Bounded { s with vp := v } :=
  ⟨⟨h.sound.queue, h.sound.counts, h.sound.alarms, hv⟩, ⟨h.roster.places, h.roster.distinct⟩,
    ⟨h.buffers.frame, h.buffers.line⟩⟩

theorem Bounded.table {s : State} (h : Bounded s) : tableOk s.sr.entries := (RosterOk.iff s).1 h.roster

theorem Bounded.emit {s : State} (e : Event) (h : Bounded s) : Bounded (s.emit e) :=
  (s.emit_keeps e).bounded h (by decide)

theorem Bounded.watch {s : State} (h : Bounded s) : Bounded s.watch := s.watch_keeps.bounded h (by decide)

theorem Bounded.puEval {s : State} (h : Bounded s) : Bounded s.puEval := s.puEval_keeps.bounded h (by decide)

theorem Bounded.handCause {s : State} (c : Cause) (d : Option Nat) (h : Bounded s) : Bounded (s.handCause c d) :=
  (s.handCause_keeps c d).bounded h (by decide)

theorem Bounded.report {s : State} (r : Report) (h : Bounded s) : Bounded (s.report r) :=
  h.frame (s.report_frame r) (State.report_sound r h.sound) (by decide)

theorem Bounded.putChannel {s : State} (n : Ch) (c : Channel) (h : Bounded s) (hc : c.Ok) :
    Bounded (s.putChannel n c) := (s.putChannel_keeps n c fun _ => hc).bounded h (by decide)

theorem Bounded.channel {s : State} (h : Bounded s) (n : Ch) : (s.vp.channels.get n).Ok := h.sound.channels n

/-! ## The Link Controller -/

/-- R162: a frame placed whole begins with no attempt counted. -/
theorem LinkController.hold_counts {l : LinkController} (k : FrameKind) (f : HeldFrame) (h : l.countsOk) :
    (l.hold k f).countsOk :=
  LinkController.setPlace_counts _ k _ (by rintro q ⟨⟩; exact Nat.zero_le _) (LinkController.withdraw_counts l k h)

@[simp] theorem LinkController.hold_assembly (l : LinkController) (k : FrameKind) (f : HeldFrame) :
    (l.hold k f).assembly = l.assembly := by simp [LinkController.hold, LinkController.withdraw]

@[simp] theorem LinkController.succeed_assembly (l : LinkController) (a : Attempt) :
    (l.succeed a).assembly = l.assembly := by
  unfold LinkController.succeed
  cases a.detached <;> simp

@[simp] theorem LinkController.fail_assembly (l : LinkController) (a : Attempt) : (l.fail a).assembly = l.assembly := by
  unfold LinkController.fail
  cases a.detached <;> simp

@[simp] theorem LinkController.toDelivery_assembly (l : LinkController) : l.toDelivery.assembly = l.assembly := by
  unfold LinkController.toDelivery
  split <;> rfl

/-- R168: a frame that leaves the assembly slot leaves it without bytes. -/
theorem LinkController.toCheck_assembly (l : LinkController) :
    l.toCheck.1.assembly = l.assembly ∨ l.toCheck.1.assembly = l.assembly.hunt := by
  unfold LinkController.toCheck
  split
  · exact .inr (by split <;> rfl)
  · exact .inl rfl

theorem Bounded.hold {s : State} (k : FrameKind) (f : HeldFrame) (h : Bounded s) :
    Bounded { s with lc := s.lc.hold k f } :=
  h.putLink _ (LinkController.hold_counts k f h.sound.counts)
    (by rw [LinkController.hold_assembly]; exact h.buffers.frame)

theorem Bounded.moveSlots {s : State} (h : Bounded s) : Bounded s.moveSlots := by
  refine ((State.emitAll_keeps _ _).bounded (h.putLink _ ?_ ?_) (by decide) : Bounded (State.emitAll _ _))
  · have hc := s.moveSlots_keeps.sound h.sound |>.counts
    exact hc
  · have ha : s.lc.toDelivery.assembly.bytes.length ≤ 64 := by simpa using h.buffers.frame
    rw [LinkController.toDelivery_assembly]
    rcases s.lc.toDelivery.toCheck_assembly with he | he
    · rw [he]
      exact ha
    · rw [he]
      exact Nat.zero_le _

/-- R50 to R52: a request ended without an ANSWER. -/
theorem Bounded.endNoAnswer {s : State} (h : Bounded s) : Bounded s.endNoAnswer := by
  unfold State.endNoAnswer
  split
  · exact Bounded.report _ (h.congr rfl rfl rfl rfl rfl)
  · exact h

/-- R165, R166: an attempt that fails. -/
theorem Bounded.mismatch {s : State} (a : Attempt) (h : Bounded s) : Bounded (s.mismatch a) := by
  have hfail : Bounded { s with lc := s.lc.fail a } :=
    h.putLink _ (s.lc.fail_counts a h.sound.counts) (by simpa using h.buffers.frame)
  obtain ⟨he, -⟩ | ⟨p, -, -, -, hother, hrequest⟩ := s.mismatch_cases a
  · rw [he]
    exact hfail
  · by_cases hk : a.kind = .request
    · rw [hrequest hk]
      exact (hfail.emit _).endNoAnswer
    · rw [hother hk]
      exact hfail.emit _

/-- R164: a character compared with the one sent. -/
theorem Bounded.compareEcho {s : State} (c : LineChar) (h : Bounded s) : Bounded (s.compareEcho c) := by
  unfold State.compareEcho
  split
  · exact h
  · rename_i a _
    split
    · refine .ite (fun _ => .ite (fun _ => ?_) fun _ => ?_) fun _ => h.mismatch a
      · exact h.putLink _ (s.lc.succeed_counts a h.sound.counts) (by simpa using h.buffers.frame)
      · exact h.putLink _ h.sound.counts h.buffers.frame
    · exact h.mismatch a

end Sys2Proof.Machine
end

section
/-! SUPPORT. The bounds after a millisecond and after the commands of start-up, the link, the roster and the
requests. -/

namespace Sys2Proof.Machine

/-- A command answers a state within the bounds. -/
def AnswersBounded (c : Instr) (s : State) : Prop := ∃ t, exec c s = .next t ∧ Bounded t

/-! ## Time and start-up -/

theorem Channel.tick_ok {c : Channel} (limit : Nat) (h : c.Ok) : (c.tick limit).Ok := Channel.ok_of_bare (by rfl) h

theorem Bounded.tick {s : State} (h : Bounded s) : Bounded s.tick := by
  have hch : ∀ n : Ch, (s.tick.vp.channels.get n).Ok := fun n => by
    have hn : s.tick.vp.channels.get n = (s.vp.channels.get n).tick (s.sl.setup.travel.get n) :=
      s.vp.tick_channel s.sl.setup n
    exact hn ▸ Channel.tick_ok _ (h.channel n)
  have hnum : Entry.number ∘ Entry.tick s.sl.setup.silence = Entry.number := funext fun e => by
    unfold Function.comp Entry.tick
    split <;> rfl
  have htable : tableOk s.tick.sr.entries := by
    change tableOk (if s.listening then s.sr.entries.map (Entry.tick s.sl.setup.silence) else s.sr.entries)
    split
    · refine ⟨by simpa using h.table.1, ?_⟩
      rw [List.map_map, hnum]
      exact h.table.2
    · exact h.table
  exact ⟨⟨h.sound.queue, h.sound.counts, h.sound.alarms, hch⟩, (RosterOk.iff _).2 htable,
    ⟨h.buffers.frame, h.buffers.line⟩⟩

theorem Bounded.reset : Bounded State.reset :=
  ⟨⟨Nat.zero_le _, ⟨nofun, nofun, nofun, nofun⟩, List.nodup_nil, fun n => by cases n <;> exact Channel.start_ok⟩,
    ⟨Nat.zero_le _, List.nodup_nil⟩, ⟨Nat.zero_le _, Nat.zero_le _⟩⟩

variable {s : State}

theorem startUp_bounded (s : State) : AnswersBounded .startUp s := by
  refine ⟨_, rfl, ?_⟩
  have hch : ∀ n : Ch, ((ValvePump.startFrom s.inputs).channels.get n).Ok := fun n => by
    cases n <;> exact Channel.follow_ok _ _ rfl Channel.start_ok
  exact (Bounded.reset.putChannels _ hch).congr rfl rfl rfl rfl rfl

theorem Bounded.enterOffline (f : FaultRecord) (h : Bounded s) : Bounded (s.enterOffline f) :=
  have hs := State.enterOffline_sound f h.sound
  have ht := State.watch_keeps { s with
    pc := { s.pc with station := .offline }, sl := { s.sl with fault := f, joinWindow := .stopped }
    lc := .offline, vp := s.vp.offline, hw := s.hw.offline }
  have hb : (s.enterOffline f).lc.assembly.bytes.length = 0 := by
    obtain ⟨-, -, ha, -, -⟩ := ht.part .receive (by decide)
    exact congrArg (fun a => a.bytes.length) ha
  have hl : (s.enterOffline f).pp.buffer = s.pp.buffer := (ht.part .panelLine (by decide)).1
  have hr : (s.enterOffline f).sr = s.sr := ht.part .roster (by decide)
  ⟨hs, ⟨hr ▸ h.roster.places, hr ▸ h.roster.distinct⟩, ⟨hb ▸ Nat.zero_le _, hl ▸ h.buffers.line⟩⟩

theorem Bounded.reject (f : FaultRecord) (h : Bounded s) : Bounded (s.reject f) :=
  Bounded.enterOffline f (h.congr rfl rfl rfl rfl rfl)

theorem resetInOff_bounded (sn : BitVec 4) (rl : BitVec 3) (h : Bounded s) :
    AnswersBounded (.resetInOff sn rl) s := by
  refine ⟨_, rfl, .iteSelf h fun _ => ?_⟩
  have hin : Bounded { s with inputs := { s.inputs with resetIn := false } } := h.congr rfl rfl rfl rfl rfl
  unfold State.readStraps
  refine .ite (fun _ => hin.reject _) fun _ => ?_
  split
  · exact hin.reject _
  · rename_i r _
    have hv : (s.vp.forRole r).channels = s.vp.channels := by
      unfold ValvePump.forRole
      split <;> rfl
    exact hin.congr rfl rfl rfl hv rfl

theorem takeOverfills_bounded (l : List Ch) (h : Bounded s) : Bounded (l.foldl State.takeOverfill s) :=
  (Keeps.foldl State.takeOverfill_keeps l s).bounded h (by decide)

/-- R28, R192: the table at JOINING entry, from a setup whose line-up list has eight fields. -/
theorem Bounded.freeze (r : Role) (c : Setup) (hl : c.lineup.length ≤ 12) (h : Bounded s) : Bounded (s.freeze r c) := by
  refine takeOverfills_bounded _ ?_
  obtain ⟨hnodup, hlen, -⟩ := protectedNumbers_spec s.number c.lineup
  have hnum : Entry.number ∘ Entry.guard = id := rfl
  have htable : tableOk ((protectedNumbers s.number c.lineup).map Entry.guard) :=
    ⟨by rw [List.length_map]; omega, by rw [List.map_map, hnum, List.map_id]; exact hnodup⟩
  have hv : (s.vp.join r).channels = s.vp.channels := by
    unfold ValvePump.join
    split <;> rfl
  exact (h.putRoster ⟨_, .start⟩ htable).congr rfl rfl rfl hv rfl

theorem setupRead_bounded (image : Image) (h : Bounded s) : AnswersBounded (.setupRead image) s := by
  refine ⟨_, rfl, ?_⟩
  split
  · rename_i r _ _
    have hi : Bounded (s.takeImage image) := h.congr rfl rfl rfl rfl rfl
    unfold State.checkSetup
    split
    · exact hi.reject _
    · refine hi.freeze r _ ?_
      simp [freezeSetup]
  · exact h

theorem joinWindowEnd_bounded (h : Bounded s) : AnswersBounded .joinWindowEnd s := by
  by_cases hj : s.pc.station = .joining
  swap
  · exact ⟨s, congrArg Host.Outcome.next (if_neg hj), h⟩
  refine ⟨_, State.execJoinWindowEnd_joining hj, ?_⟩
  have hrun : Bounded s.beginRunning :=
    (h.putLink { s.lc with heartbeat := .fromZero } h.sound.counts h.buffers.frame).congr rfl rfl rfl rfl rfl
  have henter : Bounded (s.beginRunning.enterPhase s.sr.join.heard) := by
    cases s.sr.join.heard with
    | true =>
      rw [State.enterPhase_heard]
      exact (State.latch_keeps _ _ _).bounded hrun (by decide)
    | false => exact (State.enterPhase_idle_keeps _).1.bounded hrun (by decide)
  exact ((State.handStanding_keeps _).bounded henter (by decide)).watch.puEval

/-! ## The link -/

theorem lineCharacter_bounded (c : LineChar) (h : Bounded s) : AnswersBounded (.lineCharacter c) s := by
  refine ⟨_, rfl, .iteSelf h fun _ => (State.emitAll_keeps _ _).bounded ?_ (by decide)⟩
  have hheard : Bounded { s with lc := { s.lc with line := s.lc.line.heard, idle := 0 } } :=
    h.putLink _ h.sound.counts h.buffers.frame
  have hecho := hheard.compareEcho c
  exact hecho.putLink _ hecho.sound.counts (Assembly.take_length _ c _ h.buffers.frame)

theorem echoTimeout_bounded (h : Bounded s) : AnswersBounded .echoTimeout s := by
  refine ⟨_, rfl, ?_⟩
  split
  · exact h.mismatch _
  · exact h

theorem lineIdle_bounded (h : Bounded s) : AnswersBounded .lineIdle s :=
  ⟨_, rfl, .iteSelf h fun _ => Bounded.moveSlots (h.putLink _ h.sound.counts h.buffers.frame)⟩

theorem attempt_bounded (h : Bounded s) : AnswersBounded .attempt s := by
  refine ⟨_, rfl, .iteSelf h fun _ => ?_⟩
  split
  · split
    · exact h.putLink _ h.sound.counts h.buffers.frame
    · exact h
  · exact h

theorem heartbeat_bounded (h : Bounded s) : AnswersBounded .heartbeat s :=
  ⟨_, rfl, .iteSelf h fun _ =>
    (State.askStatus_keeps _).bounded (h.putLink _ h.sound.counts h.buffers.frame) (by decide)⟩

/-! ## The roster -/

theorem Bounded.enterFrame (r : Received) (h : Bounded s) : Bounded (s.enterFrame r) :=
  (State.emitAll_keeps _ _).bounded (h.putRoster _ (Roster.takeFrame_ok _ _ _ (Roster.takeIn_ok _ h.table))) (by decide)

theorem Bounded.takeJoining (r : Received) (h : Bounded s) : Bounded (s.takeJoining r) := by
  unfold State.takeJoining
  exact .ite (fun _ => (h.emit _).enterOffline _) fun _ => (h.enterFrame r).congr rfl rfl rfl rfl rfl

/-- R53, R56: a REQUEST frame taken at PU. -/
theorem Bounded.takeRequestFrame (n code : Nat) (number : BitVec 8) (q r : Nat) (h : Bounded s) :
    Bounded (s.takeRequestFrame n code number q r) := by
  unfold State.takeRequestFrame
  refine .ite (fun _ => h.emit _) fun _ => ?_
  have hdone : Bounded (s.carryOut (ReqKind.ofCode code) q r) := (s.carryOut_keeps _ q r).bounded h (by decide)
  dsimp only
  split
  · exact hdone.hold _ _
  · exact hdone

/-- R51: an ANSWER frame for this station. -/
theorem Bounded.takeAnswerFrame (number : BitVec 8) (o : Decision) (h : Bounded s) :
    Bounded (s.takeAnswerFrame number o) := by
  unfold State.takeAnswerFrame
  split
  · exact .ite (fun _ => Bounded.report _ (h.congr rfl rfl rfl rfl rfl)) fun _ => h.emit _
  · exact h.emit _

theorem Bounded.takeContents (r : Received) (h : Bounded s) : Bounded (s.takeContents r) := by
  unfold State.takeContents
  split
  · exact .iteSelf h fun _ => h.takeRequestFrame _ _ _ _ _
  · exact .iteSelf h fun _ => h.takeAnswerFrame _ _
  · exact h.emit _
  · exact h

theorem Bounded.takeRunning (r : Received) (h : Bounded s) : Bounded (s.takeRunning r) := by
  unfold State.takeRunning
  refine .ite (fun _ => (s.takeClash_keeps r).bounded h (by decide)) fun _ => ?_
  have hoffer : Bounded ((s.enterFrame r).offerTrip r) :=
    (State.offerTrip_keeps _ r).bounded (h.enterFrame r) (by decide)
  refine Bounded.takeContents r ((State.rosterChanged_keeps _).bounded ?_ (by decide))
  split
  · exact (State.takeStatus_keeps _ _ _ _).bounded hoffer (by decide)
  · exact hoffer

theorem Bounded.takeFrame (l : List Byte) (h : Bounded s) : Bounded (s.takeFrame l) := by
  unfold State.takeFrame
  split
  · split
    · exact .ite (fun _ => h.takeJoining _) fun _ => (h.takeJoining _).emit _
    · exact h.takeJoining _
  · exact h.takeRunning _
  · exact h

theorem rosterTakeFrame_bounded (h : Bounded s) : AnswersBounded .rosterTakeFrame s := by
  refine ⟨_, rfl, ?_⟩
  split
  · have ht := h.takeFrame ‹_›
    exact Bounded.moveSlots (ht.putLink _ ht.sound.counts ht.buffers.frame)
  · exact h

theorem silenceLimit_bounded (n : Nat) (h : Bounded s) : AnswersBounded (.silenceLimit n) s := by
  refine ⟨_, rfl, ?_⟩
  split
  · rename_i e _ _
    refine .iteSelf h fun _ => ?_
    have hr := h.putRoster _ (Roster.replace_ok (e.passSilence s.sl.setup.silence) h.table)
    have hc := (State.rosterChanged_keeps _).bounded
      ((State.emitIf_keeps _ e.protected' (.presence e.number e.presence .silent)).bounded hr (by decide)) (by decide)
    exact .iteSelf hc fun _ => hc.handCause _ _
  · exact h

theorem removalLimit_bounded (n : Nat) (h : Bounded s) : AnswersBounded (.removalLimit n) s := by
  refine ⟨_, rfl, ?_⟩
  split
  · have hr : Bounded { s with sr := { s.sr with entries := s.sr.without n } } :=
      h.putRoster { s.sr with entries := s.sr.without n } (s.sr.without_ok n h.table).1
    exact .ite (fun _ => h) fun _ => (State.rosterChanged_keeps _).bounded (hr.emit _) (by decide)
  · exact h

/-! ## Requests and steps in hand -/

theorem stepConfirmationTimeout_bounded (h : Bounded s) : AnswersBounded .stepConfirmationTimeout s := by
  refine ⟨_, rfl, ?_⟩
  split
  · exact Bounded.puEval (Bounded.handCause _ _ (Bounded.emit _ (h.congr rfl rfl rfl rfl rfl)))
  · exact h

theorem answerTimerExpiry_bounded (h : Bounded s) : AnswersBounded .answerTimerExpiry s :=
  ⟨_, rfl, .iteSelf h fun _ => Bounded.endNoAnswer
    (h.putLink _ (s.lc.withdraw_counts .request h.sound.counts)
      (by simpa [LinkController.withdraw] using h.buffers.frame))⟩

end Sys2Proof.Machine
end

section
/-! SUPPORT and the proof of O56: the bounds after the commands of the plant and of the panel, and after every step. -/

namespace Sys2Proof.Machine

variable {s : State}

/-! ## Valves, pump and inputs -/

theorem Bounded.putInputs (i : Inputs) (h : Bounded s) : Bounded { s with inputs := i } := h.congr rfl rfl rfl rfl rfl

theorem valveSwitchChange_bounded (n : Ch) (sw : Switch) (on : Bool) (h : Bounded s) :
    AnswersBounded (.valveSwitchChange n sw on) s :=
  have hi := h.putInputs (s.inputs.setSwitch n sw on)
  ⟨_, rfl, .ite (fun _ => h) fun _ => .ite (fun _ => (State.switchUsed_keeps _ n sw on).bounded hi (by decide)) fun _ =>
    (State.switchUnused_keeps _ n).bounded hi (by decide)⟩

theorem dwellExpiry_bounded (n : Ch) (h : Bounded s) : AnswersBounded (.dwellExpiry n) s :=
  ⟨_, rfl, .iteSelf h fun _ =>
    (h.putChannel n _ (Channel.progress_ok _ _ (Channel.endDwell_ok (h.channel n)))).watch⟩

theorem travelLimitExpiry_bounded (n : Ch) (h : Bounded s) : AnswersBounded (.travelLimitExpiry n) s :=
  ⟨_, rfl, .iteSelf h fun _ => ((h.putChannel n _ (Channel.toFault_ok _)).handCause .valve (some n.num)).watch⟩

theorem holdOffExpiry_bounded (h : Bounded s) : AnswersBounded .holdOffExpiry s :=
  ⟨_, rfl, .iteSelf h fun _ => ((s.releaseAll_keeps .holdOff).bounded h (by decide)).watch⟩

theorem pumpFbChange_bounded (on : Bool) (h : Bounded s) : AnswersBounded (.pumpFbChange on) s :=
  have hi := h.putInputs { s.inputs with pumpFb := on }
  ⟨_, rfl, .ite (fun _ => h) fun _ => .ite (fun _ => Bounded.puEval (Bounded.watch
    (.ite (fun _ => (State.feedbackOn_keeps _).bounded hi (by decide))
      fun _ => (State.feedbackOff_keeps _).bounded hi (by decide))))
    fun _ => hi⟩

theorem feedbackTimerExpiry_bounded (h : Bounded s) : AnswersBounded .feedbackTimerExpiry s :=
  ⟨_, rfl, .iteSelf h fun _ =>
    ((State.handPump_keeps _ .noFeedback).bounded
      (h.putChannels { s.vp with feedback := .stopped } h.channel) (by decide)).watch.puEval⟩

theorem stopTimerExpiry_bounded (h : Bounded s) : AnswersBounded .stopTimerExpiry s :=
  ⟨_, rfl, .iteSelf h fun _ =>
    ((State.handPump_keeps _ .noStop).bounded
      (h.putChannels { s.vp with stopTimer := .stopped } h.channel) (by decide)).watch.puEval⟩

theorem esdInChange_bounded (on : Bool) (h : Bounded s) : AnswersBounded (.esdInChange on) s :=
  have hi := h.putInputs { s.inputs with esd := on }
  ⟨_, rfl, .ite (fun _ => h) fun _ => Bounded.watch (.iteSelf hi fun _ => hi.handCause .manual none)⟩

theorem sepInChange_bounded (on : Bool) (h : Bounded s) : AnswersBounded (.sepInChange on) s :=
  have hi := h.putInputs { s.inputs with sep := on }
  ⟨_, rfl, .ite (fun _ => h) fun _ => .iteSelf hi fun _ =>
    Bounded.watch (.iteSelf hi fun _ => (State.handSeparation_keeps _).bounded hi (by decide))⟩

theorem ackInChange_bounded (on : Bool) (h : Bounded s) : AnswersBounded (.ackInChange on) s :=
  have hi := h.putInputs { s.inputs with ack := on }
  ⟨_, rfl, .ite (fun _ => h) fun _ => .iteSelf hi fun _ => (State.acknowledge_keeps _).bounded hi (by decide)⟩

theorem cadenceToggle_bounded (o : Sounder) (h : Bounded s) : AnswersBounded (.cadenceToggle o) s := by
  cases o
  · exact ⟨_, rfl, h.congr rfl rfl rfl rfl rfl⟩
  · exact ⟨_, rfl, h.congr rfl rfl rfl rfl rfl⟩

theorem qualificationExpiry_bounded (q : QualId) (h : Bounded s) : AnswersBounded (.qualificationExpiry q) s :=
  ⟨_, rfl, .iteSelf h fun _ => ((s.qualify_keeps q).bounded h (by decide)).watch.puEval⟩

/-! ## Tanks and claims -/

theorem hhChange_bounded (n : Ch) (on : Bool) (h : Bounded s) : AnswersBounded (.hhChange n on) s :=
  have hi := h.putInputs { s.inputs with hh := s.inputs.hh.set n on }
  ⟨_, rfl, .ite (fun _ => h) fun _ => .iteSelf hi fun _ =>
    ((State.takeOverfill_keeps _ n).bounded hi (by decide)).watch⟩

theorem claimWaitExpiry_bounded (h : Bounded s) : AnswersBounded .claimWaitExpiry s := by
  refine ⟨_, rfl, ?_⟩
  split
  · rename_i n _ _
    have hdecided : Bounded (if !s.peerClaimBelow && s.peerRoute then s.winClaim n else s.loseClaim n) :=
      .ite (fun _ => (s.winClaim_keeps n).bounded h (by decide))
        fun _ => (s.loseClaim_keeps n).bounded h (by decide)
    have hfull := (State.judgeAllFull_keeps _).bounded hdecided (by decide)
    exact ((State.judgeEnds_keeps _).bounded hfull (by decide)).watch
  · exact h

theorem settleExpiry_bounded {c : Instr} (hc : c = .settleWindowExpiry ∨ c = .settleLimitExpiry) (h : Bounded s) :
    AnswersBounded c s := by
  rcases hc with rfl | rfl <;> exact ⟨_, rfl, .iteSelf h fun _ => s.completeSettling_keeps.bounded h (by decide)⟩

/-! ## The meter -/

theorem meterPulse_bounded (h : Bounded s) : AnswersBounded .meterPulse s :=
  ⟨_, rfl, .iteSelf h fun _ => (State.litres_keeps _ _).bounded (h.congr rfl rfl rfl rfl rfl) (by decide)⟩

theorem rateWindow_bounded (h : Bounded s) : AnswersBounded .rateWindow s :=
  ⟨_, rfl, .iteSelf h fun _ => Bounded.puEval (Bounded.watch ((State.handNoFlow_keeps _ _).bounded
    ((State.followCap_keeps _).bounded (h.congr rfl rfl rfl rfl rfl) (by decide)) (by decide)))⟩

theorem startLimitExpiry_bounded (h : Bounded s) : AnswersBounded .startLimitExpiry s :=
  ⟨_, rfl, .iteSelf h fun _ => Bounded.puEval (Bounded.watch ((State.handNoFlow_keeps _ _).bounded
    (h.congr rfl rfl rfl rfl rfl) (by decide)))⟩

/-! ## The scan and the pressure watch -/

theorem scanSetStart_bounded (h : Bounded s) : AnswersBounded .scanSetStart s :=
  ⟨_, rfl, .iteSelf h fun _ => s.startSet_keeps.bounded h (by decide)⟩

theorem scanReading_bounded (raw : BitVec 12) (h : Bounded s) : AnswersBounded (.scanReading raw) s := by
  refine ⟨_, rfl, ?_⟩
  split
  · refine Bounded.congr (Bounded.puEval (Bounded.watch ((State.handOn_keeps _ _ _).bounded ?_ (by decide))))
      rfl rfl rfl rfl rfl
    exact h.congr rfl rfl rfl rfl rfl
  · exact h

theorem allowanceExpiry_bounded (h : Bounded s) : AnswersBounded .allowanceExpiry s :=
  have ht : Bounded (if s.hw.excursion = .excursion then s.handCause .surge none else s) :=
    .iteSelf h fun _ => h.handCause .surge none
  ⟨_, rfl, .iteSelf h fun _ => Bounded.puEval (Bounded.watch (ht.congr rfl rfl rfl rfl rfl))⟩

theorem relaxExpiry_bounded (h : Bounded s) : AnswersBounded .relaxExpiry s :=
  ⟨_, rfl, .iteSelf h fun _ => Bounded.watch (h.congr rfl rfl rfl rfl rfl)⟩

/-! ## The panel -/

theorem Bounded.handleLine {f : State → State} (h : Bounded s) (hf : Bounded (f s)) : Bounded (s.handleLine f) :=
  .ite (fun _ => hf) fun _ => h.putPort _ h.sound.queue h.buffers.line

theorem Bounded.requestLine (k : ReqKind) (q r : Nat) (h : Bounded s) : Bounded (s.requestLine k q r) := by
  refine .ite (fun _ => h.report _) fun _ => .ite (fun _ => ?here) fun _ => ?out
  case here => exact ((s.carryOut_keeps (some k) q r).bounded h (by decide)).report _
  case out =>
    refine .ite (fun _ => h.report _) fun _ => .ite (fun _ => h.report _) fun _ => ?_
    cases hh : s.header with
    | none => exact h.congr rfl (by simp [State.makeRequest, hh]) rfl rfl rfl
    | some x =>
      refine (h.hold .request (.request x k s.rh.nextNumber q r)).congr rfl ?_ rfl rfl rfl
      simp [State.makeRequest, hh]

theorem Bounded.tankLine (w : CommandWord) (t : Nat) (check : Ch → Option RefuseReason) (st : TankState)
    (h : Bounded s) : Bounded (s.tankLine w t check st) := by
  unfold State.tankLine
  split
  · exact h.report _
  · rename_i n _
    refine .ite (fun _ => ?_) fun _ => h.report _
    split
    · exact h.report _
    · exact Bounded.report _ (.ite (fun _ => h.emit _) fun _ => ((s.setTank_keeps n st).bounded h (by decide)).watch)

theorem Bounded.lineReadValve (n : Option Nat) (h : Bounded s) : Bounded (s.lineReadValve n) := by
  unfold State.lineReadValve
  split
  · exact h.report _
  · split <;> exact h.report _

theorem Bounded.lineReadTank (n : Option Nat) (h : Bounded s) : Bounded (s.lineReadTank n) := by
  unfold State.lineReadTank
  split
  · exact h.report _
  · split <;> exact h.report _

/-- R198: whatever a command handed on does. -/
theorem Bounded.runLine (c : Instr) (h : Bounded s) : Bounded (s.runLine c) := by
  cases c
  case nominate q r => exact .ite (fun _ => h.requestLine _ _ _) fun _ => h.report _
  case start | pause | resume | stop | reset | endack => exact h.requestLine _ _ _
  case trip => exact .ite (fun _ => (h.handCause _ _).report _) fun _ => h.report _
  case silence => exact .ite (fun _ => h.report _) fun _ => (s.acknowledge_keeps.bounded h (by decide)).report _
  case assign t => exact h.tankLine _ _ _ _
  case unassign t => exact h.tankLine _ _ _ _
  case mask w => exact Bounded.report _ (h.putPort _ h.sound.queue h.buffers.line)
  case readRoster n =>
    cases n
    · exact h.report _
    · exact .ite (fun _ => h.report _) fun _ => h.report _
  case readValve n => exact h.lineReadValve n
  case readTank n => exact h.lineReadTank n
  case readPhase | readTrip | readAlarm | readPump | readScan | readRecord | readSetup | readPanel =>
    exact h.report _
  all_goals exact h

theorem panelLine_bounded (c : Instr) (hc : isPanelLine c = true) (h : Bounded s) : AnswersBounded c s := by
  have hrun : Bounded (s.handleLine fun u => u.runLine c) := h.handleLine (h.runLine c)
  cases c <;> first | exact absurd hc Bool.false_ne_true | exact ⟨_, rfl, hrun⟩

theorem reportSent_bounded (h : Bounded s) : AnswersBounded .reportSent s := by
  refine ⟨_, rfl, .ite (fun _ => h) fun _ => h.putPort _ ?_ ?_⟩
  · have hq := h.sound.queue
    unfold PanelPort.finish
    split
    · rename_i hl
      rw [hl] at hq
      simpa using Nat.le_of_succ_le hq
    · exact Nat.zero_le _
  · unfold PanelPort.finish
    split <;> exact h.buffers.line

theorem Bounded.runParsed (l : PanelLine) (h : Bounded s) : Bounded (s.runParsed l) := by
  cases l with
  | blank => exact h
  | overlong w => exact Bounded.handleLine (f := fun u => u.report _) h (h.report _)
  | bad w => exact Bounded.handleLine (f := fun u => u.report _) h (h.report _)
  | command c => exact Bounded.handleLine (f := fun u => u.runLine c) h (h.runLine c)

theorem Bounded.takeChar (b : Byte) (h : Bounded s) : Bounded (s.takeChar b) := by
  refine .ite (fun _ => ?line) fun _ => .ite (fun _ => ?backspace) fun _ => .ite (fun _ => ?printable) fun _ => h
  case line => exact Bounded.runParsed _ (h.putPort _ h.sound.queue (Nat.zero_le _))
  case backspace =>
    have := h.buffers.line
    exact h.putPort _ h.sound.queue (by rw [List.length_dropLast]; omega)
  case printable =>
    unfold PanelPort.type
    split
    · rename_i hl
      exact h.putPort _ h.sound.queue (by rw [List.length_append]; exact hl)
    · exact h.putPort _ h.sound.queue h.buffers.line

theorem panelCharacter_bounded (c : LineChar) (h : Bounded s) : AnswersBounded (.panelCharacter c) s := by
  cases c
  · exact ⟨_, rfl, h.takeChar _⟩
  · exact ⟨_, rfl, h⟩

/-! ## Every command -/

theorem exec_bounded (c : Instr) (h : Bounded s) : AnswersBounded c s := by
  by_cases hc : isPanelLine c = true
  · exact panelLine_bounded c hc h
  cases c
  case startUp => exact startUp_bounded s
  case resetInOff sn rl => exact resetInOff_bounded sn rl h
  case setupRead image => exact setupRead_bounded image h
  case joinWindowEnd => exact joinWindowEnd_bounded h
  case lineCharacter c => exact lineCharacter_bounded c h
  case echoTimeout => exact echoTimeout_bounded h
  case lineIdle => exact lineIdle_bounded h
  case attempt => exact attempt_bounded h
  case heartbeat => exact heartbeat_bounded h
  case rosterTakeFrame => exact rosterTakeFrame_bounded h
  case silenceLimit n => exact silenceLimit_bounded n h
  case removalLimit n => exact removalLimit_bounded n h
  case stepConfirmationTimeout => exact stepConfirmationTimeout_bounded h
  case answerTimerExpiry => exact answerTimerExpiry_bounded h
  case panelCharacter c => exact panelCharacter_bounded c h
  case reportSent => exact reportSent_bounded h
  case esdInChange on => exact esdInChange_bounded on h
  case sepInChange on => exact sepInChange_bounded on h
  case ackInChange on => exact ackInChange_bounded on h
  case cadenceToggle o => exact cadenceToggle_bounded o h
  case hhChange n on => exact hhChange_bounded n on h
  case qualificationExpiry q => exact qualificationExpiry_bounded q h
  case valveSwitchChange n sw on => exact valveSwitchChange_bounded n sw on h
  case dwellExpiry n => exact dwellExpiry_bounded n h
  case travelLimitExpiry n => exact travelLimitExpiry_bounded n h
  case holdOffExpiry => exact holdOffExpiry_bounded h
  case pumpFbChange on => exact pumpFbChange_bounded on h
  case feedbackTimerExpiry => exact feedbackTimerExpiry_bounded h
  case stopTimerExpiry => exact stopTimerExpiry_bounded h
  case meterPulse => exact meterPulse_bounded h
  case rateWindow => exact rateWindow_bounded h
  case startLimitExpiry => exact startLimitExpiry_bounded h
  case scanSetStart => exact scanSetStart_bounded h
  case scanReading raw => exact scanReading_bounded raw h
  case allowanceExpiry => exact allowanceExpiry_bounded h
  case relaxExpiry => exact relaxExpiry_bounded h
  case claimWaitExpiry => exact claimWaitExpiry_bounded h
  case settleWindowExpiry => exact settleExpiry_bounded (.inl rfl) h
  case settleLimitExpiry => exact settleExpiry_bounded (.inr rfl) h
  all_goals exact absurd rfl hc

/-- R27 to R202: a step of the station keeps the bounds. -/
theorem step_bounded {s t : State} (h : Bounded s) (hst : step s = .next t) : Bounded t := by
  unfold step at hst
  split at hst
  · cases hst
    exact h.tick
  · rename_i c rest _
    have hrest : Bounded { s with pending := rest } := h.congr rfl rfl rfl rfl rfl
    obtain ⟨u, hu, hb⟩ := exec_bounded c hrest
    rw [hu] at hst
    cases hst
    exact hb

end Sys2Proof.Machine

open Sys2Proof Sys2Proof.Machine

/-- Settles O56: the bounds hold after every command and after every millisecond. -/
theorem shapeKept : Obligations.ShapeKept := fun s t h hst =>
  (Bounded.iff t).1 (step_bounded ((Bounded.iff s).2 h) hst)
end

section
/-! SUPPORT and the proof of O41: READ ROSTER (R46, R203). -/

namespace Sys2Proof.Machine

/-- R46: the rounded age is a multiple of 10 ms, at most 5 ms away, whichever way half-way goes (log 21). -/
theorem nearestTen_spec (age : Nat) :
    nearestTen age % 10 = 0 ∧ nearestTen age ≤ age + 5 ∧ age ≤ nearestTen age + 5 := by
  unfold nearestTen
  split
  · omega
  · split
    · omega
    · split <;> omega

/-- R27: the first entry of a number, and its place in the recency order. -/
theorem Roster.find_first {r : Roster} {n : Nat} {e : Entry} {before after : List Entry}
    (hr : r.entries = before ++ e :: after) (he : e.number = n) (hb : ∀ x ∈ before, x.number ≠ n) :
    r.find n = some e ∧ r.entries.findIdx (fun x => x.number == n) = before.length := by
  have hnone : before.find? (fun x => x.number == n) = none := by simpa using hb
  have hidx : before.findIdx (fun x => x.number == n) = before.length := by simpa using hb
  constructor
  · simp [Roster.find, hr, List.find?_append, hnone, he]
  · rw [hr, List.findIdx_append, hidx, if_neg (Nat.lt_irrefl _), List.findIdx_cons]
    simp [he]

variable {s : State}

theorem execReadRoster_fits (n : Option Nat) (hl : s.lineFits = true) :
    exec (.readRoster n) s = .next (s.lineReadRoster n) := congrArg Host.Outcome.next (if_pos hl)

theorem State.lineReadRoster_station {n : Nat} (h1 : 1 ≤ n) (h2 : n ≤ 15) :
    s.lineReadRoster (some n) = s.report (.data (s.readEntry n)) := if_pos (by simp [stationOk, h1, h2])

theorem State.lineReadRoster_bad {n : Nat} (h : n = 0 ∨ 15 < n) :
    s.lineReadRoster (some n) = s.report (.answer (some .read) none .refused (.reason .syntaxError)) :=
  if_neg (by simp only [stationOk, Bool.and_eq_true, decide_eq_true_eq]; omega)

/-- R202: with room, a report handed over is the newest one, and nothing but the report queue has changed. -/
theorem State.report_read (r : Report) (hr : ∀ e, r ≠ .event e) (hl : s.lineFits = true)
    (hq : s.pp.queue.length ≤ 8) : NewestReport (s.report r) r ∧ Frame [.reports] s (s.report r) :=
  ⟨(State.report_newest r hr hl (.refl s) hq).1, s.report_frame r⟩

end Sys2Proof.Machine

open Sys2Proof Sys2Proof.Machine

/-- Settles O41: READ ROSTER gives one report, which the four cases name. -/
theorem readsOfTheRoster : Obligations.ReadsOfTheRoster := by
  intro s hl hq
  refine ⟨?list, ?entry, ?missing, ?syntaxError⟩
  case list => exact ⟨_, execReadRoster_fits none hl, State.report_read _ nofun hl hq⟩
  case entry =>
    intro n e before after h1 h2 hr he hb
    obtain ⟨hfind, hidx⟩ := Roster.find_first hr he hb
    obtain ⟨hten, hup, hdown⟩ := nearestTen_spec e.age
    have hread : s.readEntry n = .rosterEntry (e.view (before.length + 1)) := by simp [State.readEntry, hfind, hidx]
    have hexec := execReadRoster_fits (some n) hl
    rw [State.lineReadRoster_station h1 h2, hread] at hexec
    obtain ⟨hnew, hframe⟩ := State.report_read (.data (.rosterEntry (e.view (before.length + 1)))) nofun hl hq
    exact ⟨_, nearestTen e.age, hexec, hnew, hten, hup, hdown, hframe⟩
  case missing =>
    intro n h1 h2 hn
    have hfind : s.sr.find n = none := by simpa [Roster.find] using hn
    have hexec := execReadRoster_fits (some n) hl
    rw [State.lineReadRoster_station h1 h2, State.readEntry, hfind] at hexec
    exact ⟨_, hexec, State.report_read _ nofun hl hq⟩
  case syntaxError =>
    intro n hn
    have hexec := execReadRoster_fits (some n) hl
    rw [State.lineReadRoster_bad hn] at hexec
    exact ⟨_, hexec, State.report_read _ nofun hl hq⟩
end

section
/-! SUPPORT. The ANSWER place (R162): no operation of a cascade asks for an ANSWER, so each of them leaves the place as
it stands. -/

namespace Sys2Proof.Machine

/-! ## Asking for frames and watching levels -/

theorem State.ask_answer (s : State) {k : FrameKind} (hk : k ≠ .answer) : (s.ask k).lc.answer = s.lc.answer := by
  unfold State.ask
  split
  · obtain ⟨q, hq, -, -⟩ := s.lc.ask_place k
    rw [hq]
    cases k <;> first | rfl | exact absurd rfl hk
  · rfl

@[simp] theorem State.askStatus_answer (s : State) : s.askStatus.lc.answer = s.lc.answer := s.ask_answer (by decide)

@[simp] theorem State.askStatusIf_answer (s : State) (b : Bool) : (s.askStatusIf b).lc.answer = s.lc.answer := by
  cases b
  · rfl
  · exact s.askStatus_answer

/-- An operation repeated over a list leaves the ANSWER place. -/
theorem foldl_answer {α : Type} {f : State → α → State} (h : ∀ s a, (f s a).lc.answer = s.lc.answer) (l : List α)
    (s : State) : (l.foldl f s).lc.answer = s.lc.answer := by
  induction l generalizing s with
  | nil => rfl
  | cons a l ih => exact (ih (f s a)).trans (h s a)

/-- An operation that is done or not leaves what it leaves when it is done. -/
theorem ite_answer {s t : State} {c : Prop} [Decidable c] (h : t.lc.answer = s.lc.answer) :
    (if c then t else s).lc.answer = s.lc.answer := by
  split
  · exact h
  · rfl

@[simp] theorem State.watch_answer (s : State) : s.watch.lc.answer = s.lc.answer := by
  simp [State.watch, State.watchAlarms, State.sweepAlarms, State.watchCause, State.watchFlags]

/-! ## The plant -/

@[simp] theorem State.movementIf_lc (s : State) (b : Bool) : (s.movementIf b).lc = s.lc := by
  unfold State.movementIf State.movement
  split
  · split <;> rfl
  · rfl

@[simp] theorem State.putChannel_answer (s : State) (n : Ch) (c : Channel) :
    (s.putChannel n c).lc.answer = s.lc.answer := by simp [State.putChannel]

@[simp] theorem State.followAll_answer (s : State) : s.followAll.lc.answer = s.lc.answer :=
  ite_answer (foldl_answer (fun u n => ite_answer (u.putChannel_answer n _)) _ s)

@[simp] theorem State.releaseAll_answer (s : State) (r : ReleaseReason) : (s.releaseAll r).lc.answer = s.lc.answer :=
  foldl_answer (fun u n => u.putChannel_answer n _) _ _

@[simp] theorem State.releaseIfStopped_answer (s : State) : s.releaseIfStopped.lc.answer = s.lc.answer :=
  ite_answer (s.releaseAll_answer _)

@[simp] theorem State.leaveHoldOff_answer (s : State) : s.leaveHoldOff.lc.answer = s.lc.answer :=
  ite_answer (s.releaseAll_answer _)

@[simp] theorem State.pendAll_answer (s : State) : s.pendAll.lc.answer = s.lc.answer :=
  (State.releaseIfStopped_answer _).trans (foldl_answer (fun u n => u.putChannel_answer n _) _ s)

@[simp] theorem State.stopPump_answer (s : State) : s.stopPump.lc.answer = s.lc.answer := by
  simp [State.stopPump, State.putPump]

/-! ## The record and the tanks -/

@[simp] theorem State.handEndKind_lc (s : State) (k : EndKind) : (s.handEndKind k).lc = s.lc := by
  unfold State.handEndKind
  split <;> rfl

@[simp] theorem State.judgeEnds_lc (s : State) : s.judgeEnds.lc = s.lc := by
  unfold State.judgeEnds State.judgeSample State.judgeInternalEnd State.sample
  split <;> split <;> rfl

@[simp] theorem State.takeReceived_lc (s : State) : s.takeReceived.lc = s.lc := by
  unfold State.takeReceived
  split <;> rfl

@[simp] theorem State.setReceipt_answer (s : State) (r : ReceiptState) : (s.setReceipt r).lc.answer = s.lc.answer := by
  unfold State.setReceipt
  split <;> simp

@[simp] theorem State.setExternalEnd_answer (s : State) : s.setExternalEnd.lc.answer = s.lc.answer := by
  have settle (u : State) : u.settle.lc.answer = u.lc.answer := ite_answer (State.setReceipt_answer _ _)
  refine ite_answer ?_
  simp [settle]

@[simp] theorem State.setClaim_answer (s : State) (c : Claim) (n : Ch) (e : ClaimEvent) :
    (s.setClaim c n e).lc.answer = s.lc.answer := by simp [State.setClaim]

@[simp] theorem State.endClaim_answer (s : State) : s.endClaim.lc.answer = s.lc.answer := by
  unfold State.endClaim
  split
  · exact s.setClaim_answer _ _ _
  · rfl

/-! ## Into TRIPPED -/

@[simp] theorem State.leavePhase_answer (s : State) (old : Phase) : (s.leavePhase old).lc.answer = s.lc.answer := by
  unfold State.leavePhase
  split <;> split <;> simp

theorem State.enterTripped_answer (s : State) : s.enterTripped.lc.answer = s.lc.answer := by
  have mark (u : State) : u.markTrip.lc = u.lc := by
    unfold State.markTrip
    split <;> rfl
  have field (u : State) : u.tripField.lc.answer = u.lc.answer := by
    unfold State.tripField
    split
    · exact u.stopPump_answer
    · exact ite_answer u.pendAll_answer
  have record (u : State) (old : Phase) : (u.tripRecord old).lc = u.lc := by
    unfold State.tripRecord
    split <;> simp [mark]
  have external (u : State) : u.tripExternal.lc.answer = u.lc.answer := ite_answer u.setExternalEnd_answer
  unfold State.enterTripped
  split
  · rfl
  · have hphase : ((s.setPhase .tripped).leavePhase s.pc.phase).pc.phase = .tripped := s.left_phase .tripped
    simp [State.changePhase, State.entryActions, hphase, external, record, field]

@[simp] theorem State.addCause_answer (s : State) (c : Cause) (d : Option Nat) :
    (s.addCause c d).lc.answer = s.lc.answer := by simp [State.addCause]

@[simp] theorem State.announce_answer (s : State) (c : Cause) (d : Option Nat) (b f : Bool) :
    (s.announce c d b f).lc.answer = s.lc.answer := by
  unfold State.announce
  split
  · exact s.ask_answer (by decide)
  · rfl

@[simp] theorem State.confirm_lc (s : State) : s.confirm.lc = s.lc := by
  unfold State.confirm
  split <;> rfl

@[simp] theorem State.afterTrip_answer (s : State) : s.afterTrip.lc.answer = s.lc.answer := by
  have join (u : State) : u.joinSeparation.lc.answer = u.lc.answer := by
    unfold State.joinSeparation
    split <;> simp
  unfold State.afterTrip
  rw [State.confirm_lc]
  split
  · rw [join, State.closeChannel, State.putChannel_answer, State.followAll_answer]
  · exact s.followAll_answer

@[simp] theorem State.latch_answer (s : State) (c : Cause) (d : Option Nat) :
    (s.latch c d).lc.answer = s.lc.answer := by
  unfold State.latch
  split
  · rfl
  · dsimp only
    rw [State.watch_answer]
    split <;> simp [State.enterTripped_answer]

@[simp] theorem State.hand_answer (s : State) (c : Cause) (d : Option Nat) (b : Bool) :
    (s.hand c d b).lc.answer = s.lc.answer := by
  have instead : (s.alarmInstead c).lc.answer = s.lc.answer := by
    unfold State.alarmInstead
    split <;> simp [State.momentary]
  refine ite_answer ?_
  split
  · exact s.latch_answer c d
  · exact instead

@[simp] theorem State.handCause_answer (s : State) (c : Cause) (d : Option Nat) :
    (s.handCause c d).lc.answer = s.lc.answer := s.hand_answer c d _

@[simp] theorem State.honour_answer (s : State) (n : Nat) (c : Option Cause) (o : Nat) :
    (s.honour n c o).lc.answer = s.lc.answer := by
  unfold State.honour
  split
  · rfl
  · dsimp only
    rw [State.watch_answer]
    split <;> simp [State.enterTripped_answer]

@[simp] theorem State.offerTrip_answer (s : State) (r : Received) : (s.offerTrip r).lc.answer = s.lc.answer := by
  unfold State.offerTrip
  split
  · exact ite_answer (s.honour_answer _ _ _)
  · rfl

/-! ## A roster change -/

@[simp] theorem State.readRoute_answer (s : State) : s.readRoute.lc.answer = s.lc.answer := by
  unfold State.readRoute
  dsimp only
  split
  · rfl
  · split
    · exact State.setClaim_answer _ _ _ _
    · rfl

@[simp] theorem State.rosterRest_answer (s : State) : s.rosterRest.lc.answer = s.lc.answer := by
  have ends (u : State) : u.readExternalEnd.lc.answer = u.lc.answer := ite_answer u.setExternalEnd_answer
  simp [State.rosterRest, ends]

@[simp] theorem State.enterFrame_answer (s : State) (r : Received) : (s.enterFrame r).lc.answer = s.lc.answer := rfl

/-- R168: the slots are no place of the transmit queue. -/
@[simp] theorem State.delivered_answer (s : State) : s.delivered.lc.answer = s.lc.answer := by
  obtain ⟨-, -, -, h1, -⟩ := LinkController.toDelivery_same { s.lc with delivery := none }
  obtain ⟨-, -, -, h2, -⟩ := (LinkController.toDelivery { s.lc with delivery := none }).toCheck_same
  obtain ⟨-, -, -, h3, -⟩ := (LinkController.toDelivery { s.lc with delivery := none }).toCheck.1.toDelivery_same
  exact h3.trans (h2.trans h1)

end Sys2Proof.Machine
end

section
/-! SUPPORT and the proof of O21: a clash (R30, R193). -/

namespace Sys2Proof.Machine

variable {s : State}

/-! ## A frame taken -/

/-- R29, R172: the frame in the delivery slot taken, and the slots moved on. -/
theorem State.execRosterTakeFrame_frame {l : List Byte} (hs : s.listening = true) (hd : s.lc.delivery = some l) :
    exec .rosterTakeFrame s = .next (s.takeFrame l).delivered := by
  change execRosterTakeFrame s = _
  simp only [execRosterTakeFrame, hs, hd]
  rfl

theorem State.running_listening (h : s.running = true) : s.listening = true := by
  simp [State.listening, State.running_station h]

theorem State.joining_listening (h : s.pc.station = .joining) : s.listening = true := by
  simp [State.listening, h]

theorem State.takeFrame_running {l : List Byte} {r : Received} (hr : s.running = true)
    (hf : readFrame l = some r) : s.takeFrame l = s.takeRunning r := by
  simp only [State.takeFrame, hf, State.running_station hr]

theorem State.takeRunning_clash {r : Received} (hc : s.isClash r.header = true) : s.takeRunning r = s.takeClash r :=
  if_pos hc

/-- R30: a clash frame with unusable contents gives no event of its own in JOINING (log 70). -/
theorem State.takeFrame_joining_clash {l : List Byte} {r : Received} (hj : s.pc.station = .joining)
    (hf : readFrame l = some r) (hc : s.isClash r.header = true) :
    s.takeFrame l
      = (s.emit (.clash r.header.sender r.header.role)).enterOffline (.clash r.header.sender r.header.role) := by
  have htake : s.takeFrame l = s.takeJoining r := by
    simp only [State.takeFrame, hf, hj, hc, if_true]
    split <;> rfl
  rw [htake, State.takeJoining, if_pos hc]

/-! ## What a clash is -/

theorem Role.single_iff (r : Role) : r.single = true ↔ r = .pu ∨ r = .bv ∨ r = .sv := by cases r <;> simp [Role.single]

/-- R30: a clash carries this station's number, or a single role that this station or another entry has. -/
theorem State.isClash_iff (s : State) (h : Header) :
    s.isClash h = true ↔ h.sender = s.number
      ∨ ((h.role = .pu ∨ h.role = .bv ∨ h.role = .sv)
          ∧ (s.role = some h.role ∨ ∃ e ∈ s.sr.entries, e.role = some h.role ∧ e.number ≠ h.sender)) := by
  simp [State.isClash, Role.single_iff, State.hasRole, Entry.hasRole]

/-! ## OFFLINE -/

/-- R193: the state that entry to OFFLINE makes before the levels are watched. -/
def State.madeOffline (s : State) (f : FaultRecord) : State :=
  { s with
    pc := { s.pc with station := .offline }
    sl := { s.sl with fault := f, joinWindow := .stopped }
    lc := .offline
    vp := s.vp.offline
    hw := s.hw.offline }

theorem State.enterOffline_eq (s : State) (f : FaultRecord) : s.enterOffline f = (s.madeOffline f).watch := rfl

/-- The parts that entry to OFFLINE may touch. -/
def offlineParts : List Part :=
  [.setup, .station, .flags, .timers, .alarms, .channels, .pump, .scan, .pressure, .receive, .heartbeat, .frames,
    .reports]

theorem State.madeOffline_frame (s : State) (f : FaultRecord) : Frame offlineParts s (s.madeOffline f) := by
  intro p hp
  cases p <;>
    first
    | exact absurd (by decide) hp
    | simp [Part.same, State.madeOffline, ValvePump.offline, HoseWatch.offline]

theorem State.enterOffline_frame (s : State) (f : FaultRecord) : Frame offlineParts s (s.enterOffline f) :=
  (s.madeOffline_frame f).trans ((State.watch_keeps _).frame.mono (by decide))

/-- R162, R193: nothing is queued or sent at an OFFLINE station. -/
theorem State.enterOffline_quiet (s : State) (f : FaultRecord) :
    (s.enterOffline f).lc.trip = none ∧ (s.enterOffline f).lc.answer = none ∧ (s.enterOffline f).lc.request = none
      ∧ (s.enterOffline f).lc.status = none ∧ (s.enterOffline f).lc.attempt = none := by
  have hk := (s.madeOffline f).watch_keeps
  have hoff : (s.enterOffline f).running = false := hk.running (by decide)
  exact hk.quiet (fun _ => ⟨rfl, rfl, rfl, rfl, rfl⟩) hoff

/-- R168: with every slot at rest there is nothing to move. -/
theorem State.delivered_idle (hc : s.lc.check = none) (ha : s.lc.assembly.condition ≠ .full) :
    s.delivered = { s with lc := { s.lc with delivery := none } } := by
  have h1 : LinkController.toDelivery { s.lc with delivery := none } = { s.lc with delivery := none } := by
    simp [LinkController.toDelivery, hc]
  have h2 : LinkController.toCheck { s.lc with delivery := none } = ({ s.lc with delivery := none }, none) :=
    if_neg fun h => ha h.1
  simp only [State.delivered, State.moveSlots, h1, h2]
  rfl

/-- R193: entry to OFFLINE, with the slots moved on. -/
structure WentOffline (s t : State) (f : FaultRecord) : Prop where
  frame : Frame offlineParts s t
  station : t.pc.station = .offline
  fault : t.sl.fault = f
  setup : t.sl.setup = s.sl.setup
  line : t.lc.line = .quiet
  frames : t.lc.trip = none ∧ t.lc.answer = none ∧ t.lc.request = none ∧ t.lc.status = none ∧ t.lc.attempt = none
  slots : t.lc.check = none ∧ t.lc.delivery = none ∧ t.lc.assembly.condition = .hunting
  pump : t.vp.pumpRun = false
  drives : ∀ n : Ch, (t.vp.channels.get n).drive = .off

theorem State.enterOffline_delivered (s : State) (f : FaultRecord) :
    WentOffline s (s.enterOffline f).delivered f := by
  have hk := (s.madeOffline f).watch_keeps
  rw [← s.enterOffline_eq f] at hk
  have hstation : (s.enterOffline f).pc.station = .offline := hk.part .station (by decide)
  have hsl : (s.enterOffline f).sl = (s.madeOffline f).sl := hk.part .setup (by decide)
  obtain ⟨hline, -, hasm, hcheck, -⟩ := hk.part .receive (by decide)
  obtain ⟨hchannels, -, -⟩ := hk.part .channels (by decide)
  obtain ⟨-, -, -, hrun, -⟩ := hk.part .pump (by decide)
  have hcond : (s.enterOffline f).lc.assembly.condition = .hunting := congrArg Assembly.condition hasm
  have hd : (s.enterOffline f).delivered = _ := State.delivered_idle hcheck (by rw [hcond]; decide)
  exact {
    frame := (s.enterOffline_frame f).trans ((State.delivered_keeps _).frame.mono (by decide))
    station := by rw [hd]; exact hstation
    fault := by rw [hd]; exact congrArg SetupLoader.fault hsl
    setup := by rw [hd]; exact (congrArg SetupLoader.setup hsl).trans rfl
    line := by rw [hd]; exact hline
    frames := by rw [hd]; exact s.enterOffline_quiet f
    slots := by rw [hd]; exact ⟨hcheck, rfl, hcond⟩
    pump := by rw [hd]; exact hrun
    drives := fun n => by
      rw [hd]
      change ((s.enterOffline f).vp.channels.get n).drive = .off
      rw [hchannels]
      cases n <;> rfl }

theorem clash_joining {l : List Byte} {r : Received} (hj : s.pc.station = .joining) (hd : s.lc.delivery = some l)
    (hf : readFrame l = some r) (hc : s.isClash r.header = true) :
    ∃ t, exec .rosterTakeFrame s = .next t
      ∧ WentOffline (s.emit (.clash r.header.sender r.header.role)) t (.clash r.header.sender r.header.role) := by
  refine ⟨_, State.execRosterTakeFrame_frame (State.joining_listening hj) hd, ?_⟩
  rw [State.takeFrame_joining_clash hj hf hc]
  exact State.enterOffline_delivered _ _

/-! ## A clash in RUNNING -/

/-- R69: what is offered to the Trip Unit of a station in TRIPPED latches nothing and leaves it there. -/
theorem State.offerTrip_stays (r : Received) (h : s.pc.phase = .tripped) :
    (s.offerTrip r).pc.phase = .tripped ∧ (s.offerTrip r).tu.latched = s.tu.latched := by
  unfold State.offerTrip
  split
  · split
    · exact ⟨s.honour_phase _ _ _, State.honour_latched _ _ _ h⟩
    · exact ⟨h, rfl⟩
  · exact ⟨h, rfl⟩

/-- R30: both events of a clash handed over. -/
def State.clashSeen (s : State) (h : Header) : State :=
  (s.emit (.clash h.sender h.role)).emit (.clashHanded h.sender h.role)

theorem State.takeClash_eq (r : Received) (hr : s.running = true) :
    s.takeClash r = ((s.clashSeen r.header).latch .phase (some r.header.sender)).offerTrip r := by
  rw [← State.handCause_phase (s := s.clashSeen r.header) (some r.header.sender) hr]
  rfl

theorem State.takeClash_new (r : Received) (hr : s.running = true) (hl : s.hasLatched .phase = false) :
    (s.takeClash r).pc.phase = .tripped ∧ ⟨.phase, some r.header.sender⟩ ∈ (s.takeClash r).tu.latched := by
  obtain ⟨hphase, hprefix, -⟩ := State.latch_new (s := s.clashSeen r.header) (some r.header.sender) hl
  obtain ⟨hstays, hlatched⟩ := State.offerTrip_stays r hphase
  rw [State.takeClash_eq r hr]
  exact ⟨hstays, by rw [hlatched]; exact hprefix.subset (by simp)⟩

theorem State.takeClash_again (r : Received) (hr : s.running = true) (hl : s.hasLatched .phase = true)
    (hp : s.pc.phase = .tripped) :
    (s.takeClash r).pc.phase = .tripped ∧ (s.takeClash r).tu.latched = s.tu.latched := by
  have hsame : (s.clashSeen r.header).latch .phase (some r.header.sender) = s.clashSeen r.header := if_pos hl
  rw [State.takeClash_eq r hr, hsame]
  exact State.offerTrip_stays r hp

theorem State.takeClash_answer (r : Received) : (s.takeClash r).lc.answer = s.lc.answer := by simp [State.takeClash]

end Sys2Proof.Machine

open Sys2Proof Sys2Proof.Machine

/-- Settles O21: in JOINING by what entry to OFFLINE leaves, in RUNNING by the latch of PHASE. -/
theorem clashTaken : Obligations.ClashTaken := by
  constructor
  · intro s l r hj hd hf hclash
    obtain ⟨t, ht, ho⟩ := clash_joining hj hd hf ((s.isClash_iff _).2 hclash)
    have hframe : Frame offlineParts s t := ((s.emit_keeps _).frame.mono (by decide)).trans ho.frame
    obtain ⟨htrip, hanswer, hrequest, hstatus, hattempt⟩ := ho.frames
    obtain ⟨hcheck, hdelivery, hasm⟩ := ho.slots
    exact ⟨t, ht, ho.station, ho.fault, ho.setup, hframe .roster (by decide), ho.line, htrip, hanswer, hrequest,
      hstatus, hattempt, hcheck, hdelivery, hasm, ho.pump, ho.drives, hframe⟩
  · intro s l r hr hd hf hclash
    have hexec := State.execRosterTakeFrame_frame (State.running_listening hr) hd
    rw [State.takeFrame_running hr hf, State.takeRunning_clash ((s.isClash_iff _).2 hclash)] at hexec
    have hslots := (s.takeClash r).delivered_keeps
    have hkeeps : Keeps (cascadeParts ++ [.receive]) s (s.takeClash r).delivered :=
      ((s.takeClash_keeps r).mono (by decide)).trans (hslots.mono (by decide))
    obtain ⟨hphase, -, -⟩ := hslots.part .phase (by decide)
    obtain ⟨-, hlatched, -⟩ := hslots.part .tripRecord (by decide)
    have hstation : (s.takeClash r).delivered.pc.station = s.pc.station := hkeeps.part .station (by decide)
    refine ⟨_, hexec, hstation.trans (State.running_station hr), hkeeps.part .roster (by decide),
      hkeeps.part .requests (by decide), (State.delivered_answer _).trans (s.takeClash_answer r), ?_, ?_, hkeeps.frame⟩
    · intro hl
      rw [hphase, hlatched]
      exact s.takeClash_new r hr hl
    · intro hl hp
      rw [hphase, hlatched]
      exact s.takeClash_again r hr hl hp
end

section
/-! SUPPORT. A roster change that trips nothing: at a follower whose standing order does not refuse, and at PU where no
automatic step and no sample falls due (R7, R18, R29, R113). -/

namespace Sys2Proof.Machine

/-! ## At PU -/

theorem SameForPc.noStepDue {u s : State} (h : SameForPc u s) (hr : u.runningPu = s.runningPu) :
    NoStepDue s ↔ NoStepDue u := by
  simp only [NoStepDue, h.phase, h.unconfirmed, h.due, hr]

/-- R7: with no standing order and no sample due, PC finds at a roster change what the table gave it. -/
theorem State.rosterLevels_sameForPc {u : State} (hpu : u.hasRole .pu = true) (ho : u.pc.order = none)
    (hs : ¬ SampleDue u) : SameForPc u.rosterLevels u := by
  have hdue := State.orderDue_none ho
  obtain ⟨hnom, hdel, hend, -, hstate⟩ := State.rosterLevels_record hpu hdue
  have hk := State.rosterLevels_notDue hdue
  exact (Keeps.refl _ u).sameForPc hk u.mr u.sr (congrArg Roster.entries (hk.part .roster (by decide))) rfl hnom.symm
    hdel.symm hend.symm (.inr (hstate hs).symm)

/-- What a change leaves that steps no further than a confirmation. -/
structure Stays (T : List Part) (s t : State) : Prop where
  keeps : Keeps T s t
  phase : t.pc.phase = s.pc.phase

theorem Stays.trans {T : List Part} {s t u : State} (h : Stays T s t) (k : Stays T t u) : Stays T s u :=
  ⟨h.keeps.trans k.keeps, k.phase.trans h.phase⟩

theorem Stays.of_keeps {T U : List Part} {s t : State} (h : Keeps U s t)
    (hU : (∀ p ∈ U, p ∈ T) ∧ Part.phase ∉ U) : Stays T s t :=
  ⟨h.mono hU.1, (h.frame .phase hU.2).1⟩

/-- The parts that a roster change may touch where nothing trips. -/
def calmParts : List Part := rosterParts ++ [.phase]

/-- R7, R29: a roster change at PU where no automatic step and no sample falls due. -/
theorem State.rosterChanged_noStep {u : State} (hpu : u.runningPu = true) (ho : u.pc.order = none)
    (hn : NoStepDue u) (hs : ¬ SampleDue u) : Stays calmParts u u.rosterChanged := by
  obtain ⟨hr, hrole⟩ := u.runningPu_iff.1 hpu
  have hk := State.rosterLevels_notDue (State.orderDue_none ho)
  have hsame := State.rosterLevels_sameForPc hrole ho hs
  obtain ⟨hkeeps, hphase, -⟩ := State.puEval_noStep_keeps ((hsame.noStepDue (hk.runningPu (by decide))).1 hn)
  rw [State.rosterChanged_running hr]
  exact Stays.trans (.of_keeps hk (by decide)) ⟨hkeeps.mono (by decide), hphase⟩

/-! ## At a follower -/

/-- R18, R29: a roster change at a follower whose standing order does not find VC1 refusing. -/
theorem State.rosterChanged_calm {u : State} (hr : u.running = true) (hpu : u.hasRole .pu = false)
    (ho : u.pc.order = some .openVc1 → u.vp.channels.n1.refusesOpen = false) : Stays calmParts u u.rosterChanged := by
  obtain ⟨horder, -⟩ := State.runOrder_calm (.inr ho)
  rw [State.rosterChanged_follower hr hpu]
  exact Stays.trans ⟨horder.keeps.mono (by decide), horder.phase⟩ (.of_keeps (State.rosterRest_keeps _) (by decide))

/-! ## The leak condition -/

/-- R113: after a roster change in RUNNING, and what does not concern it, the leak condition is what the table and the
own reading give. -/
theorem State.leak_rosterChanged {T : List Part} {u t : State} (hr : u.running = true) (hk : Keeps T u.rosterChanged t)
    (hT : decide (Part.leak ∉ T ∧ Part.setup ∉ T ∧ Part.readings ∉ T ∧ Part.roster ∉ T) = true) :
    t.hw.leakCond = true ↔ LeakFacts t := by
  obtain ⟨h1, h2, h3, h4⟩ := of_decide_eq_true hT
  have hcond : t.hw.leakCond = u.rosterChanged.hw.leakCond := hk.frame .leak h1
  have hnow : u.rosterChanged.leakNow = u.leakNow := u.rosterChanged_keeps.frame.leakNow (by decide)
  rw [hcond, State.rosterChanged_leakCond hr, ← hnow, ← hk.frame.leakNow ⟨h2, h3, h4⟩, State.leakNow_iff]

end Sys2Proof.Machine
end

section
/-! SUPPORT and the proof of O26: silence and removal (R35 to R37). -/

namespace Sys2Proof.Machine

variable {s : State} {n : Nat} {e : Entry}

/-! ## LINKLOSS -/

theorem State.handCause_idle (c : Cause) (d : Option Nat) (h : s.running = false) : s.handCause c d = s := by
  simp [State.handCause, State.hand, h]

theorem State.handLinkloss_keeps (s : State) (e : Entry) : Keeps cascadeParts s (s.handLinkloss e) :=
  (s.handCause_keeps _ _).iteSelf

theorem State.handLinkloss_idle (e : Entry) (h : s.running = false) : s.handLinkloss e = s := by
  unfold State.handLinkloss
  rw [State.handCause_idle _ _ h, ite_self]

theorem State.handLinkloss_active (hr : s.running = true) (ha : s.pc.phase.active = true) (hg : e.protected' = true) :
    s.handLinkloss e = s.latch .linkloss (some e.number) := by
  simp [State.handLinkloss, hg, State.handCause, State.hand, hr, Cause.latchesIn, ha, ProfileMask.enables]

/-- R36, R65: LINKLOSS in an active phase latches and names the station. -/
theorem State.handLinkloss_latches (hr : s.running = true) (ha : s.pc.phase.active = true) (hg : e.protected' = true)
    (hl : s.hasLatched .linkloss = false) :
    (s.handLinkloss e).pc.phase = .tripped ∧ ⟨.linkloss, some e.number⟩ ∈ (s.handLinkloss e).tu.latched := by
  obtain ⟨hphase, hprefix, -⟩ := State.latch_new (some e.number) hl
  rw [State.handLinkloss_active hr ha hg]
  exact ⟨hphase, hprefix.subset (by simp)⟩

/-- R26: a latch that takes PU into TRIPPED turns PUMP_RUN off. -/
theorem State.latch_pumpRun {c : Cause} (d : Option Nat) (hpu : s.hasRole .pu = true) (hl : s.hasLatched c = false)
    (hp : s.pc.phase ≠ .tripped) : (s.latch c d).vp.pumpRun = false := by
  obtain ⟨-, -, -, hrun, -⟩ := (State.latch_from d hl hp).1.part .pump (by decide)
  rw [hrun]
  exact State.changePhase_tripped_pump 0 0 (((s.addCause_keeps c d).hasRole (by decide) _).trans hpu)

/-! ## Silence -/

/-- R35: the entry past the silence limit, with the ROSTER event of a protected one. -/
def State.silenced (s : State) (e : Entry) : State :=
  ({ s with sr := s.sr.replace (e.passSilence s.sl.setup.silence) } : State).emitIf e.protected'
    (.presence e.number e.presence .silent)

theorem State.silence_eq (s : State) (e : Entry) : s.silence e = (s.silenced e).rosterChanged.handLinkloss e := rfl

theorem State.silenced_keeps (s : State) (e : Entry) : Keeps [.roster, .reports] s (s.silenced e) :=
  ((s.putRoster_keeps _).mono (by decide)).trans ((State.emitIf_keeps _ _ _).mono (by decide))

/-- The entry past its limit changes the table and the report queue, and nothing else. -/
theorem State.silenced_state (s : State) (e : Entry) :
    ∃ p, s.silenced e = { s with sr := (s.silenced e).sr, pp := p } := by
  unfold State.silenced State.emitIf
  split <;> exact ⟨_, rfl⟩

theorem State.silence_keeps (s : State) (e : Entry) : Keeps leakParts (s.silenced e) (s.silence e) :=
  (State.rosterChanged_keeps _).trans ((State.handLinkloss_keeps _ e).mono (by decide))

theorem State.silence_entries (hf : s.sr.find n = some e) :
    (s.silence e).sr.entries
      = s.sr.entries.map (fun x => if x.number = n then e.passSilence s.sl.setup.silence else x) := by
  have hsr : (s.silence e).sr = (s.silenced e).sr := (s.silence_keeps e).part .roster (by decide)
  have hput : (s.silenced e).sr = s.sr.replace (e.passSilence s.sl.setup.silence) :=
    (State.emitIf_keeps _ _ _).part .roster (by decide)
  rw [hsr, hput, ← (Roster.find_some hf).2]
  rfl

theorem execSilenceLimit_passes (hl : s.listening = true) (hf : s.sr.find n = some e)
    (hp : e.canPassSilence s.sl.setup.silence = true) : exec (.silenceLimit n) s = .next (s.silence e) := by
  change execSilenceLimit n s = _
  simp only [execSilenceLimit, hl, hf, hp, if_true]

/-- R29: in JOINING the roster offers nothing, so the entry alone changes. -/
theorem State.silence_joining (h : s.running = false) : s.silence e = s.silenced e := by
  have hr : (s.silenced e).running = false := ((s.silenced_keeps e).running (by decide)).trans h
  rw [State.silence_eq, State.rosterChanged_idle hr, State.handLinkloss_idle e hr]

theorem State.silence_leak (h : s.running = true) : (s.silence e).hw.leakCond = true ↔ LeakFacts (s.silence e) :=
  State.leak_rosterChanged (((s.silenced_keeps e).running (by decide)).trans h) (State.handLinkloss_keeps _ e)
    (by decide)

/-- The two commands of ageing touch the table and the cascade of a roster change. -/
def ageParts : List Part := cascadeParts ++ [.leak, .roster]

theorem State.silence_frame (s : State) (e : Entry) : Frame ageParts s (s.silence e) :=
  ((s.silenced_keeps e).frame.mono (by decide)).trans ((s.silence_keeps e).frame.mono (by decide))

/-- R36: what LINKLOSS finds after a roster change in which nothing trips. -/
theorem Stays.linkloss {u v : State} (h : Stays calmParts u v) (hr : u.running = true)
    (ha : u.pc.phase.active = true) (hl : u.hasLatched .linkloss = false) :
    v.running = true ∧ v.pc.phase.active = true ∧ v.hasLatched .linkloss = false := by
  obtain ⟨-, hlatched, -⟩ := h.keeps.part .tripRecord (by decide)
  exact ⟨(h.keeps.running (by decide)).trans hr, h.phase ▸ ha, by rw [State.hasLatched, hlatched]; exact hl⟩

/-- R36: a protected peer that falls SILENT in an active phase, where the roster change itself trips nothing. -/
theorem State.silence_trips (h : Stays calmParts (s.silenced e) (s.silenced e).rosterChanged) (hr : s.running = true)
    (ha : s.pc.phase.active = true) (hg : e.protected' = true) (hl : s.hasLatched .linkloss = false) :
    (s.silence e).pc.phase = .tripped ∧ ⟨.linkloss, some e.number⟩ ∈ (s.silence e).tu.latched
      ∧ (s.hasRole .pu = true → (s.silence e).vp.pumpRun = false) := by
  have hk := s.silenced_keeps e
  obtain ⟨p, hp⟩ := s.silenced_state e
  obtain ⟨hr', ha', hl'⟩ := h.linkloss ((hk.running (by decide)).trans hr) (by rw [hp]; exact ha) (by rw [hp]; exact hl)
  obtain ⟨hphase, hlatched⟩ := State.handLinkloss_latches hr' ha' hg hl'
  refine ⟨hphase, hlatched, fun hpu => ?_⟩
  have hpu' : (s.silenced e).rosterChanged.hasRole .pu = true :=
    (h.keeps.hasRole (by decide) _).trans ((hk.hasRole (by decide) _).trans hpu)
  have hnt : (s.silenced e).rosterChanged.pc.phase ≠ .tripped := fun ht => by
    rw [ht] at ha'
    exact absurd ha' (by decide)
  rw [State.silence_eq, State.handLinkloss_active hr' ha' hg]
  exact State.latch_pumpRun _ hpu' hl' hnt

theorem State.silence_follower (hr : s.running = true) (hpu : s.hasRole .pu = false) (ha : s.pc.phase.active = true)
    (hg : e.protected' = true) (hl : s.hasLatched .linkloss = false)
    (ho : s.pc.order = some .openVc1 → s.vp.channels.n1.state ≠ .fault) :
    (s.silence e).pc.phase = .tripped ∧ ⟨.linkloss, some e.number⟩ ∈ (s.silence e).tu.latched := by
  have hk := s.silenced_keeps e
  obtain ⟨p, hp⟩ := s.silenced_state e
  have hcalm : Stays calmParts (s.silenced e) (s.silenced e).rosterChanged := by
    refine State.rosterChanged_calm ((hk.running (by decide)).trans hr) ((hk.hasRole (by decide) _).trans hpu)
      fun h => ?_
    rw [hp] at h ⊢
    simp [Channel.refusesOpen, ho h]
  obtain ⟨hphase, hlatched, -⟩ := State.silence_trips hcalm hr ha hg hl
  exact ⟨hphase, hlatched⟩

theorem State.silence_pu (hpu : s.runningPu = true) (ho : s.pc.order = none) (ha : s.pc.phase.active = true)
    (hg : e.protected' = true) (hl : s.hasLatched .linkloss = false)
    (hn : NoStepDue { s with sr := (s.silence e).sr }) (hs : ¬ SampleDue { s with sr := (s.silence e).sr }) :
    (s.silence e).pc.phase = .tripped ∧ ⟨.linkloss, some e.number⟩ ∈ (s.silence e).tu.latched
      ∧ (s.silence e).vp.pumpRun = false := by
  obtain ⟨hr, hrole⟩ := s.runningPu_iff.1 hpu
  have hk := s.silenced_keeps e
  have hsr : (s.silence e).sr = (s.silenced e).sr := (s.silence_keeps e).part .roster (by decide)
  obtain ⟨p, hp⟩ := s.silenced_state e
  have hsame : SameForPc (s.silenced e) { s with sr := (s.silence e).sr } := by
    rw [hsr, hp]
    exact ⟨rfl, rfl, rfl, rfl, rfl, rfl, rfl, rfl, rfl, rfl, .inr (.inr rfl)⟩
  have hn' : NoStepDue (s.silenced e) := (hsame.noStepDue (hk.runningPu (by decide))).1 hn
  have hs' : ¬ SampleDue (s.silenced e) := fun h => hs (by rw [hsr]; rw [hp] at h; exact h)
  have hcalm := State.rosterChanged_noStep ((hk.runningPu (by decide)).trans hpu) (by rw [hp]; exact ho) hn' hs'
  obtain ⟨hphase, hlatched, hpump⟩ := State.silence_trips hcalm hr ha hg hl
  exact ⟨hphase, hlatched, hpump hrole⟩

/-! ## Removal -/

/-- R37: the entry out of the table, with its ROSTER event. -/
def State.removed (s : State) (n : Nat) : State :=
  ({ s with sr := { s.sr with entries := s.sr.without n } } : State).emit (.removed n)

theorem State.removed_keeps (s : State) (n : Nat) : Keeps [.roster, .reports] s (s.removed n) :=
  ((s.putRoster_keeps _).mono (by decide)).trans ((State.emit_keeps _ _).mono (by decide))

theorem execRemovalLimit_removes (hl : s.listening = true) (hf : s.sr.find n = some e) (hg : e.protected' = false) :
    exec (.removalLimit n) s = .next (s.removed n).rosterChanged := by
  change execRemovalLimit n s = _
  simp only [execRemovalLimit, hl, hf, hg]
  rfl

end Sys2Proof.Machine

open Sys2Proof Sys2Proof.Machine

/-- Settles O26: the entry past its limit or out of the table, and the roster change that follows. -/
theorem silenceAndRemoval : Obligations.SilenceAndRemoval := by
  refine ⟨?silence, fun s n e hl hf hg => ⟨?removal, ?pass⟩⟩
  case silence =>
    intro s n e hl hf hg hp
    have hn : e.number = n := (Roster.find_some hf).2
    refine ⟨_, execSilenceLimit_passes hl hf (by simp [Entry.canPassSilence, hg, hp]), ?_, ?_, ?_,
      State.silence_leak, ?_, s.silence_frame e⟩
    · rw [State.silence_entries hf]
      simp [Entry.passSilence, hg]
    · intro hr hpu ha hll ho
      exact hn ▸ State.silence_follower hr hpu ha hg hll ho
    · intro hpu ho ha hll hns hsd
      exact hn ▸ State.silence_pu hpu ho ha hg hll hns hsd
    · intro hr
      rw [State.silence_joining hr]
      exact (s.silenced_keeps e).frame
  case removal =>
    have hk := s.removed_keeps n
    refine ⟨_, execRemovalLimit_removes hl hf hg, ?_, ?_, ?_, ?_⟩
    · rw [((s.removed n).rosterChanged_keeps.part .roster (by decide) : _ = _)]
      rfl
    · exact fun hr => State.leak_rosterChanged ((hk.running (by decide)).trans hr) (.refl [] _) (by decide)
    · intro hr
      rw [State.rosterChanged_idle ((hk.running (by decide)).trans hr)]
      exact hk.frame
    · exact (hk.frame.mono (by decide)).trans ((State.rosterChanged_keeps _).frame.mono (by decide))
  case pass =>
    intro ha
    refine ⟨_, execSilenceLimit_passes hl hf (by simp [Entry.canPassSilence, hg, ha]), ?_, s.silence_frame e⟩
    rw [State.silence_entries hf]
    have hage : max e.age (s.sl.setup.silence + 1) = s.sl.setup.silence + 1 := by omega
    simp [Entry.passSilence, hg, hage]
end

section
/-! SUPPORT. The receive slots after a frame is taken (R168, R170 to R173). -/

namespace Sys2Proof.Machine

/-! ## From the assembly slot to the check slot -/

/-- R171: the verdict on the frame in the assembly slot. -/
def Assembly.verdict (a : Assembly) : Verdict := judge a.echo a.damaged a.bytes

/-- R173: the event of a frame that is discarded; none for a good frame or an echo. -/
def Assembly.lost (a : Assembly) : Option Event :=
  match a.verdict with
  | .discard r => some (.frameLost r a.bytes[0]? a.bytes[1]?)
  | _ => none

/-- R168, R171: a FULL assembly slot and a free check slot. -/
theorem LinkController.toCheck_full {l : LinkController} (hf : l.assembly.condition = .full) (hc : l.check = none) :
    l.toCheck
      = ({ l with
            check := if l.assembly.verdict = .good then some l.assembly.bytes else none
            assembly := l.assembly.hunt },
          l.assembly.lost) := by
  unfold LinkController.toCheck
  rw [if_pos ⟨hf, hc⟩]
  unfold Assembly.lost Assembly.verdict
  cases hv : judge l.assembly.echo l.assembly.damaged l.assembly.bytes <;> simp [hc]

/-! ## The slots moved on -/

variable {s : State}

theorem LinkController.toDelivery_emptied (l : LinkController) :
    LinkController.toDelivery { l with delivery := none } = { l with delivery := l.check, check := none } := rfl

/-- R168: with no frame FULL, the check slot's frame goes to the delivery slot, and nothing else happens. -/
theorem State.delivered_unfilled (h : s.lc.assembly.condition ≠ .full) :
    s.delivered = { s with lc := { s.lc with delivery := s.lc.check, check := none } } := by
  have hcheck : LinkController.toCheck { s.lc with delivery := s.lc.check, check := none }
      = ({ s.lc with delivery := s.lc.check, check := none }, none) := if_neg fun hf => h hf.1
  have hagain : LinkController.toDelivery { s.lc with delivery := s.lc.check, check := none }
      = { s.lc with delivery := s.lc.check, check := none } := by
    unfold LinkController.toDelivery
    split
    · rename_i hn
      have hnone : s.lc.check = none := by simpa using hn
      simp [hnone]
    · rfl
  unfold State.delivered State.moveSlots
  dsimp only
  rw [LinkController.toDelivery_emptied, hcheck]
  dsimp only
  rw [hagain]
  rfl

/-- R168, R171, R173: with a frame FULL, it goes to the check slot and is judged there. -/
theorem State.delivered_full (h : s.lc.assembly.condition = .full) :
    s.delivered
      = ({ s with lc := LinkController.toDelivery { s.lc with
          delivery := s.lc.check
          check := if s.lc.assembly.verdict = .good then some s.lc.assembly.bytes else none
          assembly := s.lc.assembly.hunt } } : State).emitOption s.lc.assembly.lost := by
  unfold State.delivered State.moveSlots
  dsimp only
  rw [LinkController.toDelivery_emptied, LinkController.toCheck_full (by exact h) rfl]

theorem State.emitOption_lc (e : Option Event) : (s.emitOption e).lc = s.lc := rfl

theorem State.delivered_full_assembly (h : s.lc.assembly.condition = .full) :
    s.delivered.lc.assembly = s.lc.assembly.hunt := by
  rw [State.delivered_full h, State.emitOption_lc, LinkController.toDelivery_assembly]

/-- R168, R171: a frame that is discarded leaves the check slot free. -/
theorem State.delivered_bad (h : s.lc.assembly.condition = .full) (hv : s.lc.assembly.verdict ≠ .good) :
    s.delivered.lc.delivery = s.lc.check ∧ s.delivered.lc.check = none := by
  rw [State.delivered_full h, State.emitOption_lc, if_neg hv]
  unfold LinkController.toDelivery
  split
  · rename_i hn
    have hnone : s.lc.check = none := by simpa using hn
    exact ⟨hnone.symm, rfl⟩
  · exact ⟨rfl, rfl⟩

/-- R168, R171: a good frame goes straight on where no frame was before it. -/
theorem State.delivered_good_through (h : s.lc.assembly.condition = .full) (hv : s.lc.assembly.verdict = .good)
    (hc : s.lc.check = none) :
    s.delivered.lc.delivery = some s.lc.assembly.bytes ∧ s.delivered.lc.check = none := by
  rw [State.delivered_full h, State.emitOption_lc, if_pos hv, hc]
  exact ⟨rfl, rfl⟩

/-- R168, R171: a good frame waits in the check slot behind the one before it. -/
theorem State.delivered_good_behind (h : s.lc.assembly.condition = .full) (hv : s.lc.assembly.verdict = .good)
    (hc : s.lc.check ≠ none) :
    s.delivered.lc.delivery = s.lc.check ∧ s.delivered.lc.check = some s.lc.assembly.bytes := by
  obtain ⟨b, hb⟩ := Option.ne_none_iff_exists'.1 hc
  rw [State.delivered_full h, State.emitOption_lc, if_pos hv, hb]
  exact ⟨rfl, rfl⟩

/-- R201, R202: an EVENT of a class in the mask is the newest report wherever the queue is not full after it. -/
theorem PanelPort.placeEvent_newest {p : PanelPort} {e : Event} (hm : p.mask.has e.cls = true)
    (hl : (p.placeEvent e).queue.length < 8) : ∃ l m, (p.placeEvent e).queue = l ++ [⟨.event e, m⟩] := by
  have hp := p.placeEvent_placed e
  by_cases hroom : p.queue.length < 8
  · exact ⟨_, _, congrArg PanelPort.queue (hp.room hm hroom)⟩
  · rw [hp.lost hm (by omega)] at hl
    exact absurd hl hroom

/-- R173: the LINK event of a frame that is discarded. -/
theorem State.delivered_discard {r : FrameFault} (h : s.lc.assembly.condition = .full)
    (hv : s.lc.assembly.verdict = .discard r) (hm : s.pp.mask.link = true) (hl : s.delivered.pp.queue.length < 8) :
    NewestReport s.delivered (.event (.frameLost r s.lc.assembly.bytes[0]? s.lc.assembly.bytes[1]?)) := by
  have hlost : s.lc.assembly.lost = some (.frameLost r s.lc.assembly.bytes[0]? s.lc.assembly.bytes[1]?) := by
    simp [Assembly.lost, hv]
  have hpp : s.delivered.pp = s.pp.placeEvent (.frameLost r s.lc.assembly.bytes[0]? s.lc.assembly.bytes[1]?) := by
    rw [State.delivered_full h, hlost]
    rfl
  rw [hpp] at hl
  unfold NewestReport
  rw [hpp]
  exact PanelPort.placeEvent_newest hm hl

end Sys2Proof.Machine
end

section
/-! SUPPORT and the proof of O20: a STATUS enters the roster (R29, R31 to R33, R38). -/

namespace Sys2Proof.Machine

/-! ## The table after a frame -/

/-- R31, R32: the table after a frame of station `n`: the entry found or made, and changed. -/
def Roster.entered (r : Roster) (n : Nat) (role : Role) (st : Option Status) : Roster :=
  ((r.takeIn n).1.takeFrame n role st).1

theorem State.enterFrame_sr (s : State) (f : Received) :
    (s.enterFrame f).sr = s.sr.entered f.header.sender f.header.role f.contents.status? := rfl

section
variable {r : Roster} {n : Nat} {role : Role} {st : Option Status}

theorem Roster.entered_join : (r.entered n role st).join = r.join := by
  have htake : (r.takeIn n).1.join = r.join := by
    unfold Roster.takeIn
    split
    · rfl
    · split
      · rfl
      · split <;> rfl
  unfold Roster.entered Roster.takeFrame
  split <;> exact htake

theorem Roster.entered_known {e : Entry} (h : r.find n = some e) :
    r.entered n role st = { r with entries := e.takeFrame role st :: r.without n } := by
  have htake : (r.takeIn n).1 = r := by simp [Roster.takeIn, h]
  simp [Roster.entered, htake, Roster.takeFrame, h]

/-- R31: the entry just made is the sender's, at the front of entries of other stations. -/
theorem Roster.takeFrame_fresh {l : List Entry} (hl : ∀ x ∈ l, x.number ≠ n) :
    ((Roster.mk (Entry.fresh n :: l) r.join).takeFrame n role st).1.entries
      = (Entry.fresh n).takeFrame role st :: l := by
  have hrest : l.filter (fun x => x.number != n) = l := List.filter_eq_self.2 fun x hx => by simpa using hl x hx
  simp [Roster.takeFrame, Roster.find, Roster.without, Entry.fresh, hrest]

theorem Roster.others {x : Entry} (h : r.find n = none) (hx : x ∈ r.entries) : x.number ≠ n := fun hn =>
  Roster.find_none h (List.mem_map.2 ⟨x, hx, hn⟩)

theorem Roster.entered_room (h : r.find n = none) (hl : r.entries.length < 12) :
    (r.entered n role st).entries = (Entry.fresh n).takeFrame role st :: r.entries := by
  have htake : (r.takeIn n).1 = ⟨Entry.fresh n :: r.entries, r.join⟩ := by simp [Roster.takeIn, h, rosterPlaces, hl]
  rw [Roster.entered, htake, Roster.takeFrame_fresh fun x => Roster.others h]

theorem Roster.entered_evicts {v : Entry} (h : r.find n = none) (hl : 12 ≤ r.entries.length)
    (hv : (r.entries.reverse.find? fun e => !e.protected') = some v) :
    (r.entered n role st).entries = (Entry.fresh n).takeFrame role st :: r.without v.number := by
  have htake : (r.takeIn n).1 = ⟨Entry.fresh n :: r.without v.number, r.join⟩ := by
    simp [Roster.takeIn, h, rosterPlaces, Nat.not_lt.2 hl, Roster.victim, hv]
  have hothers : ∀ x ∈ r.without v.number, x.number ≠ n := fun x hx => Roster.others h (List.mem_filter.1 hx).1
  rw [Roster.entered, htake, Roster.takeFrame_fresh hothers]

theorem Roster.entered_full (h : r.find n = none) (hl : 12 ≤ r.entries.length)
    (hp : ∀ e ∈ r.entries, e.protected' = true) : (r.entered n role st).entries = r.entries := by
  have hv : (r.entries.reverse.find? fun e => !e.protected') = none := by simpa using hp
  have htake : (r.takeIn n).1 = r := by simp [Roster.takeIn, h, rosterPlaces, Nat.not_lt.2 hl, Roster.victim, hv]
  simp [Roster.entered, htake, Roster.takeFrame, h]

end

/-! ## The frame taken whole -/

variable {s : State} {l : List Byte} {h : Header} {st : Status}

/-- R29, R38: a STATUS that is no clash, taken in JOINING: the table and the join summary. -/
def State.joined (s : State) (f : Received) : State :=
  { s.enterFrame f with sr := { (s.enterFrame f).sr with join := s.sr.join.take f.header f.contents } }

theorem State.takeFrame_joining_status (hj : s.pc.station = .joining)
    (hf : readFrame l = some ⟨.status, h, .status st⟩) (hc : s.isClash h = false) :
    s.takeFrame l = s.joined (statusFrame h st) := by
  have hjoin : (s.enterFrame (statusFrame h st)).sr.join = s.sr.join := by
    rw [State.enterFrame_sr, Roster.entered_join]
  simp only [State.takeFrame, hf, hj, State.takeJoining, hc]
  rw [State.joined, ← hjoin]
  rfl

theorem State.joined_keeps (s : State) (f : Received) : Keeps [.roster, .reports] s (s.joined f) :=
  (s.enterFrame_keeps f).trans ((State.putRoster_keeps _ _).mono (by decide))

/-- The parts a frame may touch at a listening station before the slots move on. -/
def takeParts : List Part := cascadeParts ++ [.leak, .roster, .generation, .transfer]

/-- R29, R33: what the blocks do with a STATUS after its entry, the slots apart. -/
theorem State.afterStatus_keeps (s : State) (h : Header) (st : Status) :
    Keeps (cascadeParts ++ [.leak, .generation, .transfer]) (s.enterFrame (statusFrame h st)) (s.afterStatus h st) :=
  (((State.offerTrip_keeps _ _).mono (by decide)).trans ((State.takeStatus_keeps _ _ _ _).mono (by decide))).trans
    ((State.rosterChanged_keeps _).mono (by decide))

/-- R29: a STATUS that is no clash, taken in either state that listens: the table entered, and everything that
`takeParts` does not name left. -/
theorem State.takeFrame_status_taken (hs : s.listening = true) (hf : readFrame l = some ⟨.status, h, .status st⟩)
    (hc : s.isClash h = false) :
    Keeps takeParts s (s.takeFrame l)
      ∧ (s.takeFrame l).sr.entries = (s.sr.entered h.sender h.role (some st)).entries := by
  rcases Bool.or_eq_true _ _ ▸ hs with hj | hr
  · rw [State.takeFrame_joining_status (by simpa using hj) hf hc]
    exact ⟨(s.joined_keeps _).mono (by decide), rfl⟩
  · rw [State.takeFrame_status hr hf hc]
    have hk := s.afterStatus_keeps h st
    exact ⟨((s.enterFrame_keeps _).mono (by decide)).trans (hk.mono (by decide)),
      congrArg Roster.entries (hk.part .roster (by decide))⟩

/-- R113: the leak condition after a STATUS taken in RUNNING. -/
theorem State.afterStatus_leak (hr : s.running = true) :
    (s.afterStatus h st).delivered.hw.leakCond = true ↔ LeakFacts (s.afterStatus h st).delivered := by
  have hk : Keeps takeParts s (((s.enterFrame (statusFrame h st)).offerTrip (statusFrame h st)).takeStatus h
      (s.sr.find h.sender) st) :=
    (((s.enterFrame_keeps _).mono (by decide)).trans ((State.offerTrip_keeps _ _).mono (by decide))).trans
      ((State.takeStatus_keeps _ _ _ _).mono (by decide))
  exact State.leak_rosterChanged ((hk.running (by decide)).trans hr) (State.delivered_keeps _)
    (by decide)

end Sys2Proof.Machine

open Sys2Proof Sys2Proof.Machine

/-- Settles O20: the table by the cases of its entry, the slots by the verdict, the rest by what the cascade leaves. -/
theorem statusEntersRoster : Obligations.StatusEntersRoster := by
  intro s l h st hs hd hf hc
  obtain ⟨hk, hentries⟩ := State.takeFrame_status_taken hs hf hc
  have hslots := (s.takeFrame l).delivered_keeps
  have hsr : (s.takeFrame l).delivered.sr = (s.takeFrame l).sr := hslots.part .roster (by decide)
  obtain ⟨-, -, hasm, hcheck, -⟩ := hk.part .receive (by decide)
  have hmask : (s.takeFrame l).pp.mask = s.pp.mask := hk.part .reportMask (by decide)
  have htable : (s.takeFrame l).delivered.sr.entries = (s.sr.entered h.sender h.role (some st)).entries := by
    rw [hsr, hentries]
  refine ⟨_, State.execRosterTakeFrame_frame hs hd, ?known, ?room, ?evicts, ?full, ?unfilled, ?filled, ?joining,
    ?running, (hk.frame.mono (by decide)).trans (hslots.frame.mono (by decide))⟩
  case known =>
    intro e he
    rw [htable, Roster.entered_known he]
    rfl
  case room =>
    intro hn hl
    rw [htable, Roster.entered_room hn hl]
    rfl
  case evicts =>
    intro v hn hl hv
    rw [htable, Roster.entered_evicts hn hl hv]
    rfl
  case full =>
    intro hn hl hp
    rw [htable, Roster.entered_full hn hl hp]
  case unfilled =>
    intro hcond
    rw [State.delivered_unfilled (by rw [hasm]; exact hcond)]
    exact ⟨hcheck, rfl⟩
  case filled =>
    intro hcond v hv
    have hfull : (s.takeFrame l).lc.assembly.condition = .full := by rw [hasm]; exact hcond
    have hverdict : (s.takeFrame l).lc.assembly.verdict = v := by rw [hasm, hv]; rfl
    rw [← hasm, ← hcheck]
    refine ⟨State.delivered_full_assembly hfull, fun hbad => ?_, fun hgood hnone => ?_, fun hgood hsome => ?_,
      fun r hr hm hq => ?_⟩
    · exact State.delivered_bad hfull (hverdict ▸ hbad)
    · exact State.delivered_good_through hfull (hverdict.trans hgood) hnone
    · exact State.delivered_good_behind hfull (hverdict.trans hgood) hsome
    · exact State.delivered_discard hfull (hverdict.trans hr) (by rw [hmask]; exact hm) hq
  case joining =>
    intro hj
    have hx := State.takeFrame_joining_status hj hf hc
    rw [hx] at hsr hslots ⊢
    refine ⟨by rw [hsr]; rfl, ?_⟩
    exact ((s.joined_keeps _).frame.mono (by decide)).trans (hslots.frame.mono (by decide))
  case running =>
    intro hr
    rw [State.takeFrame_status hr hf hc] at hsr ⊢
    refine ⟨?_, State.afterStatus_leak hr⟩
    rw [hsr, ((s.afterStatus_keeps h st).part .roster (by decide) : _ = _), State.enterFrame_sr, Roster.entered_join]
end

section
/-! SUPPORT. A frame that is no STATUS, from a station in the table (R29, R32), and what PU decides a REQUEST on
(R54, R55, R72). -/

namespace Sys2Proof.Machine

variable {s : State} {f : Received} {e : Entry}

/-! ## The entry heard -/

/-- R32: a known sender's entry heard: the table and the report queue change, and nothing else. -/
theorem State.enterFrame_heard (hf : s.sr.find f.header.sender = some e) (hst : f.contents.status? = none) :
    ∃ p : PanelPort, s.enterFrame f = { s with sr := s.sr.heard e f.header.role, pp := p } := by
  have hsr : (s.enterFrame f).sr = s.sr.heard e f.header.role := by
    rw [State.enterFrame_sr, hst, Roster.entered_known hf, ← (Roster.find_some hf).2]
    rfl
  refine ⟨(s.enterFrame f).pp, ?_⟩
  rw [← hsr]
  rfl

/-- R29: a frame that is no clash and no STATUS, taken at a RUNNING station. -/
theorem State.takeRunning_other (hc : s.isClash f.header = false) (hst : f.contents.status? = none) :
    s.takeRunning f = (((s.enterFrame f).offerTrip f).rosterChanged).takeContents f := by
  unfold State.takeRunning
  rw [hc]
  split
  · contradiction
  · dsimp only
    split
    · rename_i h
      rw [h] at hst
      cases hst
    · rfl

theorem State.offerTrip_notTrip (h : f.contents.remoteTrip = none) : s.offerTrip f = s := by
  unfold State.offerTrip
  rw [h]

/-- R29, R34: such a frame that is no remote trip either, taken whole. -/
theorem State.execRosterTakeFrame_other {l : List Byte} (hr : s.running = true) (hd : s.lc.delivery = some l)
    (hf : readFrame l = some f) (hc : s.isClash f.header = false) (hst : f.contents.status? = none)
    (ht : f.contents.remoteTrip = none) :
    exec .rosterTakeFrame s = .next (((s.enterFrame f).rosterChanged).takeContents f).delivered := by
  rw [State.execRosterTakeFrame_frame (State.running_listening hr) hd, State.takeFrame_running hr hf,
    State.takeRunning_other hc hst, State.offerTrip_notTrip ht]

/-! ## A roster change at PU that leads to no step -/

/-- R10: with no step in hand and none due, PC does nothing. -/
theorem State.puEval_quiet (hi : s.pc.inHand = none) (hd : ∀ p k, ¬ Due s p k) : s.puEval = s :=
  (State.puEval_noStep (.inr (.inr (.inr hd)))).elim id fun h => h.trans (State.confirm_none hi)

/-- R10: PC does not step at a roster change: a step in hand waits, or none is in hand and none is due. -/
theorem State.rosterChanged_waits (hpu : s.runningPu = true) (ho : s.pc.order = none) (hs : ¬ SampleDue s)
    (hw : Unconfirmed s ∨ (s.pc.inHand = none ∧ ∀ p k, ¬ Due s p k)) : s.rosterChanged = s.rosterLevels := by
  obtain ⟨hr, hrole⟩ := s.runningPu_iff.1 hpu
  have hsame := State.rosterLevels_sameForPc hrole ho hs
  rw [State.rosterChanged_running hr]
  rcases hw with hw | ⟨hi, hd⟩
  · exact State.puEval_unconfirmed (hsame.unconfirmed.1 hw)
  · exact State.puEval_quiet (hsame.inHand.symm.trans hi) fun p k => fun h => hd p k ((hsame.due p k).2 h)

theorem State.rosterLevels_answer (ho : s.pc.order = none) : s.rosterLevels.lc.answer = s.lc.answer := by
  rw [State.rosterLevels_rest, State.runOrder_notDue (State.orderDue_none ho), State.rosterRest_answer]

/-- R113: at PU a roster change leaves no leak condition. -/
theorem State.rosterChanged_noLeak (hpu : s.runningPu = true) : s.rosterChanged.hw.leakCond = false := by
  obtain ⟨hr, hrole⟩ := s.runningPu_iff.1 hpu
  have hsv : s.rosterChanged.hasRole .sv = false := by
    rw [s.rosterChanged_keeps.hasRole (by decide), State.hasRole, s.hasRole_iff .pu |>.1 hrole]
    rfl
  have hleak := State.leak_rosterChanged hr (.refl [] s.rosterChanged) (by decide)
  cases hc : s.rosterChanged.hw.leakCond
  · rfl
  · exact absurd (hleak.1 hc).1 (by simp [hsv])

/-! ## What PU decides on -/

theorem State.tanksUsed_pu (h : s.hasRole .pu = true) : s.tanksUsed = [] := by
  rw [State.hasRole_iff] at h
  simp [State.tanksUsed, State.tankUsed, State.hasRole, h]

section
variable {u t : State} (h : Keeps rosterParts u t) (hpu : u.hasRole .pu = true)
  (hleak : t.hw.leakCond = u.hw.leakCond)
include h hpu hleak

/-- R64: at PU no active condition reads what a roster change moves, the leak condition apart. -/
theorem Keeps.causeActive_pu (c : Cause) : t.causeActive c = u.causeActive c := by
  have hinputs : t.inputs = u.inputs := h.part .inputs (by decide)
  have hsr : t.sr = u.sr := h.part .roster (by decide)
  have hchans : t.hw.chans = u.hw.chans := h.part .readings (by decide)
  obtain ⟨hsurge, hhard, -⟩ := h.part .levels (by decide)
  obtain ⟨-, -, -, hrun, -⟩ := h.part .pump (by decide)
  have hrole := h.role (by decide)
  have htpu : t.hasRole .pu = true := (h.hasRole (by decide) .pu).trans hpu
  cases c with
  | manual => exact congrArg Inputs.esd hinputs
  | separation => simp only [State.causeActive, State.valveRole, State.hasRole, hrole, hinputs]
  | overfill => simp only [State.causeActive, State.tanksUsed_pu hpu, State.tanksUsed_pu htpu, List.any_nil]
  | surge =>
    simp only [State.causeActive, State.aboveThreshold, State.pressureRole, State.pressure, hrole, hchans, hsurge]
  | hardlimit =>
    simp only [State.causeActive, State.aboveHardLimit, State.pressureRole, State.pressure, hrole, hchans, hhard]
  | leak => exact hleak
  | linkloss => simp only [State.causeActive, State.someSilent, hsr]
  | valve => simp only [State.causeActive, State.channelsUsed_pu hpu, State.channelsUsed_pu htpu, List.any_nil]
  | pump => simp only [State.causeActive, State.hasRole, hrole, hinputs, hrun]
  | noflow | phase => rfl
  | sensor => simp only [State.causeActive, hchans]

/-- R19: at PU READY reads nothing that a roster change moves. -/
theorem Keeps.readyNow_pu : t.readyNow = u.readyNow := by
  have hinputs : t.inputs = u.inputs := h.part .inputs (by decide)
  have hsr : t.sr = u.sr := h.part .roster (by decide)
  have hmask : t.tu.mask = u.tu.mask := h.part .profile (by decide)
  obtain ⟨hphase, -, -⟩ := h.part .phase (by decide)
  obtain ⟨hpump, -, -⟩ := h.part .pump (by decide)
  have hrole := (State.hasRole_iff u .pu).1 hpu
  have htrole := (h.role (by decide)).trans hrole
  simp only [State.readyNow, State.readyForRole, State.causePresentAtPu, State.allPresent, hrole, htrole, hinputs, hsr,
    hmask, hphase, hpump, h.running (by decide), h.causeActive_pu hpu hleak]

end

/-- Two states on which PU decides a request alike (R54, R55, R72). -/
structure SameForRequest (u t : State) : Prop where
  phase : t.pc.phase = u.pc.phase
  inHand : t.pc.inHand = u.pc.inHand
  gen : t.pc.gen = u.pc.gen
  ready : t.pc.ready = u.pc.ready
  roster : t.sr = u.sr
  pump : t.vp.pump = u.vp.pump
  latched : t.tu.latched = u.tu.latched
  causes : ∀ c, t.causeActive c = u.causeActive c

section
variable {u t : State} (h : SameForRequest u t)
include h

theorem SameForRequest.lineup : t.lineupReadySet = u.lineupReadySet := by
  simp only [State.lineupReadySet, h.roster, h.gen]

theorem SameForRequest.resettable : t.peersResettable = u.peersResettable := by
  simp only [State.peersResettable, h.roster, h.gen]

theorem SameForRequest.fails (k : ReqKind) (q r : Nat) (o : Decision) :
    RequestFails t k q r o ↔ RequestFails u k q r o := by
  cases k <;> simp only [RequestFails, h.lineup, h.resettable, h.ready, h.pump, h.latched, h.causes]

theorem SameForRequest.turnedAway (k : Option ReqKind) (q r : Nat) (o : Decision) :
    TurnedAway t k q r o ↔ TurnedAway u k q r o := by
  cases k with
  | none => exact Iff.rfl
  | some k => simp only [TurnedAway, h.phase, h.fails]

end

/-! ## The decision -/

theorem requestStep_none_iff (k : ReqKind) (p : Phase) : requestStep k p = none ↔ k.takenIn p = false := by
  cases k <;> cases p <;> simp [requestStep, ReqKind.takenIn]

theorem nominationOk_iff (q r : Nat) :
    nominationOk q r = true ↔ 1 ≤ q ∧ q ≤ 9999999 ∧ 1000 ≤ r ∧ r ≤ 3000000 := by
  simp [nominationOk, and_assoc]

theorem State.firstActiveCause_some (h : ∃ l ∈ s.tu.latched, s.causeActive l.cause = true) :
    ∃ c, s.firstActiveCause = some c := by
  obtain ⟨l, hl, ha⟩ := h
  refine Option.isSome_iff_exists.1 (List.find?_isSome.2 ⟨l.cause, by cases l.cause <;> decide, ?_⟩)
  rw [Bool.and_eq_true, List.any_eq_true]
  exact ⟨⟨l, hl, by simp⟩, ha⟩

/-- R54: a kind in a phase of its row is decided on its further condition. -/
theorem State.judgeRequest_fails {k : ReqKind} {q r : Nat} {o : Decision} (hi : s.pc.inHand = none)
    (hk : k.takenIn s.pc.phase = true) (hf : RequestFails s k q r o) :
    (s.judgeRequest (some k) q r).1 = o ∧ o ≠ .taken := by
  cases k with
  | nominate =>
    obtain ⟨hn, rfl⟩ := hf
    rw [← nominationOk_iff] at hn
    simp [State.judgeRequest, hi, hk, hn]
  | start =>
    obtain ⟨hn, rfl⟩ := hf
    cases hl : s.lineupReadySet <;> simp_all [State.judgeRequest, State.startCheck]
  | resume =>
    obtain ⟨hn, rfl⟩ := hf
    simp [State.judgeRequest, hi, hk, hn]
  | reset =>
    rcases hf with ⟨ha, rfl⟩ | ⟨hna, hn, rfl⟩
    · obtain ⟨c, hc⟩ := State.firstActiveCause_some ha
      simp [State.judgeRequest, hi, hk, State.resetCheck, hc]
    · by_cases hp : s.vp.pump = .stopped
      · have hpeers : s.peersResettable = false := by simpa [hp] using hn
        simp [State.judgeRequest, hi, hk, State.resetCheck, State.firstActiveCause_none hna, hp, hpeers]
      · simp [State.judgeRequest, hi, hk, State.resetCheck, State.firstActiveCause_none hna, hp]
  | pause | stop | endack => exact absurd hf id

/-- R54, R55, R72: a request turned away is decided with the outcome of its check. -/
theorem State.judgeRequest_turnedAway {k : Option ReqKind} {q r : Nat} {o : Decision} (hi : s.pc.inHand = none)
    (ht : TurnedAway s k q r o) : (s.judgeRequest k q r).1 = o ∧ o ≠ .taken := by
  cases k with
  | none =>
    have ho : o = .wrongphase := ht
    simp [State.judgeRequest, hi, ho]
  | some k =>
    by_cases hstep : requestStep k s.pc.phase = none
    · have ho : o = .wrongphase := by simpa [TurnedAway, hstep] using ht
      simp [State.judgeRequest, hi, (requestStep_none_iff k _).1 hstep, ho]
    · have hk : k.takenIn s.pc.phase = true := by simpa [requestStep_none_iff] using hstep
      exact State.judgeRequest_fails hi hk (by simpa [TurnedAway, hstep] using ht)

/-- R54: a step in hand makes the decision BUSY. -/
theorem State.judgeRequest_busy (k : Option ReqKind) (q r : Nat) (h : s.pc.inHand.isSome = true) :
    (s.judgeRequest k q r).1 = .busy := by
  simp [State.judgeRequest, h]

end Sys2Proof.Machine
end

section
/-! SUPPORT. A REQUEST frame at PU (R53 to R56). -/

namespace Sys2Proof.Machine

/-! ## The ANSWER placed -/

/-- The ANSWER of a decision put into its place. -/
def State.holdAnswer (s : State) (dest : Nat) (number : BitVec 8) (o : Decision) : State :=
  { s with lc := s.lc.hold .answer (.answer ⟨s.number, .pu, s.mr.record.transfer, s.pc.gen⟩ dest number o) }

theorem State.header_role {s : State} {r : Role} (h : s.role = some r) :
    s.header = some ⟨s.number, r, s.mr.record.transfer, s.pc.gen⟩ := by
  rw [State.header, h]
  rfl

/-- R56: with the ANSWER place free, the effects of the decision come first and its ANSWER after them. -/
theorem State.takeRequestFrame_free {s : State} {n code q r : Nat} {number : BitVec 8} (ha : s.lc.answer = none)
    (hpu : s.hasRole .pu = true) :
    s.takeRequestFrame n code number q r
      = (s.carryOut (ReqKind.ofCode code) q r).holdAnswer n number (s.judgeRequest (ReqKind.ofCode code) q r).1 := by
  have hrole : (s.carryOut (ReqKind.ofCode code) q r).role = some .pu :=
    ((s.carryOut_keeps _ q r).role (by decide)).trans ((s.hasRole_iff .pu).1 hpu)
  simp only [State.takeRequestFrame, ha, Option.isSome_none, Bool.false_eq_true, if_false, State.header_role hrole,
    State.holdAnswer]

/-- What stands once an ANSWER is placed and the slots have moved on. -/
structure Answered (s t : State) (dest : Nat) (number : BitVec 8) (o : Decision) : Prop where
  frame : Frame [.frames, .receive, .reports] s t
  status : t.lc.status = s.lc.status
  placed : AnswerPlaced t dest number o

theorem State.holdAnswer_answered (s : State) (dest : Nat) (number : BitVec 8) (o : Decision) :
    Answered s (s.holdAnswer dest number o).delivered dest number o := by
  have hslots := (s.holdAnswer dest number o).delivered_keeps.frame
  have hhold : Frame [.frames] s (s.holdAnswer dest number o) := by
    intro p hp
    cases p <;> first | exact absurd (by decide) hp | simp [Part.same, State.holdAnswer, LinkController.hold,
      LinkController.withdraw, LinkController.setPlace]
  have hframe : Frame [.frames, .receive, .reports] s (s.holdAnswer dest number o).delivered :=
    (hhold.mono (by decide)).trans (hslots.mono (by decide))
  obtain ⟨-, -, -, hstatus, -⟩ := hslots.part .frames (by decide)
  have hsl : (s.holdAnswer dest number o).delivered.sl = s.sl := hframe.part .setup (by decide)
  have hrecord : (s.holdAnswer dest number o).delivered.mr.record = s.mr.record := hframe.part .record (by decide)
  have hgen : (s.holdAnswer dest number o).delivered.pc.gen = s.pc.gen := hframe.part .generation (by decide)
  refine ⟨hframe, hstatus, ?_⟩
  rw [AnswerPlaced, State.delivered_answer, State.number, hsl, hrecord, hgen]
  rfl

/-! ## What PC and the Request Handler find -/

/-- What PU holds after a roster change at which it does not step. -/
structure AwaitsDecision (s u y : State) : Prop where
  keeps : Keeps rosterParts s y
  same : SameForRequest u y
  answer : y.lc.answer = s.lc.answer

theorem State.rosterChanged_awaits {s : State} (hpu : s.runningPu = true) (ho : s.pc.order = none)
    (hleak : s.hw.leakCond = false) (hs : ¬ SampleDue s)
    (hw : Unconfirmed s ∨ (s.pc.inHand = none ∧ ∀ p k, ¬ Due s p k)) :
    AwaitsDecision s { s with pc := { s.pc with ready := s.readyNow } } s.rosterChanged := by
  obtain ⟨hr, hrole⟩ := s.runningPu_iff.1 hpu
  have hk := State.rosterLevels_notDue (State.orderDue_none ho)
  have hflags : FlagsRight s.rosterLevels := State.watch_flagsRight _
  have hanswer := State.rosterLevels_answer ho
  have hnoLeak := State.rosterChanged_noLeak hpu
  rw [State.rosterChanged_waits hpu ho hs hw] at hnoLeak ⊢
  have hleak' := hnoLeak.trans hleak.symm
  obtain ⟨hphase, hinHand, -⟩ := hk.part .phase (by decide)
  have hready : s.rosterLevels.pc.ready = s.readyNow := by
    rw [← hk.readyNow_pu hrole hleak', Bool.eq_iff_iff, hflags.ready, State.readyNow_iff]
  exact ⟨hk, {
    phase := hphase
    inHand := hinHand
    gen := hk.part .generation (by decide)
    ready := hready
    roster := hk.part .roster (by decide)
    pump := (hk.part .pump (by decide)).1
    latched := (hk.part .tripRecord (by decide)).2.1
    causes := fun c => (hk.causeActive_pu hrole hleak' c).trans (by cases c <;> rfl) }, hanswer⟩

/-! ## The frame taken -/

/-- The state that a REQUEST is judged against: the sender heard, READY as its rule then gives it. -/
def State.requestSeen (s : State) (e : Entry) (role : Role) : State :=
  let v := { s with sr := s.sr.heard e role }
  { v with pc := { v.pc with ready := v.readyNow } }

/-- A REQUEST as `readFrame` gives it. -/
def requestFrame (h : Header) (code : Nat) (number : BitVec 8) (q r : Nat) : Received :=
  ⟨.request, h, .request code number q r⟩

/-- R53: PU at the roster change of a REQUEST from a known sender. -/
structure RequestMet (s u y : State) : Prop where
  keeps : Keeps (rosterParts ++ [.roster]) s y
  roster : y.sr = u.sr
  same : SameForRequest u y
  answer : y.lc.answer = s.lc.answer

section
variable {s : State} {l : List Byte} {h : Header} {code q r : Nat} {number : BitVec 8} {e : Entry}
  (hpu : s.runningPu = true) (hf : s.sr.find h.sender = some e) (ho : s.pc.order = none)
  (hleak : s.hw.leakCond = false) (hs : ¬ SampleDue (s.requestSeen e h.role))
include hpu hf ho hleak hs

/-- R7, R10: the roster change of a REQUEST frame where PC waits. -/
theorem State.requestMet
    (hw : Unconfirmed (s.requestSeen e h.role) ∨ (s.pc.inHand = none ∧ ∀ p k, ¬ Due (s.requestSeen e h.role) p k)) :
    RequestMet s (s.requestSeen e h.role) (s.enterFrame (requestFrame h code number q r)).rosterChanged := by
  obtain ⟨p, hx⟩ := State.enterFrame_heard (f := requestFrame h code number q r) hf rfl
  have hk := s.enterFrame_keeps (requestFrame h code number q r)
  generalize s.enterFrame (requestFrame h code number q r) = x at *
  have hy := State.rosterChanged_awaits (s := x) ((hk.runningPu (by decide)).trans hpu) (by rw [hx]; exact ho)
    (by rw [hx]; exact hleak) (by rw [hx]; exact hs) (by rw [hx]; exact hw)
  have hroster : x.rosterChanged.sr = (s.requestSeen e h.role).sr := hy.same.roster.trans (by rw [hx]; rfl)
  have hready : x.readyNow = (s.requestSeen e h.role).pc.ready := by rw [hx]; rfl
  exact {
    keeps := (hk.mono (by decide)).trans (hy.keeps.mono (by decide))
    roster := hroster
    answer := hy.answer.trans (by rw [hx])
    same := {
      phase := hy.same.phase.trans (by rw [hx]; rfl)
      inHand := hy.same.inHand.trans (by rw [hx]; rfl)
      gen := hy.same.gen.trans (by rw [hx]; rfl)
      ready := hy.same.ready.trans hready
      roster := hroster
      pump := hy.same.pump.trans (by rw [hx]; rfl)
      latched := hy.same.latched.trans (by rw [hx]; rfl)
      causes := fun c => (hy.same.causes c).trans (by rw [hx]; cases c <;> rfl) } }

end

/-- R54: what PU leaves unmoved by a request that it does not take. -/
theorem puUnmoved_of {T : List Part} {s t : State} (h : Frame T s t)
    (hT : decide (Part.phase ∉ T ∧ Part.generation ∉ T ∧ Part.transfer ∉ T ∧ Part.tripRecord ∉ T ∧ Part.pump ∉ T)
      = true) : PuUnmoved s t := by
  obtain ⟨h1, h2, h3, h4, h5⟩ := of_decide_eq_true hT
  obtain ⟨hphase, hinHand, -⟩ := h .phase h1
  obtain ⟨hfirst, hlatched, -⟩ := h .tripRecord h4
  exact ⟨hphase, hinHand, h .generation h2, h .transfer h3, hfirst, hlatched, (h .pump h5).1⟩

section
variable {s u y : State} {l : List Byte} {h : Header} {code q r : Nat} {number : BitVec 8} {o : Decision}

/-- R54, R56: a request that is not taken leaves PU unmoved, and its ANSWER is placed. -/
theorem RequestMet.refused (hm : RequestMet s u y) (hpu : s.runningPu = true) (ha : s.lc.answer = none)
    (hj : (y.judgeRequest (ReqKind.ofCode code) q r).1 = o) (ho : o ≠ .taken) :
    (y.takeContents (requestFrame h code number q r)).delivered.sr = u.sr
      ∧ PuUnmoved s (y.takeContents (requestFrame h code number q r)).delivered
      ∧ AnswerPlaced (y.takeContents (requestFrame h code number q r)).delivered h.sender number o := by
  have hrole : y.hasRole .pu = true := (hm.keeps.hasRole (by decide) _).trans (s.runningPu_iff.1 hpu).2
  have hans := y.holdAnswer_answered h.sender number o
  have hcontents : y.takeContents (requestFrame h code number q r) = y.holdAnswer h.sender number o := by
    rw [State.takeContents, requestFrame]
    dsimp only
    rw [if_pos hrole, State.takeRequestFrame_free (hm.answer.trans ha) hrole, hj,
      State.carryOut_refused (by rw [hj]; exact ho)]
  rw [hcontents]
  have hframe : Frame (rosterParts ++ [.roster, .receive]) s (y.holdAnswer h.sender number o).delivered :=
    (hm.keeps.frame.mono (by decide)).trans (hans.frame.mono (by decide))
  exact ⟨(hans.frame .roster (by decide) : _ = _).trans hm.roster, puUnmoved_of hframe (by decide), hans.placed⟩

end

/-! ## A request that passes -/

/-- R6: what a request taken at PU enters, before PC looks at its step again. -/
structure StepEntered (s : State) (k : ReqKind) (p : Phase) (q r : Nat) (t : State) : Prop where
  keeps : Keeps (cascadeParts ++ [.generation, .transfer]) s t
  phase : t.pc.phase = p
  gen : t.pc.gen = if k = .reset then s.pc.gen + 1 else s.pc.gen
  inHand : t.pc.inHand = some ⟨p, t.pc.gen, ⟨true, 0⟩⟩
  status : t.lc.status.isSome = true
  opens : k = .nominate → t.pc.transfer = (if s.pc.transfer = 255 then 1 else s.pc.transfer + 1)
    ∧ t.mr.record = { Record.empty with state := .opened, transfer := t.pc.transfer, nomination := q, maxRate := r }

section
variable {s : State} {k : ReqKind} {p : Phase} {q r : Nat}

/-- R15, R146: NOMINATE. -/
theorem State.nominate_entered (hpu : s.runningPu = true) (hp : s.pc.phase = .idle) :
    StepEntered s .nominate .lineup q r (s.takeRequest .nominate q r) := by
  obtain ⟨hrun, hrole⟩ := s.runningPu_iff.1 hpu
  change StepEntered s .nominate .lineup q r
    (State.stepTo { s with pc := { s.pc with transfer := nextTransfer s.pc.transfer } } .lineup q r)
  have hsu := s.putTransfer_keeps (nextTransfer s.pc.transfer)
  have hut : ({ s with pc := { s.pc with transfer := nextTransfer s.pc.transfer } } : State).pc.transfer
      = nextTransfer s.pc.transfer := rfl
  generalize ({ s with pc := { s.pc with transfer := nextTransfer s.pc.transfer } } : State) = u at *
  have hur : u.hasRole .pu = true := (hsu.hasRole (by decide) _).trans hrole
  have hup : u.pc.phase = .idle := (hsu.part .phase (by decide)).1.trans hp
  have hug : u.pc.gen = s.pc.gen := hsu.part .generation (by decide)
  obtain ⟨henter, hrecord, -, -⟩ := State.changePhase_lineup q r hup
  obtain ⟨hphase, horder, -⟩ := u.changePhase_phase .lineup q r
  have hreact : Keeps watchParts (u.changePhase .lineup q r) (u.stepTo .lineup q r) :=
    State.react_pu_inactive ((henter.hasRole (by decide) _).trans hur)
      (by rw [horder, (u.hasRole_iff .pu).1 hur, orderOf_pu]) (by rw [hphase]; rfl)
  obtain ⟨g1, g2, g3⟩ := State.stepTo_pu_hand (p := .lineup) q r ((hsu.running (by decide)).trans hrun) hur nofun
    (fun _ => nofun)
  have hk : Keeps (cascadeParts ++ [.generation, .transfer]) u (u.stepTo .lineup q r) :=
    (u.stepTo_keeps _ _ _).mono (by decide)
  have hgen : (u.stepTo .lineup q r).pc.gen = u.pc.gen := (u.stepTo_keeps _ _ _).part .generation (by decide)
  have htransfer : (u.stepTo .lineup q r).pc.transfer = u.pc.transfer :=
    (u.stepTo_keeps _ _ _).part .transfer (by decide)
  have hrecord' : (u.stepTo .lineup q r).mr.record = (u.changePhase .lineup q r).mr.record :=
    hreact.part .record (by decide)
  exact {
    keeps := (hsu.mono (by decide)).trans hk
    phase := g1
    gen := hgen.trans hug
    inHand := g2.trans (by rw [hgen])
    status := g3
    opens := fun _ => ⟨htransfer.trans hut, by rw [hrecord', hrecord, htransfer]⟩ }

theorem requestTable_of_step (hk : k ≠ .nominate) {o : Phase} (h : requestStep k o = some p) :
    (k, o, p) ∈ requestTable := by
  cases k <;> cases o <;> simp_all [requestStep, requestTable]

/-- R6, R15: the step of every row. -/
theorem State.takeRequest_entered (hpu : s.runningPu = true) (hstep : requestStep k s.pc.phase = some p)
    (hc : RequestReady s k) : StepEntered s k p q r (s.takeRequest k q r) := by
  by_cases hk : k = .nominate
  · subst hk
    have hp : s.pc.phase = .idle := by
      by_contra hne
      cases hphase : s.pc.phase <;> simp_all [requestStep]
    obtain rfl : Phase.lineup = p := by simpa [hp, requestStep] using hstep
    exact State.nominate_entered hpu hp
  · have h := State.request_takenAs hpu (requestTable_of_step hk hstep) hc
    have hnone : s.takeRequest k q r = s.takeRequest k 0 0 := by
      cases k with
      | nominate => exact absurd rfl hk
      | start | pause | resume | stop | reset | endack => rfl
    rw [hnone]
    exact ⟨h.keeps.mono (by decide), h.phase, h.gen, h.inHand, h.status, fun hn => absurd hn hk⟩

/-- R54, R55: a request whose check passes is decided TAKEN. -/
theorem State.judgeRequest_passes (hi : s.pc.inHand = none) (hstep : requestStep k s.pc.phase = some p)
    (hc : RequestReady s k) (hq : k = .nominate → nominationOk q r = true) :
    (s.judgeRequest (some k) q r).1 = .taken := by
  by_cases hk : k = .nominate
  · subst hk
    have hin : ReqKind.nominate.takenIn s.pc.phase = true := by
      simpa [hstep] using (requestStep_none_iff .nominate s.pc.phase).not
    simp [State.judgeRequest, hi, hin, hq rfl]
  · have hj := State.judgeRequest_taken hi (requestTable_of_step hk hstep) hc
    have hnone : s.judgeRequest (some k) q r = s.judgeRequest (some k) 0 0 := by
      cases k with
      | nominate => exact absurd rfl hk
      | start | pause | resume | stop | reset | endack => rfl
    rw [hnone, hj]

/-- R40, R55: PU is READY only while no protected peer is SILENT. -/
theorem State.requestSeen_ready {e : Entry} {role : Role} (hpu : s.hasRole .pu = true)
    (h : (s.requestSeen e role).pc.ready = true) : (s.requestSeen e role).someSilent = false := by
  obtain ⟨-, -, r, hr, hfacts⟩ := (State.readyNow_iff _).1 h
  obtain rfl : Role.pu = r := Option.some.inj (((s.hasRole_iff .pu).1 hpu).symm.trans hr)
  obtain ⟨-, -, hcause, -⟩ := hfacts
  exact State.someSilent_iff _ |>.2 hcause.linkloss

end

section
variable {s u y : State} {h : Header} {k : ReqKind} {p : Phase} {code q r : Nat} {number : BitVec 8} {x : Entry}

/-- R55, R72: a request of which no check fails is ready. -/
theorem SameForRequest.requestReady (hs : SameForRequest u y) (hf : ∀ o, ¬ RequestFails u k q r o)
    (hsilent : u.pc.ready = true → u.someSilent = false)
    (hfault : k = .start → ∀ n : Ch, (y.hw.chans.get n).enabled = true → (y.hw.chans.get n).fault = false) :
    RequestReady y k ∧ (k = .nominate → nominationOk q r = true) := by
  have hy (o : Decision) : ¬ RequestFails y k q r o := fun h => hf o ((hs.fails k q r o).1 h)
  refine ⟨⟨?start, ?resume, ?reset⟩, ?nominate⟩
  case start =>
    rintro rfl
    have hready : y.lineupReadySet = true ∧ y.pc.ready = true := by
      by_contra hn
      exact hy .notready ⟨hn, rfl⟩
    have hnone : y.someSilent = false := by
      rw [State.someSilent, hs.roster]
      exact hsilent (hs.ready ▸ hready.2)
    exact ⟨hready.1, hready.2, hnone, hfault rfl⟩
  case resume =>
    rintro rfl
    by_contra hn
    exact hy .notready ⟨hn, rfl⟩
  case reset =>
    rintro rfl
    have hcauses : ∀ l ∈ y.tu.latched, y.causeActive l.cause = false := by
      by_contra hn
      push Not at hn
      obtain ⟨l, hl, ha⟩ := hn
      exact hy .causeactive (.inl ⟨⟨l, hl, by simpa using ha⟩, rfl⟩)
    refine ⟨hcauses, ?_⟩
    by_contra hn
    exact hy .notready (.inr ⟨hcauses, hn, rfl⟩)
  case nominate =>
    rintro rfl
    rw [nominationOk_iff]
    by_contra hn
    exact hy .badarg ⟨hn, rfl⟩

/-- R56: the effects of a request decided TAKEN. -/
theorem State.carryOut_taken (hj : (s.judgeRequest (some k) q r).1 = .taken) :
    s.carryOut (some k) q r = (s.takeRequest k q r).puEval := by
  simp only [State.carryOut, hj]

/-- R54, R56: what a request that is taken leads to where some peer does not show the new phase yet. -/
structure RequestTaken (s u t : State) (k : ReqKind) (p : Phase) (q r dest : Nat) (number : BitVec 8) : Prop where
  roster : t.sr = u.sr
  phase : t.pc.phase = p
  gen : t.pc.gen = if k = .reset then s.pc.gen + 1 else s.pc.gen
  inHand : t.pc.inHand = some ⟨p, t.pc.gen, ⟨true, 0⟩⟩
  status : t.lc.status.isSome = true
  opens : k = .nominate → t.pc.transfer = (if s.pc.transfer = 255 then 1 else s.pc.transfer + 1)
    ∧ t.mr.record = { Record.empty with state := .opened, transfer := t.pc.transfer, nomination := q, maxRate := r }
  placed : AnswerPlaced t dest number .taken

theorem RequestMet.taken (hm : RequestMet s u y) (hpu : s.runningPu = true) (ha : s.lc.answer = none)
    (hi : s.pc.inHand = none) (hkind : ReqKind.ofCode code = some k) (hstep : requestStep k s.pc.phase = some p)
    (hc : RequestReady y k) (hq : k = .nominate → nominationOk q r = true) (hx : x ∈ u.sr.entries)
    (hg : x.protected' = true) (hpr : x.presence = .present)
    (hn : (x.shows (if k = .reset then s.pc.gen + 1 else s.pc.gen) fun st => st.phase == p) = false) :
    RequestTaken s u (y.takeContents (requestFrame h code number q r)).delivered k p q r h.sender number := by
  obtain ⟨hphase, hinHand, -⟩ := hm.keeps.part .phase (by decide)
  have hgen : y.pc.gen = s.pc.gen := hm.keeps.part .generation (by decide)
  have htransfer : y.pc.transfer = s.pc.transfer := hm.keeps.part .transfer (by decide)
  have hypu : y.runningPu = true := (hm.keeps.runningPu (by decide)).trans hpu
  have hrole := (y.runningPu_iff.1 hypu).2
  rw [← hphase] at hstep
  have hj := State.judgeRequest_passes (hinHand.trans hi) hstep hc hq
  have henter : StepEntered y k p q r (y.takeRequest k q r) := State.takeRequest_entered hypu hstep hc
  have hsr : (y.takeRequest k q r).sr = y.sr := henter.keeps.part .roster (by decide)
  have hwait := State.puEval_waits hsr henter.inHand (hm.roster ▸ hx) hg hpr
    (by rw [henter.gen, hgen]; exact hn)
  have hcontents : y.takeContents (requestFrame h code number q r)
      = (y.takeRequest k q r).holdAnswer h.sender number .taken := by
    rw [State.takeContents, requestFrame]
    dsimp only
    rw [if_pos hrole, State.takeRequestFrame_free (hm.answer.trans ha) hrole, hkind, hj, State.carryOut_taken hj, hwait]
  rw [hcontents]
  have hans := (y.takeRequest k q r).holdAnswer_answered h.sender number .taken
  generalize (y.takeRequest k q r).holdAnswer h.sender number .taken = z at *
  generalize y.takeRequest k q r = w at *
  obtain ⟨zphase, zinHand, -⟩ := hans.frame.part .phase (by decide)
  have zgen : z.delivered.pc.gen = w.pc.gen := hans.frame.part .generation (by decide)
  have ztransfer : z.delivered.pc.transfer = w.pc.transfer := hans.frame.part .transfer (by decide)
  have zrecord : z.delivered.mr.record = w.mr.record := hans.frame.part .record (by decide)
  have zsr : z.delivered.sr = w.sr := hans.frame.part .roster (by decide)
  exact {
    roster := zsr.trans (hsr.trans hm.roster)
    phase := zphase.trans henter.phase
    gen := zgen.trans (by rw [henter.gen, hgen])
    inHand := zinHand.trans (by rw [zgen]; exact henter.inHand)
    status := hans.status ▸ henter.status
    opens := fun hk => by
      rw [zrecord, ztransfer, ← htransfer]
      exact henter.opens hk
    placed := hans.placed }

end

/-! ## A REQUEST left undecided -/

/-- R168: an EVENT that comes last in a frame's taking, with no frame FULL. -/
theorem State.emit_delivered {s : State} (ev : Event) (h : s.lc.assembly.condition ≠ .full) :
    (s.emit ev).delivered
      = { s with pp := s.pp.placeEvent ev, lc := { s.lc with delivery := s.lc.check, check := none } } :=
  State.delivered_unfilled (s := s.emit ev) h

/-- R53: the ANSWER place occupied. -/
theorem State.takeContents_undecided {s : State} {h : Header} {code q r : Nat} {number : BitVec 8}
    (hpu : s.hasRole .pu = true) (ha : s.lc.answer.isSome = true) :
    s.takeContents (requestFrame h code number q r) = s.emit (.undecided h.sender code number) := by
  rw [State.takeContents, requestFrame]
  dsimp only
  rw [if_pos hpu, State.takeRequestFrame, if_pos ha]

/-- R7, R29: PU's ANSWER place at a roster change with no automatic step due. -/
theorem State.rosterChanged_noStep_answer {s : State} (hpu : s.runningPu = true) (ho : s.pc.order = none)
    (hn : NoStepDue s) (hs : ¬ SampleDue s) : s.rosterChanged.lc.answer = s.lc.answer := by
  obtain ⟨hr, hrole⟩ := s.runningPu_iff.1 hpu
  have hk := State.rosterLevels_notDue (State.orderDue_none ho)
  have hn' := ((State.rosterLevels_sameForPc hrole ho hs).noStepDue (hk.runningPu (by decide))).1 hn
  rw [State.rosterChanged_running hr, ← State.rosterLevels_answer ho]
  rcases State.puEval_noStep hn' with h | h <;> rw [h]
  rw [State.confirm_lc]

end Sys2Proof.Machine
end

section
/-! SUPPORT and the proof of O32: an ANSWER (R51), unusable contents (R69, R182), and the statement's cases put together
(R29, R32). -/

namespace Sys2Proof.Machine

variable {s : State} {l : List Byte} {f : Received} {h : Header} {e : Entry}

/-! ## The entry and the slots around a frame -/

/-- The parts that the frame has touched when its contents are taken. -/
theorem State.changed_keeps (s : State) (f : Received) :
    Keeps (cascadeParts ++ [.leak, .roster]) s ((s.enterFrame f).offerTrip f).rosterChanged :=
  (((s.enterFrame_keeps f).mono (by decide)).trans ((State.offerTrip_keeps _ _).mono (by decide))).trans
    ((State.rosterChanged_keeps _).mono (by decide))

theorem State.changed_roster (hf : s.sr.find f.header.sender = some e) (hst : f.contents.status? = none) :
    ((s.enterFrame f).offerTrip f).rosterChanged.sr = s.sr.heard e f.header.role := by
  obtain ⟨p, hx⟩ := State.enterFrame_heard hf hst
  have htrip : ((s.enterFrame f).offerTrip f).sr = (s.enterFrame f).sr :=
    (State.offerTrip_keeps _ _).part .roster (by decide)
  have hchange : ((s.enterFrame f).offerTrip f).rosterChanged.sr = ((s.enterFrame f).offerTrip f).sr :=
    (State.rosterChanged_keeps _).part .roster (by decide)
  rw [hchange, htrip, hx]

/-! ## An ANSWER -/

/-- An ANSWER as `readFrame` gives it. -/
def answerFrame (h : Header) (dest : Nat) (number : BitVec 8) (o : Decision) : Received :=
  ⟨.answer, h, .answer dest number o⟩

section
variable {dest : Nat} {number : BitVec 8} {o : Decision}

/-- R51: an ANSWER to another station. -/
theorem State.takeContents_otherAnswer (hd : dest ≠ s.number) : s.takeContents (answerFrame h dest number o) = s :=
  if_neg hd

theorem State.takeContents_ownAnswer (hd : dest = s.number) :
    s.takeContents (answerFrame h dest number o) = s.takeAnswerFrame number o := if_pos hd

/-- R51: an ANSWER whose number is not the outstanding one. -/
theorem State.takeAnswerFrame_stray (hw : ∀ w, s.rh.outstanding = some w → w.number ≠ number) :
    s.takeAnswerFrame number o = s.emit (.strayAnswer number o) := by
  unfold State.takeAnswerFrame
  split
  · rename_i w hout
    exact if_neg (hw w hout)
  · rfl

/-- R51: the ANSWER to the outstanding request. -/
theorem State.takeAnswerFrame_own {w : Outstanding} (hout : s.rh.outstanding = some w) (hn : w.number = number) :
    s.takeAnswerFrame number o
      = ({ s with rh := { s.rh with outstanding := none } } : State).report
          (.answer (some (.request w.kind)) (some number) (.decided o) .none) := by
  simp only [State.takeAnswerFrame, hout, hn, if_true]

end

/-- R51: an ANSWER taken, its contents last. -/
structure AnswerMet (s y : State) (f : Received) : Prop where
  frame : Keeps (cascadeParts ++ [.leak, .roster]) s y
  queue : s.pp.queue.length ≤ 8 → y.pp.queue.length ≤ 8
  heard : ∀ e, s.sr.find f.header.sender = some e → y.sr = s.sr.heard e f.header.role

theorem State.answerMet (s : State) {dest : Nat} {number : BitVec 8} {o : Decision}
    (hf : f = answerFrame h dest number o) : AnswerMet s (s.enterFrame f).rosterChanged f := by
  subst hf
  have hnone : (s.enterFrame (answerFrame h dest number o)).offerTrip (answerFrame h dest number o)
      = s.enterFrame (answerFrame h dest number o) := State.offerTrip_notTrip rfl
  have hk := s.changed_keeps (answerFrame h dest number o)
  have hsr (e : Entry) (hf : s.sr.find h.sender = some e) :=
    State.changed_roster (s := s) (f := answerFrame h dest number o) hf rfl
  rw [hnone] at hk hsr
  exact ⟨hk, ((s.enterFrame_onward _).trans (State.rosterChanged_onward _)).queue, hsr⟩

section
variable {y : State} {dest : Nat} {number : BitVec 8} {o : Decision}

/-- R51, R202: the report of the outstanding request's ANSWER has its place. -/
theorem AnswerMet.ends (hm : AnswerMet s y f) {w : Outstanding} (hout : s.rh.outstanding = some w)
    (hn : w.number = number) (hq : s.pp.queue.length ≤ 8) (howed : s.pp.owed + 1 ≤ 8)
    (hc : s.lc.assembly.condition ≠ .full) :
    (y.takeAnswerFrame number o).delivered.rh = ⟨s.rh.nextNumber, none⟩
      ∧ NewestReport (y.takeAnswerFrame number o).delivered
          (.answer (some (.request w.kind)) (some number) (.decided o) .none) := by
  have hrh : y.rh = s.rh := hm.frame.part .requests (by decide)
  obtain ⟨-, -, hasm, -, -⟩ := hm.frame.part .receive (by decide)
  obtain ⟨m, hqueue, hevents⟩ := hm.frame.events
  have hroom : y.pp.owed + 1 ≤ 8 := by
    have := PanelPort.owed_events hqueue hevents
    omega
  obtain ⟨hnewest, -⟩ := PanelPort.placeReply_placed y.pp
    (.answer (some (.request w.kind)) (some number) (.decided o) .none) (fun _ => nofun) hroom (hm.queue hq)
  rw [State.takeAnswerFrame_own (by rw [hrh]; exact hout) hn, State.delivered_unfilled (by rw [← hasm] at hc; exact hc)]
  exact ⟨by rw [← hrh]; rfl, hnewest⟩

/-- R51: an ANSWER to this station with another number. -/
theorem AnswerMet.stray (hm : AnswerMet s y f) (hw : ∀ w, s.rh.outstanding = some w → w.number ≠ number)
    (hc : s.lc.assembly.condition ≠ .full) :
    (y.takeAnswerFrame number o).delivered.rh = s.rh
      ∧ (y.takeAnswerFrame number o).delivered.pp = y.pp.placeEvent (.strayAnswer number o)
      ∧ y.pp.mask = s.pp.mask := by
  have hrh : y.rh = s.rh := hm.frame.part .requests (by decide)
  obtain ⟨-, -, hasm, -, -⟩ := hm.frame.part .receive (by decide)
  rw [State.takeAnswerFrame_stray (by rw [hrh]; exact hw), State.emit_delivered _ (by rw [hasm]; exact hc)]
  exact ⟨hrh, rfl, hm.frame.part .reportMask (by decide)⟩

/-- R51: no ANSWER touches the table after its entry is heard. -/
theorem State.takeAnswer_roster (s : State) : (s.takeContents (answerFrame h dest number o)).sr = s.sr := by
  by_cases hd : dest = s.number
  · rw [State.takeContents_ownAnswer hd, State.takeAnswerFrame]
    split
    · split <;> rfl
    · rfl
  · rw [State.takeContents_otherAnswer hd]

end

/-! ## Unusable contents -/

/-- R5, R29: a roster change at a TRIPPED station. -/
theorem State.rosterChanged_tripped {u : State} (hr : u.running = true) (hp : u.pc.phase = .tripped) :
    Stays calmParts u u.rosterChanged := by
  obtain ⟨horder, -⟩ := State.runOrder_calm (.inl hp)
  have hrest := u.runOrder.rosterRest_keeps
  have hphase : u.runOrder.rosterRest.pc.phase = .tripped :=
    (hrest.part .phase (by decide)).1.trans (horder.phase.trans hp)
  obtain ⟨hkeeps, hstays, -⟩ := State.puEval_noStep_keeps
    (s := u.runOrder.rosterRest) (.inr (.inl (.inr (.inr (.inr (.inr hphase))))))
  rw [State.rosterChanged_running hr, State.rosterLevels_rest]
  exact Stays.trans ⟨horder.keeps.mono (by decide), horder.phase⟩
    (Stays.trans (.of_keeps hrest (by decide)) ⟨hkeeps.mono (by decide), hstays⟩)

/-- Unusable contents as `readFrame` gives them. -/
def unusableFrame (k : FrameKind) (h : Header) (tripped : Bool) (c : Option Cause) (o : Nat) : Received :=
  ⟨k, h, .unusable tripped c o⟩

section
variable {k : FrameKind} {tripped : Bool} {c : Option Cause} {o : Nat}

/-- R69, R182: unusable contents with no TRIPPED status of this generation are no remote trip. -/
theorem State.offerTrip_unusable (ht : tripped = false ∨ h.gen ≠ s.pc.gen) :
    s.offerTrip (unusableFrame k h tripped c o) = s := by
  cases tripped with
  | false => rfl
  | true => exact if_neg (ht.resolve_left Bool.noConfusion)

theorem State.offerTrip_unusableTripped (hg : h.gen = s.pc.gen) :
    s.offerTrip (unusableFrame k h true c o) = s.honour h.sender c o := if_pos hg

/-- R182: at a follower such contents trip nothing. -/
theorem State.unusable_calm (hr : s.running = true) (hpu : s.hasRole .pu = false) (ho : s.pc.order = none)
    (ht : tripped = false ∨ h.gen ≠ s.pc.gen) :
    Stays (calmParts ++ [.roster]) s
      ((s.enterFrame (unusableFrame k h tripped c o)).offerTrip (unusableFrame k h tripped c o)).rosterChanged := by
  have hk := s.enterFrame_keeps (unusableFrame k h tripped c o)
  have horder : (s.enterFrame (unusableFrame k h tripped c o)).pc.order = none := ho
  have hcalm := State.rosterChanged_calm ((hk.running (by decide)).trans hr) ((hk.hasRole (by decide) .pu).trans hpu)
    (by simp [horder])
  rw [State.offerTrip_unusable (s := s.enterFrame _) ht]
  exact Stays.trans (.of_keeps hk (by decide)) ⟨hcalm.keeps.mono (by decide), hcalm.phase⟩

/-- R69, R182: a TRIPPED status among them is a remote trip. -/
theorem State.unusable_trips (hr : s.running = true) (hg : h.gen = s.pc.gen) :
    ((s.enterFrame (unusableFrame k h true c o)).offerTrip (unusableFrame k h true c o)).rosterChanged.pc.phase
        = .tripped
      ∧ ((s.enterFrame (unusableFrame k h true c o)).offerTrip (unusableFrame k h true c o)).rosterChanged.tu.firstOut
          = some (s.tu.firstOut.getD ⟨c, .remoteOrigin, if c = none ∨ o = 0 then h.sender else o, none⟩) := by
  have hk := s.enterFrame_keeps (unusableFrame k h true c o)
  have hfirst : (s.enterFrame (unusableFrame k h true c o)).tu.firstOut = s.tu.firstOut :=
    (hk.part .tripRecord (by decide)).1
  rw [State.offerTrip_unusableTripped (s := s.enterFrame _) hg, ← hfirst]
  generalize s.enterFrame (unusableFrame k h true c o) = x at *
  have hphase := x.honour_phase h.sender c o
  have hstays := State.rosterChanged_tripped (((x.honour_keeps _ _ _).running (by decide)).trans
    ((hk.running (by decide)).trans hr)) hphase
  obtain ⟨hkept, -⟩ := hstays.keeps.part .tripRecord (by decide)
  exact ⟨hstays.phase.trans hphase, hkept.trans (x.honour_firstOut _ _ _)⟩

end

/-! ## The parts of O32 -/

section
variable {code q r : Nat} {number : BitVec 8}

theorem State.execRosterTakeFrame_request (hr : s.running = true) (hd : s.lc.delivery = some l)
    (hread : readFrame l = some (requestFrame h code number q r)) (hc : s.isClash h = false) :
    exec .rosterTakeFrame s
      = .next ((s.enterFrame (requestFrame h code number q r)).rosterChanged.takeContents
          (requestFrame h code number q r)).delivered :=
  State.execRosterTakeFrame_other hr hd hread hc rfl rfl

/-- R53: a REQUEST that finds the ANSWER place occupied. -/
theorem request_undecided (hpu : s.runningPu = true) (hd : s.lc.delivery = some l)
    (hread : readFrame l = some (requestFrame h code number q r)) (hc : s.isClash h = false)
    (hf : s.sr.find h.sender = some e) (ho : s.pc.order = none) (hs : ¬ SampleDue (s.requestSeen e h.role))
    (ha : s.lc.answer.isSome = true) (hn : NoStepDue (s.requestSeen e h.role))
    (hfull : s.lc.assembly.condition ≠ .full) :
    ∃ (t : State) (p : PanelPort), exec .rosterTakeFrame s = .next t ∧ t.sr = (s.requestSeen e h.role).sr
      ∧ t.lc.answer = s.lc.answer ∧ t.pc.phase = s.pc.phase ∧ t.tu.firstOut = s.tu.firstOut
      ∧ t.tu.latched = s.tu.latched ∧ t.pp = p.placeEvent (.undecided h.sender code number) ∧ p.mask = s.pp.mask := by
  obtain ⟨hr, hrole⟩ := s.runningPu_iff.1 hpu
  obtain ⟨p, hx⟩ := State.enterFrame_heard (f := requestFrame h code number q r) hf rfl
  have hk := s.enterFrame_keeps (requestFrame h code number q r)
  rw [State.execRosterTakeFrame_request hr hd hread hc]
  generalize s.enterFrame (requestFrame h code number q r) = x at *
  have hxpu := (hk.runningPu (by decide)).trans hpu
  have hxo : x.pc.order = none := by rw [hx]; exact ho
  have hxn : NoStepDue x := by rw [hx]; exact hn
  have hxs : ¬ SampleDue x := by rw [hx]; exact hs
  have hstays := State.rosterChanged_noStep hxpu hxo hxn hxs
  have hanswer : x.rosterChanged.lc.answer = s.lc.answer :=
    (State.rosterChanged_noStep_answer hxpu hxo hxn hxs).trans (by rw [hx])
  have hall : Keeps (calmParts ++ [.roster]) s x.rosterChanged :=
    (hk.mono (by decide)).trans (hstays.keeps.mono (by decide))
  have hxsr : x.rosterChanged.sr = x.sr := hstays.keeps.part .roster (by decide)
  obtain ⟨hfirst, hlatched, -⟩ := hall.part .tripRecord (by decide)
  obtain ⟨-, -, hasm, -, -⟩ := hall.part .receive (by decide)
  rw [State.takeContents_undecided ((hall.hasRole (by decide) .pu).trans hrole) (by rw [hanswer]; exact ha),
    State.emit_delivered _ (by rw [hasm]; exact hfull)]
  exact ⟨_, x.rosterChanged.pp, rfl, hxsr.trans (by rw [hx]; rfl), hanswer, hstays.phase.trans (by rw [hx]), hfirst,
    hlatched, rfl, hall.part .reportMask (by decide)⟩

/-- R34: a follower disregards a REQUEST. -/
theorem request_follower (hr : s.running = true) (hpu : s.hasRole .pu = false) (hd : s.lc.delivery = some l)
    (hread : readFrame l = some (requestFrame h code number q r)) (hc : s.isClash h = false)
    (hf : s.sr.find h.sender = some e) (ho : s.pc.order = none) :
    ∃ t, exec .rosterTakeFrame s = .next t ∧ t.sr = s.sr.heard e h.role ∧ t.lc.answer = s.lc.answer
      ∧ t.pc.phase = s.pc.phase
      ∧ Frame (watchParts ++ [.leak, .channels, .pressure, .tanks, .record, .roster, .receive]) s t := by
  obtain ⟨p, hx⟩ := State.enterFrame_heard (f := requestFrame h code number q r) hf rfl
  have hk := s.enterFrame_keeps (requestFrame h code number q r)
  rw [State.execRosterTakeFrame_request hr hd hread hc]
  generalize s.enterFrame (requestFrame h code number q r) = x at *
  have hchange : x.rosterChanged = x.rosterRest := by
    rw [State.rosterChanged_follower ((hk.running (by decide)).trans hr) ((hk.hasRole (by decide) .pu).trans hpu),
      State.runOrder_notDue (State.orderDue_none (by rw [hx]; exact ho))]
  have hrest := x.rosterRest_keeps
  have hfollower : x.rosterRest.hasRole .pu = false :=
    (hrest.hasRole (by decide) .pu).trans ((hk.hasRole (by decide) .pu).trans hpu)
  have hcontents : x.rosterRest.takeContents (requestFrame h code number q r) = x.rosterRest :=
    if_neg (by simp [hfollower])
  rw [hchange, hcontents]
  have hframe : Frame (watchParts ++ [.leak, .channels, .pressure, .tanks, .record, .roster, .receive]) s
      x.rosterRest.delivered :=
    (hk.frame.mono (by decide)).trans ((hrest.frame.mono (by decide)).trans
      ((State.delivered_keeps _).frame.mono (by decide)))
  have hsr : x.rosterRest.delivered.sr = x.sr :=
    ((State.delivered_keeps _).part .roster (by decide) : _ = _).trans (hrest.part .roster (by decide))
  exact ⟨_, rfl, hsr.trans (by rw [hx]; rfl), by rw [State.delivered_answer, State.rosterRest_answer, hx],
    (hframe .phase (by decide)).1, hframe⟩

end

/-- R51: the cases of an ANSWER. -/
theorem answer_taken {dest : Nat} {number : BitVec 8} {o : Decision} (hr : s.running = true)
    (hd : s.lc.delivery = some l) (hread : readFrame l = some (answerFrame h dest number o))
    (hc : s.isClash h = false) :
    (∀ w, dest = s.number → s.rh.outstanding = some w → w.number = number → s.pp.queue.length ≤ 8 →
        s.pp.owed + 1 ≤ 8 → s.lc.assembly.condition ≠ .full →
        ∃ t, exec .rosterTakeFrame s = .next t ∧ t.rh = ⟨s.rh.nextNumber, none⟩
          ∧ NewestReport t (.answer (some (.request w.kind)) (some number) (.decided o) .none))
      ∧ (dest = s.number → (∀ w, s.rh.outstanding = some w → w.number ≠ number) → s.lc.assembly.condition ≠ .full →
        ∃ (t : State) (p : PanelPort), exec .rosterTakeFrame s = .next t ∧ t.rh = s.rh
          ∧ t.pp = p.placeEvent (.strayAnswer number o) ∧ p.mask = s.pp.mask)
      ∧ (dest ≠ s.number → ∃ t, exec .rosterTakeFrame s = .next t ∧ t.rh = s.rh)
      ∧ (∀ e, s.sr.find h.sender = some e →
          ∃ t, exec .rosterTakeFrame s = .next t ∧ t.sr = s.sr.heard e h.role) := by
  have hexec := State.execRosterTakeFrame_other hr hd hread hc rfl rfl
  have hm := s.answerMet (h := h) (dest := dest) (number := number) (o := o) rfl
  generalize (s.enterFrame (answerFrame h dest number o)).rosterChanged = y at *
  have hnumber : y.number = s.number := congrArg (fun l => l.sn.toNat) (hm.frame.part .setup (by decide))
  refine ⟨fun w hdest hout hn hq howed hfull => ?own, fun hdest hw hfull => ?stray, fun hdest => ?other,
    fun e he => ?heard⟩
  case own =>
    rw [State.takeContents_ownAnswer (hdest.trans hnumber.symm)] at hexec
    exact ⟨_, hexec, hm.ends hout hn hq howed hfull⟩
  case stray =>
    rw [State.takeContents_ownAnswer (hdest.trans hnumber.symm)] at hexec
    obtain ⟨hrh, hpp, hmask⟩ := hm.stray (o := o) hw hfull
    exact ⟨_, y.pp, hexec, hrh, hpp, hmask⟩
  case other =>
    rw [State.takeContents_otherAnswer (by rw [hnumber]; exact hdest)] at hexec
    exact ⟨_, hexec, (y.delivered_keeps.part .requests (by decide) : _ = _).trans (hm.frame.part .requests (by decide))⟩
  case heard =>
    exact ⟨_, hexec, ((State.delivered_keeps _).part .roster (by decide) : _ = _).trans
      (y.takeAnswer_roster.trans (hm.heard e he))⟩

/-- R32, R69, R182: unusable contents. -/
theorem unusable_taken {k : FrameKind} {tripped : Bool} {c : Option Cause} {o : Nat} (hr : s.running = true)
    (hd : s.lc.delivery = some l) (hread : readFrame l = some (unusableFrame k h tripped c o))
    (hc : s.isClash h = false) (hf : s.sr.find h.sender = some e) (ho : s.pc.order = none)
    (hfull : s.lc.assembly.condition ≠ .full) :
    ∃ (t : State) (p : PanelPort), exec .rosterTakeFrame s = .next t ∧ t.sr = s.sr.heard e h.role
      ∧ t.pp = p.placeEvent (.field h.sender k) ∧ p.mask = s.pp.mask
      ∧ ((tripped = false ∨ h.gen ≠ s.pc.gen) → s.hasRole .pu = false →
          t.pc.phase = s.pc.phase ∧ t.tu.firstOut = s.tu.firstOut ∧ t.tu.latched = s.tu.latched)
      ∧ (tripped = true → h.gen = s.pc.gen →
          t.pc.phase = .tripped ∧ t.tu.firstOut = some (s.tu.firstOut.getD
            ⟨c, .remoteOrigin, if c = none ∨ o = 0 then h.sender else o, none⟩)) := by
  have hk := s.changed_keeps (unusableFrame k h tripped c o)
  have hsr := State.changed_roster (f := unusableFrame k h tripped c o) hf rfl
  have hcalm (ht : tripped = false ∨ h.gen ≠ s.pc.gen) (hpu : s.hasRole .pu = false) :=
    State.unusable_calm (k := k) (c := c) (o := o) hr hpu ho ht
  have htrips (ht : tripped = true) (hg : h.gen = s.pc.gen) :=
    ht ▸ State.unusable_trips (k := k) (c := c) (o := o) hr hg
  rw [State.execRosterTakeFrame_frame (State.running_listening hr) hd, State.takeFrame_running hr hread,
    State.takeRunning_other hc rfl]
  generalize ((s.enterFrame (unusableFrame k h tripped c o)).offerTrip
    (unusableFrame k h tripped c o)).rosterChanged = y at *
  obtain ⟨-, -, hasm, -, -⟩ := hk.part .receive (by decide)
  have hcontents : y.takeContents (unusableFrame k h tripped c o) = y.emit (.field h.sender k) := rfl
  rw [hcontents, State.emit_delivered _ (by rw [hasm]; exact hfull)]
  refine ⟨_, y.pp, rfl, hsr, rfl, hk.part .reportMask (by decide), fun ht hpu => ?_, htrips⟩
  obtain ⟨hfirst, hlatched, -⟩ := (hcalm ht hpu).keeps.part .tripRecord (by decide)
  exact ⟨(hcalm ht hpu).phase, hfirst, hlatched⟩

end Sys2Proof.Machine

open Sys2Proof Sys2Proof.Machine

/-- Settles O32: PU's decision rests on what the roster change leaves of the facts it reads; the other frames by the
taking of their contents. -/
theorem requestFrames : Obligations.RequestFrames := by
  refine ⟨?request, ?follower, ?answer, ?unusable⟩
  case request =>
    rintro s v u l h code kind number q r e hpu hd hread rfl hc hf ho hleak rfl hu hs
    obtain rfl : u = s.requestSeen e h.role := hu
    obtain ⟨hr, hrole⟩ := s.runningPu_iff.1 hpu
    have hexec := State.execRosterTakeFrame_request hr hd hread hc
    have hmet := State.requestMet (code := code) (q := q) (r := r) (number := number) hpu hf ho hleak hs
    refine ⟨fun ha hn hfull => request_undecided hpu hd hread hc hf ho hs ha hn hfull, fun ha hw => ?busy,
      fun o ha hi hdue ht => ?turnedAway, fun k p x ha hi hdue hkind hstep hfails hfault hx hg hpr hn => ?taken⟩
    case busy =>
      have hm := hmet (.inl hw)
      obtain ⟨step, -, hstep, -⟩ := hw
      have hj := State.judgeRequest_busy (ReqKind.ofCode code) q r
        (Option.isSome_iff_exists.2 ⟨step, hm.same.inHand.trans hstep⟩)
      exact ⟨_, hexec, hm.refused hpu ha hj (by decide)⟩
    case turnedAway =>
      have hm := hmet (.inr ⟨hi, hdue⟩)
      obtain ⟨hj, hno⟩ := State.judgeRequest_turnedAway (hm.same.inHand.trans hi) ((hm.same.turnedAway _ q r o).2 ht)
      exact ⟨_, hexec, hm.refused hpu ha hj hno⟩
    case taken =>
      have hm := hmet (.inr ⟨hi, hdue⟩)
      have hchans : _ = s.hw.chans := hm.keeps.part .readings (by decide)
      obtain ⟨hready, hq⟩ := hm.same.requestReady hfails (State.requestSeen_ready hrole)
        (by rw [hchans]; exact hfault)
      have ht := hm.taken (h := h) (number := number) hpu ha hi hkind hstep hready hq hx hg hpr hn
      exact ⟨_, hexec, ht.roster, ht.phase, ht.gen, ht.inHand, ht.status, ht.opens, ht.placed⟩
  case follower =>
    intro s l h code number q r e hr hpu hd hread hc hf ho
    exact request_follower hr hpu hd hread hc hf ho
  case answer =>
    intro s l h dest number o hr hd hread hc
    exact answer_taken hr hd hread hc
  case unusable =>
    intro s l k h tripped c o e hr hd hread hc hf ho hfull
    exact unusable_taken hr hd hread hc hf ho hfull
end

section
/-! SUPPORT and the proof of O27: the request commands where no decision is made (R48, R49), and the end of the answer
timer (R50, R167). -/

namespace Sys2Proof.Machine

variable {s : State} {k : ReqKind} {q r : Nat}

/-! ## A request command of the panel -/

/-- R47: the number that a request of a kind carries where the command gives `n`: NOMINATE alone carries one. -/
def ReqKind.carried (k : ReqKind) (n : Nat) : Nat := if k = .nominate then n else 0

/-- R49, R198, R202: a request command with room for its report is handed to the Request Handler. -/
theorem exec_request (hl : s.lineFits = true) (hq : q ≤ 4294967295) (hr : r ≤ 4294967295) :
    exec (k.command q r) s = .next (s.requestLine k (k.carried q) (k.carried r)) := by
  have hline (f : State → State) : s.handleLine f = f s := if_pos hl
  cases k with
  | nominate =>
    have hnumbers : s.lineNominate q r = s.requestLine .nominate q r := if_pos (by simp [panelNumberOk, hq, hr])
    exact congrArg Host.Outcome.next ((hline _).trans hnumbers)
  | start | pause | resume | stop | reset | endack => exact congrArg Host.Outcome.next (hline _)

/-- R202: a request command that is answered at once changes nothing but the report queue. -/
theorem exec_request_answered {o : PanelOutcome} {name : AnswerName} (hl : s.lineFits = true)
    (hq8 : s.pp.queue.length ≤ 8) (hq : q ≤ 4294967295) (hr : r ≤ 4294967295)
    (h : s.requestLine k (k.carried q) (k.carried r) = s.answer (.request k) o name) :
    ∃ t, exec (k.command q r) s = .next t ∧ NewestReport t (.answer (some (.request k)) none o name)
      ∧ Frame [.reports] s t :=
  ⟨_, (exec_request hl hq hr).trans (congrArg Host.Outcome.next h), State.report_read _ nofun hl hq8⟩

theorem State.requestLine_notRunning (h : s.running = false) :
    s.requestLine k q r = s.answer (.request k) .refused .none := by simp [State.requestLine, h]

theorem State.requestLine_follower (hrun : s.running = true) (hrole : s.hasRole .pu = false) :
    s.requestLine k q r = s.requestOut k q r := by simp [State.requestLine, hrun, hrole]

theorem State.requestOut_pending (h : s.rh.outstanding.isSome = true) :
    s.requestOut k q r = s.answer (.request k) .pending .none := if_pos h

theorem State.requestOut_nothere (h : s.rh.outstanding = none) (hlive : s.puLive = false) :
    s.requestOut k q r = s.answer (.request k) .nothere .none := by simp [State.requestOut, h, hlive]

theorem State.requestOut_made (h : s.rh.outstanding = none) (hlive : s.puLive = true) :
    s.requestOut k q r = s.makeRequest k q r := by simp [State.requestOut, h, hlive]

/-! ## The request made -/

/-- R49, R162: at a station with a role the request is outstanding under the next number, and its REQUEST is held whole
in its place. -/
theorem State.makeRequest_eq {role : Role} (h : s.role = some role) :
    s.makeRequest k q r
      = { s with
          rh := ⟨s.rh.nextNumber + 1, some ⟨k, s.rh.nextNumber, q, r, .fromZero⟩⟩
          lc := s.lc.hold .request
            (.request ⟨s.number, role, s.mr.record.transfer, s.pc.gen⟩ k s.rh.nextNumber q r) } := by
  simp only [State.makeRequest, State.header_role h]

/-- R162: placing a frame whole touches the transmit queue and the attempt under way alone. -/
theorem State.hold_frame (s : State) (k : FrameKind) (f : HeldFrame) :
    Frame [.frames] s { s with lc := s.lc.hold k f } := by
  intro p hp
  cases p <;> first | exact absurd (by decide) hp | simp [Part.same, LinkController.hold, LinkController.withdraw]

/-- R49, R50: a change of the requester state beside a change of the transmit queue. -/
theorem State.putRequests_frame (h : RequestHandler) {l : LinkController} (hl : Frame [.frames] s { s with lc := l }) :
    Frame [.requests, .frames] s { s with rh := h, lc := l } := by
  intro p hp
  have hsame := hl p fun hf => hp (List.mem_cons_of_mem _ hf)
  cases p <;> first | exact absurd (by decide) hp | exact hsame

theorem State.makeRequest_frame {role : Role} (h : s.role = some role) :
    Frame [.requests, .frames] s (s.makeRequest k q r) := by
  rw [State.makeRequest_eq h]
  exact State.putRequests_frame _ (s.hold_frame _ _)

/-! ## The answer timer -/

/-- R202: in a queue with room, any report handed over is the newest. -/
theorem State.report_room (x : Report) (h : s.pp.queue.length < 8) : NewestReport (s.report x) x :=
  ⟨s.pp.queue, _, congrArg PanelPort.queue ((s.pp.placeReply_replyPlaced x).room h)⟩

/-- R167: an attempt of the frame withdrawn goes on, detached from its place. -/
theorem LinkController.withdraw_detaches {l : LinkController} {k : FrameKind} {a : Attempt} (h : l.attempt = some a)
    (hk : a.kind = k) : (l.withdraw k).attempt = some { a with detached := true } := by
  obtain ⟨kind, detached, awaited⟩ := a
  obtain rfl : kind = k := hk
  cases detached <;> simp [LinkController.withdraw, LinkController.underWay, h]

/-- R167: an attempt of another kind is left as it is. -/
theorem LinkController.withdraw_attempt_other {l : LinkController} {k : FrameKind} {a : Attempt}
    (h : l.attempt = some a) (hk : a.kind ≠ k) : (l.withdraw k).attempt = some a := by
  simp [LinkController.withdraw, LinkController.underWay, h, hk]

/-- R50: the state in which the end of a request is reported: its REQUEST withdrawn, and none outstanding. -/
def State.requestEnded (s : State) : State :=
  { s with lc := s.lc.withdraw .request, rh := { s.rh with outstanding := none } }

theorem State.requestEnded_frame (s : State) : Frame [.requests, .frames] s s.requestEnded :=
  State.putRequests_frame _ (s.withdraw_keeps .request).frame

theorem execAnswerTimerExpiry_ends {o : Outstanding} (h : s.rh.outstanding = some o) :
    exec .answerTimerExpiry s
      = .next (s.requestEnded.report (.answer (some (.request o.kind)) (some o.number) .noanswer .none)) := by
  change execAnswerTimerExpiry s = _
  simp [execAnswerTimerExpiry, State.endNoAnswer, h, State.requestEnded]

end Sys2Proof.Machine

open Sys2Proof Sys2Proof.Machine

/-- Settles O27: each command is one branch of the Request Handler, an ANSWER alone or the request made; the expiry
withdraws the REQUEST and reports. -/
theorem requestsAtFollower : Obligations.RequestsAtFollower := by
  refine ⟨?command, ?expiry⟩
  case command =>
    intro s k q r hl hq8 hq hr
    refine ⟨fun hrun => ?refused, fun hrun hrole ho => ?pending, fun hrun hrole ho hlive => ?nothere,
      fun role hrun hrole hne ho hlive => ?made⟩
    case refused => exact exec_request_answered hl hq8 hq hr (State.requestLine_notRunning hrun)
    case pending =>
      exact exec_request_answered hl hq8 hq hr
        ((State.requestLine_follower hrun hrole).trans (State.requestOut_pending ho))
    case nothere =>
      exact exec_request_answered hl hq8 hq hr
        ((State.requestLine_follower hrun hrole).trans (State.requestOut_nothere ho hlive))
    case made =>
      have hnot : s.hasRole .pu = false := State.hasRole_unique ((s.hasRole_iff role).2 hrole) hne
      have hexec := exec_request (k := k) hl hq hr
      rw [State.requestLine_follower hrun hnot, State.requestOut_made ho hlive] at hexec
      have hframe := State.makeRequest_frame (k := k) (q := k.carried q) (r := k.carried r) hrole
      rw [State.makeRequest_eq hrole] at hexec hframe
      exact ⟨_, hexec, rfl, by cases k <;> rfl, rfl, rfl, rfl, rfl, hframe⟩
  case expiry =>
    intro s o ho hq
    exact ⟨_, execAnswerTimerExpiry_ends ho, rfl, rfl, rfl, fun _ => LinkController.withdraw_detaches,
      fun _ => LinkController.withdraw_attempt_other, rfl, rfl, rfl, State.report_room _ hq,
      (s.requestEnded_frame.mono (by decide)).trans ((State.report_frame _ _).mono (by decide))⟩
end

section
/-! SUPPORT and the proof of O30: the requests that PU turns away (R54, R55, R57, R72), and the entry of the line-up
list that is named. -/

namespace Sys2Proof.Machine

variable {s : State} {k : ReqKind} {q r : Nat}

/-! ## The answer at PU -/

/-- R57: a request command that PU does not take is answered with the decision, and has no other effect. -/
theorem State.requestLine_turnedAway {d : Decision} {name : AnswerName} (hpu : s.runningPu = true)
    (hj : s.judgeRequest (some k) q r = (d, name)) (hd : d ≠ .taken) :
    s.requestLine k q r = s.answer (.request k) (.decided d) name := by
  obtain ⟨hrun, hrole⟩ := s.runningPu_iff.1 hpu
  have hnoEffect : s.carryOut (some k) q r = s := State.carryOut_refused (by rw [hj]; exact hd)
  simp [State.requestLine, hrun, hrole, State.requestHere, hnoEffect, hj]

/-- R54, R57: PU judges the numbers that the kind carries, and the panel gets the decision. -/
theorem exec_request_turnedAway {d : Decision} {name : AnswerName} (hl : s.lineFits = true)
    (hq8 : s.pp.queue.length ≤ 8) (hq : q ≤ 4294967295) (hr : r ≤ 4294967295) (hpu : s.runningPu = true)
    (hj : s.judgeRequest (some k) (k.carried q) (k.carried r) = (d, name)) (hd : d ≠ .taken) :
    ∃ t, exec (k.command q r) s = .next t ∧ NewestReport t (.answer (some (.request k)) none (.decided d) name)
      ∧ Frame [.reports] s t :=
  exec_request_answered hl hq8 hq hr (State.requestLine_turnedAway hpu hj hd)

/-! ## The checks in order (R54) -/

/-- R47: a phase at PU in which a kind cannot be taken. -/
def ReqKind.RefusedIn (k : ReqKind) (p : Phase) : Prop :=
  match k with
  | .nominate => p ≠ .idle
  | .start => p ≠ .lineup
  | .pause => p ≠ .pumping ∧ p ≠ .topping
  | .resume => p ≠ .paused
  | .stop => p = .idle ∨ p = .stopping ∨ p = .closing ∨ p = .ended ∨ p = .tripped
  | .reset => p ≠ .tripped
  | .endack => p ≠ .ended

/-- R47: the table of the kinds against the phases, entry by entry. -/
theorem ReqKind.refusedIn_iff (k : ReqKind) (p : Phase) : k.RefusedIn p ↔ k.takenIn p = false := by
  cases k <;> cases p <;> simp [ReqKind.RefusedIn, ReqKind.takenIn]

theorem State.judgeRequest_inHand (h : s.pc.inHand.isSome = true) : s.judgeRequest (some k) q r = (.busy, .none) :=
  if_pos h

theorem State.judgeRequest_wrongPhase (hi : s.pc.inHand = none) (hk : k.RefusedIn s.pc.phase) :
    s.judgeRequest (some k) q r = (.wrongphase, .none) := by
  simp [State.judgeRequest, hi, (k.refusedIn_iff _).1 hk]

theorem State.judgeRequest_badArg (hi : s.pc.inHand = none) (hp : s.pc.phase = .idle)
    (hn : ¬ (1 ≤ q ∧ q ≤ 9999999 ∧ 1000 ≤ r ∧ r ≤ 3000000)) :
    s.judgeRequest (some .nominate) q r = (.badarg, .none) := by
  rw [← nominationOk_iff] at hn
  simp [State.judgeRequest, hi, hp, ReqKind.takenIn, hn]

theorem State.judgeRequest_resume (hi : s.pc.inHand = none) (hp : s.pc.phase = .paused) (hn : s.vp.pump ≠ .stopped) :
    s.judgeRequest (some .resume) q r = (.notready, .none) := by
  simp [State.judgeRequest, hi, hp, ReqKind.takenIn, hn]

theorem State.judgeRequest_start (hi : s.pc.inHand = none) (hp : s.pc.phase = .lineup) :
    s.judgeRequest (some .start) q r = s.startCheck := by
  simp [State.judgeRequest, hi, hp, ReqKind.takenIn]

theorem State.judgeRequest_reset (hi : s.pc.inHand = none) (hp : s.pc.phase = .tripped) :
    s.judgeRequest (some .reset) q r = s.resetCheck := by
  simp [State.judgeRequest, hi, hp, ReqKind.takenIn]

/-! ## Readiness and the reset check (R55, R72) -/

/-- R40, R55: with the ready set not there, START names the first entry that is not ready. -/
theorem State.startCheck_set (h : s.lineupReadySet = false) :
    s.startCheck = (.notready, .ofStation (s.firstFailing fun e => e.readyInLineup s.pc.gen)) := by
  simp [State.startCheck, h]

/-- R55: with the ready set there, START names PU itself. -/
theorem State.startCheck_own (h : s.lineupReadySet = true) (hr : s.pc.ready = false) :
    s.startCheck = (.notready, .station s.number) := by
  simp [State.startCheck, h, hr]

theorem State.resetCheck_cause {c : Cause} (h : s.firstActiveCause = some c) :
    s.resetCheck = (.causeactive, .cause c) := by simp [State.resetCheck, h]

theorem State.resetCheck_pump (h : s.firstActiveCause = none) (hp : s.vp.pump ≠ .stopped) :
    s.resetCheck = (.notready, .none) := by simp [State.resetCheck, h, hp]

theorem State.resetCheck_peers (h : s.firstActiveCause = none) (hp : s.vp.pump = .stopped)
    (hn : s.peersResettable = false) :
    s.resetCheck = (.notready, .ofStation (s.firstFailing fun e => e.resettable s.pc.gen)) := by
  simp [State.resetCheck, h, hp, hn]

/-! ## The entry that is named (R40, R45) -/

theorem Entry.readyInLineup_iff (s : State) (e : Entry) :
    e.readyInLineup s.pc.gen = true
      ↔ e.presence = .present ∧ Showing s e fun st => st.phase = .lineup ∧ st.ready = true := by
  have htests : Tests (fun st => st.phase == .lineup && st.ready) fun st => st.phase = .lineup ∧ st.ready = true :=
    fun st => by simp
  simp only [Entry.readyInLineup, Bool.and_eq_true, beq_iff_eq, Entry.shows_iff htests]

theorem Entry.resettable_iff (s : State) (e : Entry) :
    e.resettable s.pc.gen = true
      ↔ e.presence = .present ∧ Showing s e fun st => st.cause = false ∧ st.closed = true := by
  have htests : Tests (fun st => !st.cause && st.closed) fun st => st.cause = false ∧ st.closed = true :=
    fun st => by simp
  simp only [Entry.resettable, Bool.and_eq_true, beq_iff_eq, Entry.shows_iff htests]

/-- R45: one protected entry that does not meet the reset conditions is enough. -/
theorem State.peersResettable_false {e : Entry} (he : e ∈ s.sr.entries) (hg : e.protected' = true)
    (hn : ¬ e.resettable s.pc.gen = true) : s.peersResettable = false := by
  rw [State.peersResettable, List.all_eq_false]
  exact ⟨e, List.mem_filter.2 ⟨he, hg⟩, hn⟩

/-- R27: the protected entry of a station number. -/
def Roster.guardedOf (r : Roster) (n : Nat) : Option Entry := r.entries.find? fun x => x.protected' && x.number == n

theorem Roster.guardedOf_number {r : Roster} {n : Nat} {e : Entry} (h : r.guardedOf n = some e) : e.number = n := by
  have hfound := List.find?_some h
  exact beq_iff_eq.1 (Bool.and_eq_true_iff.1 hfound).2

theorem State.lineupEntries_eq (s : State) : s.lineupEntries = s.sl.setup.lineup.filterMap s.sr.guardedOf := by
  unfold State.lineupEntries Roster.guarded Roster.guardedOf
  simp only [List.find?_filter, Bool.decide_and, Bool.decide_eq_true]

variable {ok : Entry → Bool} {p : Entry → Prop}

/-- R55, R72: the entry named is the first of the line-up list that fails the test. -/
theorem State.firstFailing_first (hok : ∀ e, ok e = true ↔ p e) {before after : List Nat} {n : Nat} {e : Entry}
    (hlist : s.sl.setup.lineup = before ++ n :: after) (he : s.sr.guardedOf n = some e) (hn : ¬ p e)
    (hbefore : ∀ m ∈ before, ∀ x, s.sr.guardedOf m = some x → p x) : s.firstFailing ok = some n := by
  have hpass : (before.filterMap s.sr.guardedOf).find? (fun x => !ok x) = none := by
    simp only [List.find?_eq_none, List.mem_filterMap, Bool.not_eq_true', Bool.not_eq_false, hok]
    rintro x ⟨m, hm, hx⟩
    exact hbefore m hm x hx
  have hfail : ok e = false := Bool.eq_false_iff.2 fun h => hn ((hok e).1 h)
  have hnumber := Roster.guardedOf_number he
  simp [State.firstFailing, State.lineupEntries_eq, hlist, List.find?_append, hpass, he, hfail, hnumber]

/-- R55, R72: with no entry of the list failing, none is named. -/
theorem State.firstFailing_none (hok : ∀ e, ok e = true ↔ p e)
    (hall : ∀ n ∈ s.sl.setup.lineup, ∀ e, s.sr.guardedOf n = some e → p e) : s.firstFailing ok = none := by
  simp only [State.firstFailing, State.lineupEntries_eq, Option.map_eq_none_iff, List.find?_eq_none, List.mem_filterMap,
    Bool.not_eq_true', Bool.not_eq_false, hok]
  rintro e ⟨n, hn, he⟩
  exact hall n hn e he

end Sys2Proof.Machine

open Sys2Proof Sys2Proof.Machine

/-- Settles O30: each case is one branch of the decision, and a decision that is not TAKEN leaves the ANSWER alone. -/
theorem requestsTurnedAway : Obligations.RequestsTurnedAway := by
  intro s k q r hl hq8 hq hr hpu
  have hplain {j : ReqKind} {d : Decision} {name : AnswerName}
      (hj : s.judgeRequest (some j) (j.carried 0) (j.carried 0) = (d, name)) (hd : d ≠ .taken) :=
    exec_request_turnedAway hl hq8 (Nat.zero_le _) (Nat.zero_le _) hpu hj hd
  refine ⟨fun hi => ?busy, fun hi hphase => ?wrongPhase, fun hi hp hn => ?badArg, fun hi hp hn => ?pumpRuns,
    fun hi hp hready => ?notReady, fun hi hp hset => ?notSet, fun c hi hp hc => ?cause, fun hi hp hc hn => ?notStopped,
    fun hi hp hc hs hpeer => ?peers⟩
  case busy => exact exec_request_turnedAway hl hq8 hq hr hpu (State.judgeRequest_inHand hi) nofun
  case wrongPhase =>
    exact exec_request_turnedAway hl hq8 hq hr hpu (State.judgeRequest_wrongPhase hi hphase) nofun
  case badArg =>
    exact exec_request_turnedAway (k := .nominate) hl hq8 hq hr hpu
      (State.judgeRequest_badArg hi hp (by simp only [ReqKind.carried, if_true]; omega)) nofun
  case pumpRuns => exact hplain (j := .resume) (State.judgeRequest_resume hi hp hn) nofun
  case notReady =>
    cases hset : s.lineupReadySet with
    | true =>
      obtain ⟨t, hexec, hnew, hframe⟩ :=
        hplain (j := .start) ((State.judgeRequest_start hi hp).trans (State.startCheck_own hset hready)) nofun
      exact ⟨t, _, hexec, hnew, fun _ => rfl, hframe⟩
    | false =>
      obtain ⟨t, hexec, hnew, hframe⟩ :=
        hplain (j := .start) ((State.judgeRequest_start hi hp).trans (State.startCheck_set hset)) nofun
      exact ⟨t, _, hexec, hnew, nofun, hframe⟩
  case notSet =>
    obtain ⟨t, hexec, hnew, hframe⟩ :=
      hplain (j := .start) ((State.judgeRequest_start hi hp).trans (State.startCheck_set hset)) nofun
    refine ⟨t, _, hexec, hnew, fun before n after e hlist he hn hbefore => ?_, fun hall => ?_, hframe⟩
    · rw [State.firstFailing_first (Entry.readyInLineup_iff s) hlist he hn hbefore]
      rfl
    · rw [State.firstFailing_none (Entry.readyInLineup_iff s) hall]
      rfl
  case cause =>
    exact hplain (j := .reset) ((State.judgeRequest_reset hi hp).trans (State.resetCheck_cause hc)) nofun
  case notStopped =>
    exact hplain (j := .reset) ((State.judgeRequest_reset hi hp).trans (State.resetCheck_pump hc hn)) nofun
  case peers =>
    obtain ⟨x, hx, hg, hfails⟩ := hpeer
    have hpeers := State.peersResettable_false hx hg fun h => hfails ((Entry.resettable_iff s x).1 h)
    obtain ⟨t, hexec, hnew, hframe⟩ :=
      hplain (j := .reset) ((State.judgeRequest_reset hi hp).trans (State.resetCheck_peers hc hs hpeers)) nofun
    refine ⟨t, _, hexec, hnew, fun before n after e hlist he hn hbefore => ?_, hframe⟩
    rw [State.firstFailing_first (Entry.resettable_iff s) hlist he hn hbefore]
    rfl
end

section
/-! SUPPORT. `Stable`: what a property of the trip record, the pump output, the alarms and the residual must pass to be
kept by every operation of the station. -/

namespace Sys2Proof.Machine

/-! ## What the invariants read -/

/-- The facts of a state that the invariants of trips, pump, alarms and meter read. -/
structure Gist where
  station : StationState
  phase : Phase
  inHand : Bool
  role : Option Role
  step : SeqStep
  meterK : Nat
  latched : List Latched
  pumpRun : Bool
  set : List AlarmEntry
  horn : Cadence
  beacon : Cadence
  residual : Nat

/-- The gist of a state. -/
def State.gist (s : State) : Gist :=
  ⟨s.pc.station, s.pc.phase, s.pc.inHand.isSome, s.role, s.sl.step, s.sl.setup.meterK, s.tu.latched, s.vp.pumpRun,
    s.an.set, s.an.horn.cadence, s.an.beacon.cadence, s.mr.residual⟩

/-- The parts that the gist is read from. -/
def gistParts : List Part := [.station, .phase, .setup, .tripRecord, .pump, .alarms, .residual]

theorem Keeps.gist {T : List Part} {s t : State} (h : Keeps T s t)
    (hT : decide (∀ p ∈ gistParts, p ∉ T) = true) :
    t.gist = s.gist := by
  have hp := of_decide_eq_true hT
  have part (p : Part) (hm : p ∈ gistParts) : p.same s t :=
    h.frame p (hp p hm)
  obtain ⟨hphase, hhand, -⟩ := part .phase (by decide)
  obtain ⟨-, hlatched, -⟩ := part .tripRecord (by decide)
  obtain ⟨-, -, -, hrun, -⟩ := part .pump (by decide)
  have hstation : t.pc.station = s.pc.station := part .station (by decide)
  have hsetup : t.sl = s.sl := part .setup (by decide)
  have halarms : t.an = s.an := part .alarms (by decide)
  have hresidual : t.mr.residual = s.mr.residual := part .residual (by decide)
  simp only [State.gist, State.role, hphase, hhand, hlatched, hrun, hstation, hsetup, halarms, hresidual]

/-- Where a phase may be stepped to: along the step table, out of TRIPPED with an empty latched set alone (R71), or into
TRIPPED (R5). -/
def LeadsTo (s : State) (p : Phase) : Prop :=
  p = .tripped ∨ (s.pc.phase.stepsTo p = true ∧ (s.pc.phase = .tripped → s.tu.latched = []))

/-- A property that the operations of the station keep, each where the station comes to it. -/
structure Stable (P : State → Prop) : Prop where
  gist : ∀ {s t : State}, P s → t.gist = s.gist → P t
  drive : ∀ {s : State} (set : List AlarmEntry), P s → P { s with an := s.an.drive set }
  letGo : ∀ {s : State}, P s → P { s with pc := { s.pc with inHand := none } }
  clear : ∀ {s : State}, P s → P s.clearTripRecord
  trip : ∀ {s : State} (c : Cause) (d : Option Nat), s.running = true → P s → P (s.addCause c d).enterTripped
  changePhase : ∀ {s : State} {p : Phase} (n r : Nat), s.running = true → LeadsTo s p → P s → P (s.changePhase p n r)
  offline : ∀ {s : State} (f : FaultRecord), s.running = false → P s → P (s.madeOffline f)
  begins : ∀ {s : State}, s.pc.station = .joining → P s → P s.beginRunning
  pulse : ∀ {s : State}, s.hasRole .pu = true → s.listening = true → P s →
    P { s with mr := s.mr.pulse s.sl.setup.meterK }

variable {P : State → Prop} {s : State}

/-! ## The shared operations -/

theorem Stable.keeps (h : Stable P) {T : List Part} {t : State} (k : Keeps T s t) (hs : P s)
    (hT : decide (∀ p ∈ gistParts, p ∉ T) = true) : P t :=
  h.gist hs (k.gist hT)

theorem Stable.emit (h : Stable P) (e : Event) (hs : P s) : P (s.emit e) := h.gist hs rfl

theorem Stable.emitAll (h : Stable P) (l : List Event) (hs : P s) : P (s.emitAll l) := h.gist hs rfl

theorem Stable.askStatusIf (h : Stable P) (b : Bool) (hs : P s) : P (s.askStatusIf b) :=
  h.keeps (s.askStatusIf_keeps b) hs (by decide)

theorem Stable.ite {t u : State} {c : Prop} [Decidable c] (ht : c → P t) (hu : ¬ c → P u) :
    P (if c then t else u) := by
  split
  · exact ht ‹_›
  · exact hu ‹_›

theorem Stable.iteSelf {t : State} {c : Prop} [Decidable c] (hs : P s) (ht : c → P t) : P (if c then t else s) :=
  Stable.ite ht fun _ => hs

theorem Stable.sweepAlarms (h : Stable P) (l : List AlarmKey) (hs : P s) : P (s.sweepAlarms l) :=
  h.emitAll _ (h.drive _ hs)

theorem Stable.watch (h : Stable P) (hs : P s) : P s.watch := by
  have hk : Keeps [.timers, .flags, .frames] s s.watchTimers.watchFlags.watchCause :=
    ((s.watchTimers_keeps.mono (by decide)).trans ((State.watchFlags_keeps _).mono (by decide))).trans
      ((State.watchCause_keeps _).mono (by decide))
  exact h.sweepAlarms _ (h.keeps hk hs (by decide))

theorem Stable.acknowledge (h : Stable P) (hs : P s) : P s.acknowledge := h.emitAll _ (h.drive _ hs)

theorem Stable.confirm (h : Stable P) (hs : P s) : P s.confirm := Stable.iteSelf hs fun _ => h.letGo hs

/-! ## Trips -/

theorem Stable.enterTripped (h : Stable P) (hr : s.running = true) (hs : P s) : P s.enterTripped := by
  unfold State.enterTripped
  exact Stable.ite (fun _ => hs) fun _ => h.changePhase 0 0 hr (.inl rfl) hs

/-- R66: SEPARATION that joins the set of a station in TRIPPED. -/
theorem Stable.joinSeparation (h : Stable P) (hr : s.running = true) (hp : s.pc.phase = .tripped) (hs : P s) :
    P s.joinSeparation := by
  unfold State.joinSeparation
  refine Stable.ite (fun _ => hs) fun _ => ?_
  have he : (s.addCause .separation none).enterTripped = s.addCause .separation none :=
    if_pos ((s.addCause_keeps .separation none).part .phase (by decide) |>.1.trans hp)
  have hadded := h.trip .separation none hr hs
  rw [he] at hadded
  exact h.keeps (State.announce_keeps _ _ _ _ _) hadded (by decide)

theorem Stable.afterTrip (h : Stable P) (hr : s.running = true) (hp : s.pc.phase = .tripped) (hs : P s) :
    P s.afterTrip := by
  have hk := s.followAll_keeps
  have hfollow : P s.followAll := h.keeps hk hs (by decide)
  refine h.confirm (Stable.iteSelf hfollow fun _ => ?_)
  have hclose := hk.trans (State.closeChannel_keeps _ .n1)
  refine h.joinSeparation ((hclose.running (by decide)).trans hr) ?_ (h.keeps hclose hs (by decide))
  exact (hclose.part .phase (by decide)).1.trans hp

/-- R65: a cause joined and TRIPPED entered. -/
theorem State.addCause_enterTripped_keeps (s : State) (c : Cause) (d : Option Nat) :
    Keeps (latchParts ++ phaseParts) s (s.addCause c d).enterTripped :=
  ((s.addCause_keeps _ _).mono (by decide)).trans ((State.enterTripped_keeps _).mono (by decide))

theorem Stable.latch (h : Stable P) (c : Cause) (d : Option Nat) (hr : s.running = true) (hs : P s) :
    P (s.latch c d) := by
  unfold State.latch
  refine Stable.ite (fun _ => hs) fun _ => h.watch ?_
  have ha := State.announce_keeps (s.addCause c d).enterTripped c d s.tu.latched.isEmpty s.tu.firstOut.isNone
  have hk := s.addCause_enterTripped_keeps c d
  have htrip := h.keeps ha (h.trip c d hr hs) (by decide)
  refine Stable.ite (fun _ => htrip) fun _ => h.afterTrip ?_ ?_ htrip
  · exact (ha.running (by decide)).trans ((hk.running (by decide)).trans hr)
  · exact (ha.part .phase (by decide)).1.trans (State.enterTripped_phase _)

theorem Stable.honour (h : Stable P) (n : Nat) (c : Option Cause) (o : Nat) (hr : s.running = true) (hs : P s) :
    P (s.honour n c o) := by
  unfold State.honour
  refine Stable.ite (fun _ => hs) fun _ => h.watch ?_
  have hfirst (f : Option FirstOut) (b : Bool) : P (({ s with tu := { s.tu with firstOut := f } }).askStatusIf b) :=
    h.askStatusIf b (h.gist hs rfl)
  have hrun (f : Option FirstOut) (b : Bool) :
      (({ s with tu := { s.tu with firstOut := f } }).askStatusIf b).running = true :=
    ((State.askStatusIf_keeps _ b).running (by decide)).trans hr
  have htrip (f : Option FirstOut) (b : Bool) (e : Event) :
      P ((({ s with tu := { s.tu with firstOut := f } }).askStatusIf b).enterTripped.emit e) :=
    h.emit e (h.enterTripped (hrun f b) (hfirst f b))
  refine Stable.ite (fun _ => htrip _ _ _) fun _ => h.afterTrip ?_ ?_ (htrip _ _ _)
  · exact ((s.honourEntry_keeps _ _ _).running (by decide)).trans hr
  · rw [State.emit_phase, State.enterTripped_phase]

theorem Stable.alarmInstead (h : Stable P) (c : Cause) (hs : P s) : P (s.alarmInstead c) := by
  unfold State.alarmInstead
  split
  · exact h.watch (h.gist hs rfl)
  · exact h.watch (h.gist hs rfl)
  · exact h.emitAll _ (h.drive _ hs)
  · exact hs

theorem Stable.hand (h : Stable P) (c : Cause) (d : Option Nat) (b : Bool) (hs : P s) : P (s.hand c d b) := by
  refine Stable.iteSelf hs fun hl => Stable.ite (fun _ => h.latch c d ?_ hs) fun _ => h.alarmInstead c hs
  simp_all

theorem Stable.handCause (h : Stable P) (c : Cause) (d : Option Nat) (hs : P s) : P (s.handCause c d) :=
  h.hand c d _ hs

theorem Stable.closeChannel (h : Stable P) (n : Ch) (hs : P s) : P (s.closeChannel n) :=
  h.keeps (s.closeChannel_keeps n) hs (by decide)

theorem Stable.handSeparation (h : Stable P) (hs : P s) : P s.handSeparation :=
  h.handCause _ _ (h.closeChannel _ hs)

theorem Stable.handEach (h : Stable P) (c : Cause) (p : Phase) (l : List Nat) (hs : P s) : P (s.handEach c p l) := by
  unfold State.handEach
  induction l generalizing s with
  | nil => exact hs
  | cons d l ih => exact ih (h.hand c (some d) _ hs)

/-! ## Steps -/

theorem Stable.handAtEntry (h : Stable P) (old p : Phase) (silent faults : List Nat) (hs : P s) :
    P (s.handAtEntry old p silent faults) := by
  have h1 : P (if p = .opening then s.handEach .linkloss p silent else s) :=
    Stable.iteSelf hs fun _ => h.handEach _ _ _ hs
  have h2 (u : State) (hu : P u) : P (if !old.active && p.active then u.handEach .sensor p faults else u) :=
    Stable.iteSelf hu fun _ => h.handEach _ _ _ hu
  exact Stable.iteSelf (h2 _ h1) fun _ => h.handSeparation (h2 _ h1)

theorem Stable.runOrder (h : Stable P) (hs : P s) : P s.runOrder := by
  rcases s.runOrder_cases with ⟨-, he⟩ | ⟨o, -, -, he⟩ <;> rw [he]
  · exact hs
  · have hd : P s.dropOrder := h.gist hs rfl
    cases o with
    | openVc1 => exact Stable.ite (fun _ => h.handCause _ _ hd) fun _ => h.keeps (State.openChannel_keeps _ _) hd (by decide)
    | closeVc1 => exact h.closeChannel _ hd
    | closeTanks => exact h.keeps (State.eachChannel_keeps State.closeChannel_keeps _ _) hd (by decide)

theorem Stable.react (h : Stable P) (old : Phase) (hs : P s) : P (s.react old) := by
  have h1 : P (s.scanAtPhase old).followAll :=
    h.keeps (State.followAll_keeps _) (h.keeps (s.scanAtPhase_keeps old) hs (by decide)) (by decide)
  have h2 (u : State) (l : List Nat) (hu : P u) : P (u.handRefused l) := Stable.iteSelf hu fun _ => h.handEach _ _ _ hu
  exact h.watch (h.handAtEntry _ _ _ _ (h.runOrder (h2 _ _ (h.watch h1))))

theorem Stable.stepTo (h : Stable P) {p : Phase} (n r : Nat) (hr : s.running = true) (hl : LeadsTo s p) (hs : P s) :
    P (s.stepTo p n r) := h.react _ (h.changePhase n r hr hl hs)

theorem Stable.handEndKind (h : Stable P) (k : EndKind) (hs : P s) : P (s.handEndKind k) :=
  h.keeps (s.handEndKind_keeps k) hs (by decide)

/-- A step along the table from a phase that is not TRIPPED. -/
theorem LeadsTo.of_step {p : Phase} (hp : s.pc.phase.stepsTo p = true) (ht : s.pc.phase ≠ .tripped) : LeadsTo s p :=
  .inr ⟨hp, fun h => absurd h ht⟩

/-- R7: an automatic step leads along the step table. -/
theorem Due.leads {p : Phase} {k : EndKind} (h : Due s p k) : s.pc.phase.stepsTo p = true ∧ s.pc.phase ≠ .tripped := by
  have hrow := h.step
  revert hrow
  generalize s.pc.phase = q
  cases q <;> cases p <;> decide

theorem Stable.takeTrigger (h : Stable P) {p : Phase} {k : EndKind} (hr : s.running = true) (hd : Due s p k) (hs : P s) :
    P (s.takeTrigger (p, k)) := by
  have hk := s.handEndKind_keeps k
  have hphase : (s.handEndKind k).pc.phase = s.pc.phase := (hk.part .phase (by decide)).1
  refine h.stepTo 0 0 ((hk.running (by decide)).trans hr) (.of_step ?_ ?_) (h.handEndKind k hs)
  · exact hphase ▸ hd.leads.1
  · exact hphase ▸ hd.leads.2

theorem Stable.puSteps (h : Stable P) (n : Nat) (hr : s.running = true) (hs : P s) : P (State.puSteps n s) := by
  induction n generalizing s with
  | zero => exact hs
  | succ n ih =>
    have hc := h.confirm hs
    have hcr : s.confirm.running = true := (s.confirm_keeps.running (by decide)).trans hr
    unfold State.puSteps
    refine Stable.ite (fun _ => hc) fun _ => ?_
    split
    · rename_i p hp
      have hd := (s.confirm.trigger_iff p.1 p.2).1 hp
      exact ih (((State.takeTrigger_keeps _ p).running (by decide)).trans hcr) (h.takeTrigger hcr hd hc)
    · exact hc

theorem Stable.puEval (h : Stable P) (hs : P s) : P s.puEval :=
  Stable.iteSelf hs fun hpu => h.puSteps 8 ((s.runningPu_iff.1 hpu).1) hs

/-! ## Roster changes and PU's STATUS -/

theorem Stable.rosterChanged (h : Stable P) (hs : P s) : P s.rosterChanged := by
  refine Stable.iteSelf hs fun _ => h.puEval (h.watch (h.keeps (State.watchLeak_keeps _) ?_ (by decide)))
  have hk (u : State) : Keeps (holdOffParts ++ tankParts ++ endParts) u
      ((((u.releaseIfStopped).readRoute).takeReceived.readExternalEnd).judgeEnds) :=
    (((((u.releaseIfStopped_keeps).mono (by decide)).trans ((State.readRoute_keeps _).mono (by decide))).trans
      ((State.takeReceived_keeps _).mono (by decide))).trans ((State.readExternalEnd_keeps _).mono (by decide))).trans
      ((State.judgeEnds_keeps _).mono (by decide))
  exact h.keeps (hk _) (h.runOrder hs) (by decide)

theorem Stable.adoptGen (h : Stable P) (g : BitVec 8) (hs : P s) : P (s.adoptGen g) :=
  h.keeps (s.adoptGen_keeps g) hs (by decide)

/-- R71: the trip record cleared at a RUNNING station in TRIPPED, which may then step to ENDED. -/
theorem State.reset_leads (g : BitVec 8) (hp : s.pc.phase = .tripped) :
    LeadsTo (s.adoptGen g).clearTripRecord .ended := by
  obtain ⟨hk, -, -, hl⟩ := State.reset_cleared s g
  have hphase := (hk.part .phase (by decide)).1.trans hp
  exact .inr ⟨by rw [hphase]; rfl, fun _ => hl⟩

theorem Stable.reset (h : Stable P) (g : BitVec 8) (hs : P s) : P (s.adoptGen g).clearTripRecord :=
  h.clear (h.adoptGen g hs)

theorem State.reset_running (g : BitVec 8) (hr : s.running = true) : (s.adoptGen g).clearTripRecord.running = true :=
  ((State.reset_cleared s g).1.running (by decide)).trans hr

theorem Stable.adopt (h : Stable P) (st : Status) (hr : s.running = true) (hp : s.pc.phase.stepsTo st.phase = true)
    (ht : s.pc.phase ≠ .tripped) (hs : P s) : P (s.adopt st) := by
  have hk := s.adopting_keeps st
  have hphase : (s.adopting st).pc.phase = s.pc.phase := (hk.part .phase (by decide)).1
  rw [State.adopt_eq]
  refine h.react _ (h.changePhase _ _ ((hk.running (by decide)).trans hr) (.of_step ?_ ?_) (h.keeps hk hs (by decide)))
  · rw [hphase]
    exact hp
  · rw [hphase]
    exact ht

theorem Stable.followSame (h : Stable P) (st : Status) (hr : s.running = true) (hs : P s) : P (s.followSame st) := by
  unfold State.followSame
  refine Stable.ite (fun _ => hs) fun hn => Stable.ite (fun hp => h.adopt st hr hp ?_ hs) fun _ => h.handCause _ _ hs
  exact fun ht => hn (.inl ht)

theorem Stable.followOther (h : Stable P) (n : Nat) (st : Status) (hr : s.running = true) (hs : P s) :
    P (s.followOther n st) := by
  have hgen := h.adoptGen st.gen hs
  have hstay : P (s.adoptGen st.gen).stayTripped := h.keeps (State.stayTripped_keeps _) hgen (by decide)
  have hphase : P ((s.adoptGen st.gen).handCause .phase none) := h.handCause _ _ hgen
  have hreset := h.reset st.gen hs
  have hrun := State.reset_running st.gen hr
  unfold State.followOther
  refine Stable.ite (fun ht => ?_) fun _ => Stable.ite (fun _ => hs) fun _ => hphase
  split
  · exact Stable.ite (fun _ => hstay) fun _ => h.stepTo 0 0 hrun (State.reset_leads _ ht) hreset
  · exact Stable.ite (fun _ => hstay) fun _ => h.honour _ _ _ hrun hreset
  · exact hphase

theorem Stable.followPu (h : Stable P) (n : Nat) (st : Status) (hr : s.running = true) (hs : P s) :
    P (s.followPu n st) := by
  have hf : P (if st.gen = s.pc.gen then s.followSame st else s.followOther n st) :=
    Stable.ite (fun _ => h.followSame st hr hs) fun _ => h.followOther n st hr hs
  exact Stable.iteSelf hf fun _ => h.handCause _ _ hf

/-! ## Requests at PU -/

/-- R54: a kind that is taken in a phase is not turned away there. -/
theorem ReqKind.takenIn_not_refused {k : ReqKind} {p : Phase} (h : k.takenIn p = true) : ¬ k.RefusedIn p := by
  rw [ReqKind.refusedIn_iff, h]
  exact Bool.noConfusion

theorem Stable.takeRequest (h : Stable P) (k : ReqKind) (q r : Nat) (hr : s.running = true)
    (hk : k.takenIn s.pc.phase = true) (hs : P s) : P (s.takeRequest k q r) := by
  have step {o p : Phase} (ho : s.pc.phase = o) (hst : o.stepsTo p = true ∧ o ≠ .tripped) : LeadsTo s p :=
    .of_step (ho ▸ hst.1) (ho ▸ hst.2)
  have hn := ReqKind.takenIn_not_refused hk
  cases k
  case nominate =>
    exact h.stepTo (s := { s with pc := { s.pc with transfer := nextTransfer s.pc.transfer } }) q r hr
      (step (not_not.1 hn) ⟨rfl, nofun⟩) (h.gist hs rfl)
  case start => exact h.stepTo 0 0 hr (step (not_not.1 hn) ⟨rfl, nofun⟩) hs
  case pause =>
    refine h.stepTo 0 0 hr ?_ hs
    rcases not_and_or.1 hn with hp | hp
    · exact step (not_not.1 hp) ⟨rfl, nofun⟩
    · exact step (not_not.1 hp) ⟨rfl, nofun⟩
  case resume => exact h.stepTo 0 0 hr (step (not_not.1 hn) ⟨rfl, nofun⟩) hs
  case stop =>
    refine Stable.ite (fun hp => h.stepTo 0 0 hr (step hp ⟨rfl, nofun⟩) hs) fun h1 =>
      Stable.ite (fun hp => h.stepTo 0 0 hr (step hp ⟨rfl, nofun⟩) hs) fun h2 => ?_
    have hkeep := s.handEndKind_keeps .operator
    have hphase : (s.handEndKind .operator).pc.phase = s.pc.phase := (hkeep.part .phase (by decide)).1
    have hst : s.pc.phase.stepsTo .stopping = true ∧ s.pc.phase ≠ .tripped := by
      revert hk h1 h2
      cases s.pc.phase <;> simp [ReqKind.takenIn, Phase.stepsTo]
    exact h.stepTo 0 0 ((hkeep.running (by decide)).trans hr) (.of_step (hphase ▸ hst.1) (hphase ▸ hst.2))
      (h.handEndKind _ hs)
  case reset =>
    exact h.stepTo 0 0 (State.reset_running _ hr) (State.reset_leads _ (not_not.1 hn)) (h.reset _ hs)
  case endack => exact h.stepTo 0 0 hr (step (not_not.1 hn) ⟨rfl, nofun⟩) hs

end Sys2Proof.Machine
end

section
/-! SUPPORT. `Stable`, command by command: what every command but those of start-up keeps. -/

namespace Sys2Proof.Machine

/-- A command answers a state with a property. -/
def AnswersWith (P : State → Prop) (c : Instr) (s : State) : Prop := ∃ t, exec c s = .next t ∧ P t

variable {P : State → Prop} {s : State}

/-! ## Joining and going offline -/

theorem Stable.enterOffline (h : Stable P) (f : FaultRecord) (hr : s.running = false) (hs : P s) :
    P (s.enterOffline f) := h.watch (h.offline f hr hs)

theorem Stable.joinWindowEnd (h : Stable P) (hs : P s) : AnswersWith P .joinWindowEnd s := by
  by_cases hj : s.pc.station = .joining
  swap
  · exact ⟨s, congrArg Host.Outcome.next (if_neg hj), hs⟩
  refine ⟨_, State.execJoinWindowEnd_joining hj, ?_⟩
  have hrun := h.begins hj hs
  have henter : P (s.beginRunning.enterPhase s.sr.join.heard) := by
    refine Stable.ite (fun _ => h.latch _ _ s.beginRunning_running hrun) fun _ => h.watch ?_
    have hk : Keeps holdOffParts s.beginRunning
        ((s.beginRunning.askStatus).emit (.phaseChange .idle .idle s.beginRunning.pc.transfer)).followAll :=
      ((s.beginRunning.askStatus_keeps.mono (by decide)).trans ((State.emit_keeps _ _).mono (by decide))).trans
        ((State.followAll_keeps _).mono (by decide))
    exact h.keeps hk hrun (by decide)
  have h1 := h.handEach .sensor (s.beginRunning.enterPhase s.sr.join.heard).pc.phase
    (s.beginRunning.enterPhase s.sr.join.heard).faultChannels henter
  have h2 (u : State) (hu : P u) : P (if u.valveRole && u.inputs.sep then u.handSeparation else u) :=
    Stable.iteSelf hu fun _ => h.handSeparation hu
  have h3 := h.watch (h2 _ h1)
  exact h.puEval (h.watch (Stable.iteSelf h3 fun _ => h.handCause .manual none h3))

/-! ## The link -/

theorem Stable.report (h : Stable P) (r : Report) (hs : P s) : P (s.report r) := h.gist hs rfl

theorem Stable.endNoAnswer (h : Stable P) (hs : P s) : P s.endNoAnswer := by
  unfold State.endNoAnswer
  split
  · exact h.gist hs rfl
  · exact hs

/-- R164 to R166: an attempt that fails, and a character compared with the one sent. -/
theorem Stable.mismatch (h : Stable P) (a : Attempt) (hs : P s) : P (s.mismatch a) := by
  obtain ⟨he, -⟩ | ⟨p, -, -, -, hother, hrequest⟩ := s.mismatch_cases a
  · rw [he]
    exact h.gist hs rfl
  · have hdrop : P ({ s with lc := s.lc.fail a }.emit (.dropped a.kind p.number)) := h.gist hs rfl
    by_cases hk : a.kind = .request
    · rw [hrequest hk]
      exact h.endNoAnswer hdrop
    · rw [hother hk]
      exact hdrop

theorem Stable.compareEcho (h : Stable P) (c : LineChar) (hs : P s) : P (s.compareEcho c) := by
  unfold State.compareEcho
  split
  · exact hs
  · split
    · exact Stable.ite (fun _ => Stable.ite (fun _ => h.gist hs rfl) fun _ => h.gist hs rfl) fun _ => h.mismatch _ hs
    · exact h.mismatch _ hs

theorem Stable.lineCharacter (h : Stable P) (c : LineChar) (hs : P s) : AnswersWith P (.lineCharacter c) s :=
  have hheard : P { s with lc := { s.lc with line := s.lc.line.heard, idle := 0 } } := h.gist hs rfl
  ⟨_, rfl, Stable.iteSelf hs fun _ => h.gist (h.compareEcho c hheard) rfl⟩

theorem Stable.echoTimeout (h : Stable P) (hs : P s) : AnswersWith P .echoTimeout s := by
  refine ⟨_, rfl, ?_⟩
  split
  · exact h.mismatch _ hs
  · exact hs

theorem Stable.moveSlots (h : Stable P) (hs : P s) : P s.moveSlots := h.keeps s.moveSlots_keeps hs (by decide)

theorem Stable.lineIdle (h : Stable P) (hs : P s) : AnswersWith P .lineIdle s :=
  have hidle : P { s with lc := { s.lc with
      line := .quiet, idle := max s.lc.idle 200, assembly := s.lc.assembly.idle } } := h.gist hs rfl
  ⟨_, rfl, Stable.iteSelf hs fun _ => h.moveSlots hidle⟩

theorem Stable.attempt (h : Stable P) (hs : P s) : AnswersWith P .attempt s := by
  refine ⟨_, rfl, Stable.iteSelf hs fun _ => ?_⟩
  split
  · split
    · exact h.gist hs rfl
    · exact hs
  · exact hs

theorem Stable.heartbeat (h : Stable P) (hs : P s) : AnswersWith P .heartbeat s :=
  have hbeat : P { s with lc := { s.lc with heartbeat := .fromZero } } := h.gist hs rfl
  ⟨_, rfl, Stable.iteSelf hs fun _ => h.keeps (State.askStatus_keeps _) hbeat (by decide)⟩

/-! ## The roster -/

theorem State.not_running_of_joining (h : s.pc.station = .joining) : s.running = false := by
  simp [State.running, h]

theorem Stable.takeJoining (h : Stable P) (r : Received) (hj : s.pc.station = .joining) (hs : P s) :
    P (s.takeJoining r) := by
  unfold State.takeJoining
  refine Stable.ite (fun _ => ?_) fun _ => ?_
  · exact h.enterOffline (s := s.emit _) _ (State.not_running_of_joining hj) (h.emit _ hs)
  · exact h.gist (h.keeps (s.enterFrame_keeps r) hs (by decide)) rfl

theorem Stable.carryOut (h : Stable P) (k : Option ReqKind) (q r : Nat) (hr : s.running = true) (hs : P s) :
    P (s.carryOut k q r) := by
  unfold State.carryOut
  split
  · rename_i k hj
    refine h.puEval (h.takeRequest k q r hr ?_ hs)
    by_contra hk
    cases hi : s.pc.inHand with
    | some _ => simp [State.judgeRequest_inHand (Option.isSome_iff_exists.2 ⟨_, hi⟩)] at hj
    | none =>
      have hrefused := (k.refusedIn_iff s.pc.phase).2 (by simpa using hk)
      simp [State.judgeRequest_wrongPhase hi hrefused] at hj
  · exact hs

/-- R53, R56: a REQUEST frame taken at PU. -/
theorem Stable.takeRequestFrame (h : Stable P) (n code : Nat) (number : BitVec 8) (q r : Nat) (hr : s.running = true)
    (hs : P s) : P (s.takeRequestFrame n code number q r) := by
  unfold State.takeRequestFrame
  refine Stable.ite (fun _ => h.emit _ hs) fun _ => ?_
  have hdone := h.carryOut (ReqKind.ofCode code) q r hr hs
  dsimp only
  split
  · exact h.gist hdone rfl
  · exact hdone

/-- R51: an ANSWER frame for this station. -/
theorem Stable.takeAnswerFrame (h : Stable P) (number : BitVec 8) (o : Decision) (hs : P s) :
    P (s.takeAnswerFrame number o) := by
  unfold State.takeAnswerFrame
  split
  · exact Stable.ite (fun _ => h.gist hs rfl) fun _ => h.emit _ hs
  · exact h.emit _ hs

theorem Stable.takeContents (h : Stable P) (r : Received) (hr : s.running = true) (hs : P s) :
    P (s.takeContents r) := by
  unfold State.takeContents
  split
  · exact Stable.iteSelf hs fun _ => h.takeRequestFrame _ _ _ _ _ hr hs
  · exact Stable.iteSelf hs fun _ => h.takeAnswerFrame _ _ hs
  · exact h.emit _ hs
  · exact hs

theorem Stable.offerTrip (h : Stable P) (r : Received) (hr : s.running = true) (hs : P s) : P (s.offerTrip r) := by
  unfold State.offerTrip
  split
  · exact Stable.iteSelf hs fun _ => h.honour _ _ _ hr hs
  · exact hs

theorem Stable.takeStatus (h : Stable P) (x : Header) (e : Option Entry) (st : Status) (hr : s.running = true)
    (hs : P s) : P (s.takeStatus x e st) :=
  Stable.iteSelf hs fun _ => h.keeps (State.takePuStatus_keeps _ _ _) (h.followPu _ st hr hs) (by decide)

theorem Stable.takeRunning (h : Stable P) (r : Received) (hr : s.running = true) (hs : P s) : P (s.takeRunning r) := by
  unfold State.takeRunning
  refine Stable.ite (fun _ => ?_) fun _ => ?_
  · rw [State.takeClash_eq r hr]
    have hseen : P (s.clashSeen r.header) := h.emit _ (h.emit _ hs)
    exact h.offerTrip r (((State.latch_keeps _ _ _).running (by decide)).trans hr) (h.latch _ _ hr hseen)
  · have hk := s.enterFrame_keeps r
    have henter := h.keeps hk hs (by decide)
    have hrun : (s.enterFrame r).running = true := (hk.running (by decide)).trans hr
    have hoffer := h.offerTrip r hrun henter
    have horun : ((s.enterFrame r).offerTrip r).running = true :=
      ((State.offerTrip_keeps _ r).running (by decide)).trans hrun
    dsimp only
    split
    · rename_i st _
      have ht := h.takeStatus r.header (s.sr.find r.header.sender) st horun hoffer
      refine h.takeContents r (((State.rosterChanged_keeps _).running (by decide)).trans ?_) (h.rosterChanged ht)
      exact ((State.takeStatus_keeps _ _ _ _).running (by decide)).trans horun
    · exact h.takeContents r (((State.rosterChanged_keeps _).running (by decide)).trans horun) (h.rosterChanged hoffer)

theorem Stable.takeFrame (h : Stable P) (l : List Byte) (hs : P s) : P (s.takeFrame l) := by
  unfold State.takeFrame
  split
  · rename_i hj
    split
    · exact Stable.ite (fun _ => h.takeJoining _ hj hs) fun _ => h.emit _ (h.takeJoining _ hj hs)
    · exact h.takeJoining _ hj hs
  · rename_i hr
    exact h.takeRunning _ (by simp [State.running, hr]) hs
  · exact hs

theorem Stable.rosterTakeFrame (h : Stable P) (hs : P s) : AnswersWith P .rosterTakeFrame s := by
  refine ⟨_, rfl, ?_⟩
  split
  · rename_i l _ _
    have hgone : P { s.takeFrame l with lc := { (s.takeFrame l).lc with delivery := none } } :=
      h.gist (h.takeFrame l hs) rfl
    exact h.moveSlots hgone
  · exact hs

theorem Stable.silenceLimit (h : Stable P) (n : Nat) (hs : P s) : AnswersWith P (.silenceLimit n) s := by
  refine ⟨_, rfl, ?_⟩
  split
  · rename_i e _ _
    refine Stable.iteSelf hs fun _ => ?_
    have hc := h.rosterChanged (h.keeps (s.silenced_keeps e) hs (by decide))
    exact Stable.iteSelf hc fun _ => h.handCause _ _ hc
  · exact hs

theorem Stable.removalLimit (h : Stable P) (n : Nat) (hs : P s) : AnswersWith P (.removalLimit n) s := by
  refine ⟨_, rfl, ?_⟩
  split
  · exact Stable.ite (fun _ => hs) fun _ => h.rosterChanged (h.keeps (s.removed_keeps n) hs (by decide))
  · exact hs

/-! ## Steps in hand and requests -/

theorem Stable.stepConfirmationTimeout (h : Stable P) (hs : P s) : AnswersWith P .stepConfirmationTimeout s := by
  refine ⟨_, rfl, ?_⟩
  split
  · exact h.puEval (h.handCause _ _ (h.emit _ (h.letGo hs)))
  · exact hs

theorem Stable.answerTimerExpiry (h : Stable P) (hs : P s) : AnswersWith P .answerTimerExpiry s :=
  have hgone : P { s with lc := s.lc.withdraw .request } := h.gist hs rfl
  ⟨_, rfl, Stable.iteSelf hs fun _ => h.endNoAnswer hgone⟩

/-! ## Valves, pump and inputs -/

theorem Stable.putInputs (h : Stable P) (i : Inputs) (hs : P s) : P { s with inputs := i } := h.gist hs rfl

theorem Stable.putChannel (h : Stable P) (n : Ch) (c : Channel) (hs : P s) : P (s.putChannel n c) :=
  h.keeps (State.putChannel_from s n c) (h.gist hs rfl) (by decide)

theorem Stable.valveSwitchChange (h : Stable P) (n : Ch) (sw : Switch) (on : Bool) (hs : P s) :
    AnswersWith P (.valveSwitchChange n sw on) s := by
  have hi := h.putInputs (s.inputs.setSwitch n sw on) hs
  refine ⟨_, rfl, Stable.ite (fun _ => hs) fun _ => Stable.ite (fun _ => h.watch ?_) fun _ =>
    h.keeps (State.switchUnused_keeps _ n) hi (by decide)⟩
  exact Stable.ite (fun _ => h.handCause _ _ (h.putChannel _ _ hi)) fun _ => h.putChannel _ _ hi

theorem Stable.dwellExpiry (h : Stable P) (n : Ch) (hs : P s) : AnswersWith P (.dwellExpiry n) s :=
  ⟨_, rfl, Stable.iteSelf hs fun _ => h.watch (h.putChannel _ _ hs)⟩

theorem Stable.travelLimitExpiry (h : Stable P) (n : Ch) (hs : P s) : AnswersWith P (.travelLimitExpiry n) s :=
  ⟨_, rfl, Stable.iteSelf hs fun _ => h.watch (h.handCause _ _ (h.putChannel _ _ hs))⟩

theorem Stable.holdOffExpiry (h : Stable P) (hs : P s) : AnswersWith P .holdOffExpiry s :=
  ⟨_, rfl, Stable.iteSelf hs fun _ => h.watch (h.keeps (s.releaseAll_keeps _) hs (by decide))⟩

/-- R94: the pump record changes and PUMP_RUN does not. -/
theorem Stable.putPump (h : Stable P) (v : ValvePump) (hv : v.pumpRun = s.vp.pumpRun) (hs : P s) :
    P (s.putPump v) :=
  h.askStatusIf _ (h.gist (t := { s with vp := v }) hs (by simp only [State.gist, State.role, hv]))

theorem Stable.handPump (h : Stable P) (r : PumpReason) (hs : P s) : P (s.handPump r) := h.hand _ _ _ hs

theorem Stable.proveStop (h : Stable P) (hs : P s) : P s.proveStop := by
  have hput : P (s.putPump s.vp.proved) := h.putPump _ rfl hs
  exact Stable.iteSelf hs fun _ =>
    Stable.ite (fun _ => h.keeps (State.setExternalEnd_keeps _) hput (by decide)) fun _ => hput

theorem Stable.feedbackOn (h : Stable P) (hs : P s) : P s.feedbackOn := by
  unfold State.feedbackOn
  split
  · exact h.putPump _ rfl hs
  · exact h.handPump _ (h.putPump _ rfl hs)
  · exact hs
  · exact hs

theorem Stable.feedbackOff (h : Stable P) (hs : P s) : P s.feedbackOff := by
  unfold State.feedbackOff
  split
  · exact Stable.iteSelf hs fun _ => h.handPump _ hs
  · exact h.proveStop hs
  · exact hs
  · exact hs

theorem Stable.pumpFbChange (h : Stable P) (on : Bool) (hs : P s) : AnswersWith P (.pumpFbChange on) s :=
  have hi := h.putInputs { s.inputs with pumpFb := on } hs
  ⟨_, rfl, Stable.ite (fun _ => hs) fun _ => Stable.iteSelf hi fun _ => h.puEval (h.watch
    (Stable.ite (fun _ => h.feedbackOn hi) fun _ => h.feedbackOff hi))⟩

theorem Stable.feedbackTimerExpiry (h : Stable P) (hs : P s) : AnswersWith P .feedbackTimerExpiry s :=
  have hv : P { s with vp := { s.vp with feedback := .stopped } } := h.gist hs rfl
  ⟨_, rfl, Stable.iteSelf hs fun _ => h.puEval (h.watch (h.handPump _ hv))⟩

theorem Stable.stopTimerExpiry (h : Stable P) (hs : P s) : AnswersWith P .stopTimerExpiry s :=
  have hv : P { s with vp := { s.vp with stopTimer := .stopped } } := h.gist hs rfl
  ⟨_, rfl, Stable.iteSelf hs fun _ => h.puEval (h.watch (h.handPump _ hv))⟩

theorem Stable.esdInChange (h : Stable P) (on : Bool) (hs : P s) : AnswersWith P (.esdInChange on) s :=
  have hi := h.putInputs { s.inputs with esd := on } hs
  ⟨_, rfl, Stable.ite (fun _ => hs) fun _ => h.watch (Stable.iteSelf hi fun _ => h.handCause _ _ hi)⟩

theorem Stable.sepInChange (h : Stable P) (on : Bool) (hs : P s) : AnswersWith P (.sepInChange on) s :=
  have hi := h.putInputs { s.inputs with sep := on } hs
  ⟨_, rfl, Stable.ite (fun _ => hs) fun _ => Stable.iteSelf hi fun _ =>
    h.watch (Stable.iteSelf hi fun _ => h.handSeparation hi)⟩

theorem Stable.ackInChange (h : Stable P) (on : Bool) (hs : P s) : AnswersWith P (.ackInChange on) s :=
  have hi := h.putInputs { s.inputs with ack := on } hs
  ⟨_, rfl, Stable.ite (fun _ => hs) fun _ => Stable.iteSelf hi fun _ => h.acknowledge hi⟩

theorem Sounding.toggle_cadence (o : Sounding) : o.toggle.cadence = o.cadence := by
  unfold Sounding.toggle
  split <;> rfl

theorem Stable.cadenceToggle (h : Stable P) (o : Sounder) (hs : P s) : AnswersWith P (.cadenceToggle o) s := by
  cases o <;> exact ⟨_, rfl, h.gist hs (by simp only [State.gist, State.role, Sounding.toggle_cadence])⟩

theorem Stable.qualify (h : Stable P) (q : QualId) (hs : P s) : P (s.qualify q) := by
  cases q with
  | overfill n =>
    refine h.handCause _ _ ?_
    have hexpired : P { s with tu := { s.tu with
        overfill := s.tu.overfill.set n (s.tu.overfill.get n).expire } } := h.gist hs rfl
    have htank := h.keeps (State.overfillTank_keeps _ n) hexpired (by decide)
    have hclosed := h.keeps (State.closeOverfilled_keeps _ n) htank (by decide)
    exact Stable.ite (fun _ => hclosed) fun _ => h.emit _ (h.gist hclosed rfl)
  | surge =>
    have hexpired : P { s with tu := { s.tu with surge := s.tu.surge.expire } } := h.gist hs rfl
    exact h.handCause _ _ hexpired
  | leak =>
    have hexpired : P { s with tu := { s.tu with leak := s.tu.leak.expire } } := h.gist hs rfl
    exact h.handCause _ _ hexpired

theorem Stable.qualificationExpiry (h : Stable P) (q : QualId) (hs : P s) :
    AnswersWith P (.qualificationExpiry q) s :=
  ⟨_, rfl, Stable.iteSelf hs fun _ => h.puEval (h.watch (h.qualify q hs))⟩

/-! ## Tanks and claims -/

theorem Stable.hhChange (h : Stable P) (n : Ch) (on : Bool) (hs : P s) : AnswersWith P (.hhChange n on) s :=
  have hi := h.putInputs { s.inputs with hh := s.inputs.hh.set n on } hs
  ⟨_, rfl, Stable.ite (fun _ => hs) fun _ => Stable.iteSelf hi fun _ =>
    h.watch (h.keeps (State.takeOverfill_keeps _ n) hi (by decide))⟩

theorem Stable.judgeEnds (h : Stable P) (hs : P s) : P s.judgeEnds := h.keeps s.judgeEnds_keeps hs (by decide)

theorem Stable.claimWaitExpiry (h : Stable P) (hs : P s) : AnswersWith P .claimWaitExpiry s := by
  refine ⟨_, rfl, ?_⟩
  split
  · rename_i n _ _
    have hdecided : P (if !s.peerClaimBelow && s.peerRoute then s.winClaim n else s.loseClaim n) :=
      Stable.ite (fun _ => h.keeps (s.winClaim_keeps n) hs (by decide)) fun _ =>
        h.keeps (s.loseClaim_keeps n) hs (by decide)
    exact h.watch (h.judgeEnds (h.keeps (State.judgeAllFull_keeps _) hdecided (by decide)))
  · exact hs

theorem Stable.completeSettling (h : Stable P) (hs : P s) : P s.completeSettling :=
  h.watch (h.judgeEnds (h.keeps (State.setReceipt_keeps _ _) (h.keeps (s.putTanks_keeps _) hs (by decide)) (by decide)))

theorem Stable.settleExpiry (h : Stable P) {c : Instr} (hc : c = .settleWindowExpiry ∨ c = .settleLimitExpiry)
    (hs : P s) : AnswersWith P c s := by
  rcases hc with rfl | rfl <;> exact ⟨_, rfl, Stable.iteSelf hs fun _ => h.completeSettling hs⟩

/-! ## The meter -/

theorem Stable.litres (h : Stable P) (n : Nat) (hs : P s) : P (State.litres n s) := by
  induction n generalizing s with
  | zero => exact hs
  | succ n ih =>
    refine ih (h.puEval (h.gist hs ?_))
    simp only [State.gist, State.role, MeterRecord.placeLitre_residual, MeterRecord.windowLitre_residual]

theorem Stable.meterPulse (h : Stable P) (hs : P s) : AnswersWith P .meterPulse s := by
  refine ⟨_, rfl, Stable.iteSelf hs fun hc => h.litres _ (h.pulse ?_ ?_ hs)⟩
  · exact (Bool.and_eq_true_iff.1 hc).1
  · exact (Bool.and_eq_true_iff.1 hc).2

theorem Stable.handNoFlow (h : Stable P) (b : Bool) (hs : P s) : P (s.handNoFlow b) :=
  Stable.iteSelf hs fun _ => h.handCause _ _ hs

theorem Stable.rateWindow (h : Stable P) (hs : P s) : AnswersWith P .rateWindow s := by
  have hmeter : P { s with mr := s.mr.completeWindow s.pc.phase } :=
    h.gist hs (by simp only [State.gist, State.role, (s.mr.completeWindow_kept s.pc.phase).1])
  have hcap (u : State) (hu : P u) : P u.followCap := Stable.iteSelf hu fun _ => h.gist hu rfl
  exact ⟨_, rfl, Stable.iteSelf hs fun _ => h.puEval (h.watch (h.handNoFlow _ (hcap _ hmeter)))⟩

theorem Stable.startLimitExpiry (h : Stable P) (hs : P s) : AnswersWith P .startLimitExpiry s :=
  have hmeter : P { s with mr := { s.mr with startLimit := .stopped } } := h.gist hs rfl
  ⟨_, rfl, Stable.iteSelf hs fun _ => h.puEval (h.watch (h.handNoFlow _ hmeter))⟩

/-! ## The scan and the pressure watch -/

theorem Stable.scanSetStart (h : Stable P) (hs : P s) : AnswersWith P .scanSetStart s :=
  ⟨_, rfl, Stable.iteSelf hs fun _ => h.keeps s.startSet_keeps hs (by decide)⟩

/-- R118: a level that reaches the Overflow Watch. -/
theorem Stable.tankReading (h : Stable P) (n : Ch) (v : Nat) (hs : P s) : P (s.tankReading n v) := by
  have htaken := h.keeps (State.takeOverfill_keeps _ n) (h.keeps (s.putTank_keeps n
    ((s.ow.tanks.get n).takeLevel v (s.sl.setup.tanks.get n).high s.running)) hs (by decide)) (by decide)
  have hfacts := h.keeps (State.watchTimers_keeps _) (h.sweepAlarms [.highlevel n] htaken) (by decide)
  have hsteps := h.keeps (State.judgeAllFull_keeps _) (h.keeps (State.levelSteps_keeps _ n v) hfacts (by decide))
    (by decide)
  have hreceived (u : State) (hu : P u) : P (u.receivedReading n) :=
    Stable.iteSelf hu fun _ => h.keeps u.takeOwnReceived_keeps hu (by decide)
  have hsettled (b : Bool) := h.keeps (State.settleReading_keeps _ n v b) (hreceived _ hsteps) (by decide)
  exact h.judgeEnds (h.keeps (State.takeReceived_keeps _) (hsettled _) (by decide))

theorem Stable.handReading (h : Stable P) (n : Ch) (v : Nat) (hs : P s) : P (s.handReading n v) := by
  refine Stable.ite (fun _ => h.proveStop ?_) fun _ => Stable.iteSelf hs fun _ => h.tankReading n v hs
  have hwatched : P (State.watchLeak { s with hw := s.hw.takePressure v }) := h.gist hs rfl
  exact Stable.iteSelf hwatched fun _ => h.handCause _ _ hwatched

theorem Stable.handFault (h : Stable P) (n : Ch) (hs : P s) : P (s.handFault n) := by
  have hcease : P s.ceasePressure := h.sweepAlarms _ (h.gist hs rfl)
  have hsensor := h.handCause .sensor (some n.num) (Stable.iteSelf hs fun (_ : s.pressureRole = true) => hcease)
  exact Stable.iteSelf hsensor fun _ => h.keeps (State.tankFault_keeps _ n) hsensor (by decide)

theorem Stable.handOn (h : Stable P) (n : Ch) (r : Reading) (hs : P s) : P (s.handOn n r) := by
  cases r with
  | nothing => exact hs
  | value v => exact h.handReading n v hs
  | faultBegins => exact h.handFault n hs
  | faultEnds v => exact h.handReading n v hs

theorem Stable.scanReading (h : Stable P) (raw : BitVec 12) (hs : P s) : AnswersWith P (.scanReading raw) s := by
  refine ⟨_, rfl, ?_⟩
  split
  · rename_i n _ _
    have hread : P { s with hw := { s.hw with
        chans := s.hw.chans.set n ((s.hw.chans.get n).read raw.toNat (s.hasRole .tw)).1 } } := h.gist hs rfl
    exact h.gist (h.puEval (h.watch (h.handOn n _ hread))) rfl
  · exact hs

theorem Stable.allowanceExpiry (h : Stable P) (hs : P s) : AnswersWith P .allowanceExpiry s := by
  have hsurge : P (if s.hw.excursion = .excursion then s.handCause .surge none else s) :=
    Stable.iteSelf hs fun _ => h.handCause _ _ hs
  exact ⟨_, rfl, Stable.iteSelf hs fun _ => h.puEval (h.watch (h.gist hsurge rfl))⟩

theorem Stable.relaxExpiry (h : Stable P) (hs : P s) : AnswersWith P .relaxExpiry s :=
  have hnone : P { s with hw := { s.hw with excursion := .none, relax := .stopped } } := h.gist hs rfl
  ⟨_, rfl, Stable.iteSelf hs fun _ => h.watch hnone⟩

/-! ## The panel -/

theorem Stable.requestLine (h : Stable P) (k : ReqKind) (q r : Nat) (hs : P s) : P (s.requestLine k q r) := by
  refine Stable.ite (fun _ => h.report _ hs) fun hrun => Stable.ite (fun _ => ?here) fun _ => ?out
  case here => exact h.report _ (h.carryOut (some k) q r (by simpa using hrun) hs)
  case out =>
    exact Stable.ite (fun _ => h.report _ hs) fun _ => Stable.ite (fun _ => h.report _ hs) fun _ => h.gist hs rfl

theorem Stable.tankLine (h : Stable P) (w : CommandWord) (t : Nat) (check : Ch → Option RefuseReason)
    (st : TankState) (hs : P s) : P (s.tankLine w t check st) := by
  unfold State.tankLine
  split
  · exact h.report _ hs
  · rename_i n _
    refine Stable.ite (fun _ => ?_) fun _ => h.report _ hs
    split
    · exact h.report _ hs
    · exact h.report _ (Stable.ite (fun _ => h.emit _ hs) fun _ =>
        h.watch (h.keeps (s.setTank_keeps n st) hs (by decide)))

/-- R203: a READ command gives a report and does nothing else. -/
theorem Stable.lineRead (h : Stable P) (n : Option Nat) (hs : P s) :
    P (s.lineReadValve n) ∧ P (s.lineReadTank n) ∧ P (s.lineReadRoster n) := by
  refine ⟨?_, ?_, ?_⟩
  · unfold State.lineReadValve
    split
    · exact h.report _ hs
    · split <;> exact h.report _ hs
  · unfold State.lineReadTank
    split
    · exact h.report _ hs
    · split <;> exact h.report _ hs
  · cases n
    · exact h.report _ hs
    · exact Stable.ite (fun _ => h.report _ hs) fun _ => h.report _ hs

/-- R198: whatever a command handed on does. -/
theorem Stable.runLine (h : Stable P) (c : Instr) (hs : P s) : P (s.runLine c) := by
  cases c
  case nominate q r => exact Stable.ite (fun _ => h.requestLine _ _ _ hs) fun _ => h.report _ hs
  case start | pause | resume | stop | reset | endack => exact h.requestLine _ _ _ hs
  case trip => exact Stable.ite (fun _ => h.report _ (h.handCause _ _ hs)) fun _ => h.report _ hs
  case silence => exact Stable.ite (fun _ => h.report _ hs) fun _ => h.report _ (h.acknowledge hs)
  case assign t => exact h.tankLine _ _ _ _ hs
  case unassign t => exact h.tankLine _ _ _ _ hs
  case mask w => exact h.gist hs rfl
  case readRoster n => exact (h.lineRead n hs).2.2
  case readValve n => exact (h.lineRead n hs).1
  case readTank n => exact (h.lineRead n hs).2.1
  case readPhase | readTrip | readAlarm | readPump | readScan | readRecord | readSetup | readPanel =>
    exact h.report _ hs
  all_goals exact hs

theorem Stable.handleLine (h : Stable P) {f : State → State} (hs : P s) (hf : P (f s)) : P (s.handleLine f) :=
  Stable.ite (fun _ => hf) fun _ => h.gist hs rfl

/-- R198: a panel line typed out is the command the parser hands on. -/
theorem exec_panelLine {c : Instr} (hc : isPanelLine c = true) (s : State) :
    exec c s = .next (s.handleLine fun u => u.runLine c) := by
  cases c
  case nominate | start | pause | resume | stop | reset | endack | trip | silence | assign | unassign | mask => rfl
  case readPhase | readRoster | readTrip | readAlarm | readValve | readPump | readScan | readTank | readRecord
    | readSetup | readPanel => rfl
  all_goals exact Bool.noConfusion hc

theorem Stable.panelLine (h : Stable P) (c : Instr) (hc : isPanelLine c = true) (hs : P s) : AnswersWith P c s :=
  ⟨_, exec_panelLine hc s, h.handleLine hs (h.runLine c hs)⟩

theorem Stable.reportSent (h : Stable P) (hs : P s) : AnswersWith P .reportSent s :=
  ⟨_, rfl, Stable.ite (fun _ => hs) fun _ => h.gist hs rfl⟩

theorem Stable.runParsed (h : Stable P) (l : PanelLine) (hs : P s) : P (s.runParsed l) := by
  cases l with
  | blank => exact hs
  | overlong w => exact h.handleLine (f := fun u => u.report _) hs (h.report _ hs)
  | bad w => exact h.handleLine (f := fun u => u.report _) hs (h.report _ hs)
  | command c => exact h.handleLine (f := fun u => u.runLine c) hs (h.runLine c hs)

theorem Stable.panelCharacter (h : Stable P) (c : LineChar) (hs : P s) : AnswersWith P (.panelCharacter c) s := by
  cases c with
  | bad => exact ⟨_, rfl, hs⟩
  | good b =>
    have hcleared : P { s with pp := s.pp.clearLine } := h.gist hs rfl
    exact ⟨_, rfl, Stable.ite (fun _ => h.runParsed _ hcleared) fun _ => Stable.ite (fun _ => h.gist hs rfl) fun _ =>
      Stable.iteSelf hs fun _ => h.gist hs rfl⟩

/-! ## Every command -/

/-- The commands of start-up, which put a station to values of their own (R186 to R192). -/
def isStartUp : Instr → Bool
  | .startUp | .resetInOff _ _ | .setupRead _ => true
  | _ => false

theorem Stable.exec (h : Stable P) (c : Instr) (hc : isStartUp c = false) (hs : P s) : AnswersWith P c s := by
  by_cases hl : isPanelLine c = true
  · exact h.panelLine c hl hs
  cases c
  case joinWindowEnd => exact h.joinWindowEnd hs
  case lineCharacter c => exact h.lineCharacter c hs
  case echoTimeout => exact h.echoTimeout hs
  case lineIdle => exact h.lineIdle hs
  case attempt => exact h.attempt hs
  case heartbeat => exact h.heartbeat hs
  case rosterTakeFrame => exact h.rosterTakeFrame hs
  case silenceLimit n => exact h.silenceLimit n hs
  case removalLimit n => exact h.removalLimit n hs
  case stepConfirmationTimeout => exact h.stepConfirmationTimeout hs
  case answerTimerExpiry => exact h.answerTimerExpiry hs
  case panelCharacter c => exact h.panelCharacter c hs
  case reportSent => exact h.reportSent hs
  case esdInChange on => exact h.esdInChange on hs
  case sepInChange on => exact h.sepInChange on hs
  case ackInChange on => exact h.ackInChange on hs
  case cadenceToggle o => exact h.cadenceToggle o hs
  case hhChange n on => exact h.hhChange n on hs
  case qualificationExpiry q => exact h.qualificationExpiry q hs
  case valveSwitchChange n sw on => exact h.valveSwitchChange n sw on hs
  case dwellExpiry n => exact h.dwellExpiry n hs
  case travelLimitExpiry n => exact h.travelLimitExpiry n hs
  case holdOffExpiry => exact h.holdOffExpiry hs
  case pumpFbChange on => exact h.pumpFbChange on hs
  case feedbackTimerExpiry => exact h.feedbackTimerExpiry hs
  case stopTimerExpiry => exact h.stopTimerExpiry hs
  case meterPulse => exact h.meterPulse hs
  case rateWindow => exact h.rateWindow hs
  case startLimitExpiry => exact h.startLimitExpiry hs
  case scanSetStart => exact h.scanSetStart hs
  case scanReading raw => exact h.scanReading raw hs
  case allowanceExpiry => exact h.allowanceExpiry hs
  case relaxExpiry => exact h.relaxExpiry hs
  case claimWaitExpiry => exact h.claimWaitExpiry hs
  case settleWindowExpiry => exact h.settleExpiry (.inl rfl) hs
  case settleLimitExpiry => exact h.settleExpiry (.inr rfl) hs
  case startUp | resetInOff | setupRead => exact Bool.noConfusion hc
  all_goals exact absurd rfl hl

theorem State.tick_gist (s : State) : s.tick.gist = s.gist := by
  have hi : s.tick.pc.inHand.isSome = s.pc.inHand.isSome := Option.isSome_map ..
  simp only [State.gist, hi]
  rfl

/-- A step keeps a stable property that the commands of start-up keep too. -/
theorem Stable.step (h : Stable P) {t : State} (hs : P s)
    (hstart : ∀ c rest, isStartUp c = true → AnswersWith P c { s with pending := rest })
    (hst : Machine.step s = .next t) : P t := by
  unfold Machine.step at hst
  split at hst
  · cases hst
    exact h.gist hs s.tick_gist
  · rename_i c rest _
    have hrest : P { s with pending := rest } := h.gist hs rfl
    have hanswer : AnswersWith P c { s with pending := rest } := by
      cases hc : isStartUp c
      · exact h.exec c hc hrest
      · exact hstart c rest hc
    obtain ⟨u, hu, hp⟩ := hanswer
    rw [hu] at hst
    cases hst
    exact hp

end Sys2Proof.Machine
end

section
/-! SUPPORT. O58 and O59: the commands of start-up, and what a phase change does to PUMP_RUN. -/

namespace Sys2Proof.Machine

variable {P : State → Prop} {s : State}

/-! ## Start-up -/

/-- R187, R190: the state that a rejection makes before the levels are watched. -/
def State.rejected (s : State) (f : FaultRecord) : State :=
  ({ s with sl := { s.sl with step := .rejected } }).madeOffline f

/-- The state that valid straps give, beside the inputs and the pump state. -/
def State.strapped (s : State) (sn : BitVec 4) (rl : BitVec 3) : State :=
  { s with sl := { s.sl with step := .read, sn := sn, rl := rl } }

/-- The station with a frozen setup, beside what the blocks take from it. -/
def State.frozenWith (s : State) (c : Setup) : State :=
  { s with pc := { s.pc with station := .joining }, sl := { s.sl with step := .frozen, setup := c } }

theorem State.freeze_gist (s : State) (r : Role) (c : Setup) : (s.freeze r c).gist = (s.frozenWith c).gist := by
  refine (Keeps.gist (Keeps.foldl State.takeOverfill_keeps Ch.all _) (by decide)).trans ?_
  have hrun : (s.vp.join r).pumpRun = s.vp.pumpRun := by
    unfold ValvePump.join
    split <;> rfl
  simp only [State.gist, State.role, State.frozenWith, hrun]

/-- A step keeps a stable property that the states start-up makes have too. -/
theorem Stable.step_of_startUp (h : Stable P) {t : State} (hs : P s) (hreset : P State.reset)
    (hreject : s.sl.step = .hold ∨ s.sl.step = .read → ∀ f, P (s.rejected f))
    (hstraps : s.sl.step = .hold → ∀ sn rl, P (s.strapped sn rl))
    (hfreeze : s.sl.step = .read → ∀ l r, s.role = some r → setupFailure l r = none → P (s.frozenWith (freezeSetup l r)))
    (hst : Machine.step s = .next t) : P t := by
  refine h.step hs (fun c rest hc => ?_) hst
  have hrest : P { s with pending := rest } := h.gist hs rfl
  cases c
  case startUp => exact ⟨_, rfl, h.gist hreset rfl⟩
  case resetInOff sn rl =>
    refine ⟨_, rfl, Stable.iteSelf hrest fun hhold => ?_⟩
    have hrejected (f : FaultRecord) :
        P (State.reject { s with pending := rest, inputs := { s.inputs with resetIn := false } } f) :=
      h.watch (h.gist (hreject (.inl hhold) f) rfl)
    unfold State.readStraps
    refine Stable.ite (fun _ => hrejected _) fun _ => ?_
    split
    · exact hrejected _
    · rename_i r _
      refine h.gist (hstraps hhold sn rl) ?_
      have hrun : (s.vp.forRole r).pumpRun = s.vp.pumpRun := by
        unfold ValvePump.forRole
        split <;> rfl
      simp only [State.gist, State.role, State.strapped, hrun]
  case setupRead image =>
    refine ⟨_, rfl, ?_⟩
    split
    · rename_i r hread hrole
      unfold State.checkSetup
      split
      · rename_i check offset _
        exact h.watch (h.gist (hreject (.inr hread) (.setup check offset)) rfl)
      · rename_i hf
        refine h.gist (hfreeze hread image.toList r hrole hf) ?_
        exact (State.freeze_gist _ r _).trans rfl
    · exact hrest
  all_goals exact Bool.noConfusion hc

/-! ## The sounders -/

theorem Sounding.take_cadence (o : Sounding) (c : Cadence) : (o.take c).cadence = c := by
  unfold Sounding.take
  split
  · assumption
  · rfl

theorem SoundersFollow.of_alarms {t : State} (h : SoundersFollow s) (ha : t.an = s.an) : SoundersFollow t := by
  unfold SoundersFollow
  rw [ha]
  exact h

theorem SoundersFollow.stable : Stable SoundersFollow where
  gist h hg := by
    have hset := congrArg Gist.set hg
    exact ⟨(congrArg Gist.horn hg).trans (h.1.trans (congrArg hornCadence hset.symm)),
      (congrArg Gist.beacon hg).trans (h.2.trans (congrArg beaconCadence hset.symm))⟩
  drive set _ := ⟨Sounding.take_cadence _ _, Sounding.take_cadence _ _⟩
  letGo h := h
  clear h := h.of_alarms (State.clearTripRecord_keeps _ |>.part .alarms (by decide))
  trip c d _ h := h.of_alarms (State.addCause_enterTripped_keeps _ c d |>.part .alarms (by decide))
  changePhase n r _ _ h := h.of_alarms (State.changePhase_keeps _ _ n r |>.part .alarms (by decide))
  offline _ _ h := h
  begins _ h := h
  pulse _ _ h := h

theorem SoundersFollow.step {t : State} (h : SoundersFollow s) (hst : Machine.step s = .next t) : SoundersFollow t :=
  stable.step_of_startUp h ⟨rfl, rfl⟩ (fun _ _ => h) (fun _ _ _ => h) (fun _ _ _ _ _ => h) hst

/-! ## The residual -/

/-- R139, R192: the setup is frozen from JOINING on, and the residual is below its meter factor. -/
structure Metered (s : State) : Prop where
  frozen : s.pc.station = .joining ∨ s.pc.station = .running → s.sl.step = .frozen
  residual : ResidualBelowK s

theorem Metered.gist {t : State} (h : Metered s) (hg : t.gist = s.gist) : Metered t := by
  have hstation : t.pc.station = s.pc.station := congrArg Gist.station hg
  have hstep : t.sl.step = s.sl.step := congrArg Gist.step hg
  have hrole : t.role = s.role := congrArg Gist.role hg
  have hk : t.sl.setup.meterK = s.sl.setup.meterK := congrArg Gist.meterK hg
  have hresidual : t.mr.residual = s.mr.residual := congrArg Gist.residual hg
  refine ⟨by rw [hstation, hstep]; exact h.frozen, ?_⟩
  have hbelow := h.residual
  unfold ResidualBelowK State.hasRole at hbelow ⊢
  rwa [hstep, hrole, hk, hresidual]

theorem Metered.keeps {T : List Part} {t : State} (h : Metered s) (k : Keeps T s t) (hstation : Part.station ∉ T)
    (hsetup : Part.setup ∉ T) (hresidual : Part.residual ∉ T) : Metered t := by
  have hst : t.pc.station = s.pc.station := k.frame .station hstation
  have hsl : t.sl = s.sl := k.frame .setup hsetup
  have hres : t.mr.residual = s.mr.residual := k.frame .residual hresidual
  refine ⟨by rw [hst, hsl]; exact h.frozen, ?_⟩
  have hbelow := h.residual
  unfold ResidualBelowK State.hasRole State.role at hbelow ⊢
  rwa [hsl, hres]

/-- R139: a pulse counts modulo K. -/
theorem Metered.pulse (hpu : s.hasRole .pu = true) (hl : s.listening = true) (h : Metered s) :
    Metered { s with mr := s.mr.pulse s.sl.setup.meterK } := by
  refine ⟨h.frozen, ?_⟩
  have hfrozen : s.sl.step = .frozen := h.frozen (by simpa [State.listening] using hl)
  have hbelow := h.residual
  unfold ResidualBelowK at hbelow
  rw [if_pos ⟨hfrozen, hpu⟩] at hbelow
  have hmod : (s.mr.residual + 10) % s.sl.setup.meterK < s.sl.setup.meterK :=
    Nat.mod_lt _ (Nat.zero_lt_of_lt hbelow)
  exact (if_pos ⟨hfrozen, hpu⟩).mpr hmod

theorem Metered.stable : Stable Metered where
  gist := Metered.gist
  drive _ h := ⟨h.frozen, h.residual⟩
  letGo h := ⟨h.frozen, h.residual⟩
  clear h := h.keeps (State.clearTripRecord_keeps _) (by decide) (by decide) (by decide)
  trip c d _ h := h.keeps (State.addCause_enterTripped_keeps _ c d) (by decide) (by decide) (by decide)
  changePhase n r _ _ h := h.keeps (State.changePhase_keeps _ _ n r) (by decide) (by decide) (by decide)
  offline _ _ h := ⟨nofun, h.residual⟩
  begins hj h := by
    refine ⟨fun _ => h.frozen (.inl hj), ?_⟩
    have hres {s : State} : s.beginRunning.mr.residual = s.mr.residual := by
      unfold State.beginRunning
      dsimp only
      split <;> rfl
    have hbelow := h.residual
    unfold ResidualBelowK at hbelow ⊢
    rw [hres]
    exact hbelow
  pulse := Metered.pulse

/-- R139: before the setup is frozen nothing has been counted. -/
theorem Metered.residual_zero (h : Metered s) (hs : s.sl.step ≠ .frozen) : s.mr.residual = 0 := by
  have hbelow := h.residual
  unfold ResidualBelowK at hbelow
  rwa [if_neg fun hc => hs hc.1] at hbelow

theorem Metered.step {t : State} (h : Metered s) (hst : Machine.step s = .next t) : Metered t := by
  refine stable.step_of_startUp h ⟨by decide, rfl⟩ (fun hstep f => ?reject) (fun hhold sn rl => ?straps)
    (fun hread l r hrole hf => ?freeze) hst
  case reject =>
    have hzero := h.residual_zero fun hc => by simp [hc] at hstep
    exact ⟨nofun, (if_neg fun hc => SeqStep.noConfusion hc.1).mpr hzero⟩
  case straps =>
    have hzero := h.residual_zero fun hc => by simp [hc] at hhold
    refine ⟨fun hl => ?_, (if_neg fun hc => SeqStep.noConfusion hc.1).mpr hzero⟩
    exact absurd (hhold.symm.trans (h.frozen hl)) nofun
  case freeze =>
    have hzero := h.residual_zero fun hc => by simp [hc] at hread
    refine ⟨fun _ => rfl, ?_⟩
    unfold ResidualBelowK
    split
    · rename_i hc
      have hr : r = .pu := by
        have hpu : s.hasRole .pu = true := hc.2
        simpa [State.hasRole, hrole] using hpu
      subst hr
      have hk := (setupFailure_meter hf).1
      exact hzero ▸ hk
    · exact hzero

end Sys2Proof.Machine

open Sys2Proof Sys2Proof.Machine

/-- Settles O59: each is kept by the shared operations, and so by every command. -/
theorem soundersAndResidualKept : Obligations.SoundersAndResidualKept := by
  intro s t hst
  refine ⟨fun h => h.step hst, fun hseq h => ?_⟩
  have hm : Metered s := ⟨hseq.frozen, h⟩
  exact (hm.step hst).residual
end

section
/-! SUPPORT. O58: latched causes, PUMP_RUN and the step in hand. -/

namespace Sys2Proof.Machine

variable {s : State}

/-! ## PUMP_RUN through a phase change -/

/-- The phases whose entry stops PU's pump (R18 to R26). -/
def Phase.stopsPump : Phase → Bool
  | .paused | .stopping | .tripped => true
  | _ => false

/-- The entry actions leave the pump alone but at PU, and there but in the phases that drive or stop it. -/
theorem State.entryActions_noPump (old : Phase) (n r : Nat)
    (h : s.hasRole .pu = true → s.pc.phase.pumpOn = false ∧ s.pc.phase.stopsPump = false) :
    Keeps (entryParts.erase .pump) s (s.entryActions old n r) := by
  have notPu {p : Phase} (hp : s.pc.phase = p) (hd : p.pumpOn = true ∨ p.stopsPump = true) :
      ¬ s.hasRole .pu = true := fun hpu => by
    obtain ⟨h1, h2⟩ := h hpu
    rw [hp] at h1 h2
    rcases hd with hd | hd
    · exact Bool.noConfusion (h1.symm.trans hd)
    · exact Bool.noConfusion (h2.symm.trans hd)
  cases hp : s.pc.phase
  case idle =>
    rw [State.entryActions_idle hp]
    have hclear : Keeps (entryParts.erase .pump) s s.clearRecord := s.clearRecord_keeps.mono (by decide)
    exact Keeps.ite (hclear.trans (s.clearRecord.excludeTanks_keeps.mono (by decide))) hclear
  case lineup =>
    rw [State.entryActions_lineup hp]
    exact (s.openRecord_keeps n r).mono (by decide)
  case opening =>
    rw [State.entryActions_opening hp]
    have htanks : Keeps (entryParts.erase .pump) s s.openTanks :=
      (s.beginReceipt_keeps.mono (by decide)).trans
        ((State.eachChannel_keeps State.openChannel_keeps _ _).mono (by decide))
    exact Keeps.ite (s.startCounting_keeps.mono (by decide)) (Keeps.iteSelf htanks)
  case starting =>
    rw [State.entryActions_starting hp, if_neg (notPu hp (.inl rfl))]
    exact .refl _ _
  case pumping =>
    rw [State.entryActions_pumping hp, if_neg (notPu hp (.inl rfl))]
    exact .refl _ _
  case topping =>
    rw [State.entryActions_topping hp, if_neg (notPu hp (.inl rfl))]
    exact .refl _ _
  case paused =>
    rw [State.entryActions_paused hp, if_neg (notPu hp (.inr rfl))]
    exact .refl _ _
  case stopping =>
    rw [State.entryActions_stopping hp, if_neg (notPu hp (.inr rfl))]
    exact .refl _ _
  case closing =>
    rw [State.entryActions_closing hp]
    have hend : Keeps (entryParts.erase .pump) s (if old = .opening then s.setExternalEnd else s) :=
      Keeps.iteSelf (s.setExternalEnd_keeps.mono (by decide))
    exact hend.trans (Keeps.iteSelf ((State.closeChannel_keeps _ _).mono (by decide)))
  case ended =>
    rw [State.entryActions_ended hp]
    exact s.forceSample_keeps.mono (by decide)
  case tripped =>
    rw [State.entryActions_tripped hp]
    have hfield : Keeps (entryParts.erase .pump) s s.tripField := by
      unfold State.tripField
      rw [if_neg (notPu hp (.inr rfl))]
      exact Keeps.iteSelf (s.pendAll_keeps.mono (by decide))
    have hrecord (u : State) : Keeps (entryParts.erase .pump) u (u.tripRecord old) :=
      Keeps.ite ((u.markTrip_keeps.mono (by decide)).trans ((State.handEndKind_keeps _ _).mono (by decide)))
        (u.markTrip_keeps.mono (by decide))
    exact (hfield.trans (hrecord _)).trans (Keeps.iteSelf ((State.setExternalEnd_keeps _).mono (by decide)))

/-- R94: PUMP_RUN stays through a phase change but at PU, and there but in the phases that drive or stop the pump. -/
theorem State.changePhase_noPump {p : Phase} (n r : Nat)
    (h : s.hasRole .pu = true → p.pumpOn = false ∧ p.stopsPump = false) :
    (s.changePhase p n r).vp.pumpRun = s.vp.pumpRun := by
  have hentry := (s.left p).entryActions_noPump s.pc.phase n r (by rw [s.left_hasRole, s.left_phase]; exact h)
  obtain ⟨-, -, -, hleft, -⟩ := (s.left_from p).part .pump (by decide)
  obtain ⟨-, -, -, hactions, -⟩ := hentry.part .pump (by decide)
  obtain ⟨-, -, -, hlast, -⟩ := (s.changePhase_from p n r).part .pump (by decide)
  exact hlast.trans (hactions.trans hleft)

/-- R96: at PU the entry into PAUSED, STOPPING or TRIPPED switches PUMP_RUN off. -/
theorem State.changePhase_stopsPump {p : Phase} (n r : Nat) (hpu : s.hasRole .pu = true) (hp : p.stopsPump = true) :
    (s.changePhase p n r).vp.pumpRun = false := by
  cases p
  case paused => exact (s.changePhase_paused n r hpu).1.1
  case stopping => exact (s.changePhase_stopping n r hpu).1.1
  case tripped => exact s.changePhase_tripped_pump n r hpu
  all_goals exact Bool.noConfusion hp

/-- A step from a pumping phase leads to another or stops the pump. -/
theorem Phase.stepsTo_of_pumpOn {p q : Phase} (h : p.stepsTo q = true) (hp : p.pumpOn = true) :
    q.pumpOn = true ∨ q.stopsPump = true := by
  revert h hp
  cases p <;> cases q <;> decide

/-! ## The three facts -/

/-- O58: the three facts together. -/
structure TripAndPump (s : State) : Prop where
  latched : LatchedMeansTripped s
  run : RunMeansPumping s
  inHand : InHandAtPu s

theorem TripAndPump.gist {t : State} (h : TripAndPump s) (hg : t.gist = s.gist) : TripAndPump t := by
  have hstation : t.pc.station = s.pc.station := congrArg Gist.station hg
  have hphase : t.pc.phase = s.pc.phase := congrArg Gist.phase hg
  have hhand : t.pc.inHand.isSome = s.pc.inHand.isSome := congrArg Gist.inHand hg
  have hrole : t.role = s.role := congrArg Gist.role hg
  have hlatched : t.tu.latched = s.tu.latched := congrArg Gist.latched hg
  have hrun : t.vp.pumpRun = s.vp.pumpRun := congrArg Gist.pumpRun hg
  have hrunning : t.running = s.running := by simp only [State.running, hstation]
  have hpu : t.runningPu = s.runningPu := by simp only [State.runningPu, State.hasRole, hrunning, hrole]
  obtain ⟨h1, h2, h3⟩ := h
  unfold LatchedMeansTripped at h1
  unfold RunMeansPumping at h2
  unfold InHandAtPu at h3
  rw [← hlatched, ← hrunning, ← hphase] at h1
  rw [← hrun, ← hpu, ← hphase] at h2
  rw [← hhand, ← hpu] at h3
  exact ⟨h1, h2, h3⟩

/-- Nothing latched, PUMP_RUN off, no step in hand. -/
theorem TripAndPump.of_quiet (hl : s.tu.latched = []) (hr : s.vp.pumpRun = false) (hi : s.pc.inHand.isSome = false) :
    TripAndPump s where
  latched h := absurd hl h
  run h := Bool.noConfusion (hr.symm.trans h)
  inHand h := Bool.noConfusion (hi.symm.trans h)

theorem State.not_runningPu (hr : s.running = false) : s.runningPu = false := by simp [State.runningPu, hr]

/-- R60, R94, R9: outside RUNNING nothing is latched, PUMP_RUN is off and no step is in hand. -/
theorem TripAndPump.quiet (h : TripAndPump s) (hr : s.running = false) :
    s.tu.latched = [] ∧ s.vp.pumpRun = false ∧ s.pc.inHand.isSome = false := by
  have hnpu := State.not_runningPu hr
  refine ⟨?_, ?_, ?_⟩
  · by_contra hl
    exact Bool.noConfusion (hr.symm.trans (h.latched hl).1)
  · exact Bool.eq_false_iff.2 fun hrun => Bool.noConfusion (hnpu.symm.trans (h.run hrun).1)
  · exact Bool.eq_false_iff.2 fun hi => Bool.noConfusion (hnpu.symm.trans (h.inHand hi))

/-- The three facts after a phase change at a RUNNING station: into TRIPPED, or along the step table with nothing
latched. -/
theorem TripAndPump.changePhase {p : Phase} (n r : Nat) (hr : s.running = true) (hrun : RunMeansPumping s)
    (hhand : InHandAtPu s) (hp : p = .tripped ∨ (s.pc.phase.stepsTo p = true ∧ s.tu.latched = [])) :
    TripAndPump (s.changePhase p n r) := by
  have hk := s.changePhase_keeps p n r
  obtain ⟨hphase, -, hinHand⟩ := s.changePhase_phase p n r
  obtain ⟨-, hlatched, -⟩ := hk.part .tripRecord (by decide)
  have hrunning : (s.changePhase p n r).running = true := (hk.running (by decide)).trans hr
  have hpu : (s.changePhase p n r).runningPu = s.runningPu := by
    have hrole := hk.role (by decide)
    simp only [State.runningPu, State.hasRole, hrole, hrunning, hr]
  refine ⟨fun hl => ⟨hrunning, ?latched⟩, fun ht => ?run, fun hi => ?inHand⟩
  case latched =>
    rw [hphase]
    rcases hp with hp | ⟨-, hempty⟩
    · exact hp
    · exact absurd (hlatched.trans hempty) hl
  case run =>
    have hdrives : ∀ hpump : s.hasRole .pu = true, p.pumpOn = true := fun hpump => by
      have hstops : p.stopsPump = false := Bool.eq_false_iff.2 fun hstop =>
        Bool.noConfusion ((s.changePhase_stopsPump n r hpump hstop).symm.trans ht)
      by_contra hoff
      rw [s.changePhase_noPump n r fun _ => ⟨Bool.eq_false_iff.2 hoff, hstops⟩] at ht
      rcases hp with rfl | ⟨hstep, -⟩
      · exact Bool.noConfusion hstops
      · rcases Phase.stepsTo_of_pumpOn hstep (hrun ht).2 with hq | hq
        · exact hoff hq
        · exact Bool.noConfusion (hstops.symm.trans hq)
    have hpump : s.hasRole .pu = true := by
      by_contra hno
      rw [s.changePhase_noPump n r fun h => absurd h hno] at ht
      exact hno ((s.runningPu_iff.1 (hrun ht).1).2)
    rw [hpu, hphase]
    exact ⟨s.runningPu_iff.2 ⟨hr, hpump⟩, hdrives hpump⟩
  case inHand =>
    rw [hpu]
    rw [hinHand] at hi
    split at hi
    · rename_i hpump
      exact s.runningPu_iff.2 ⟨hr, hpump⟩
    · exact hhand hi

/-- R65: the three facts after a cause joins the set and TRIPPED is entered. -/
theorem TripAndPump.trip (c : Cause) (d : Option Nat) (hr : s.running = true) (h : TripAndPump s) :
    TripAndPump (s.addCause c d).enterTripped := by
  have hk := s.addCause_keeps c d
  have hrunning : (s.addCause c d).running = true := (hk.running (by decide)).trans hr
  obtain ⟨hphase, hhand, -⟩ := hk.part .phase (by decide)
  obtain ⟨-, -, -, hrun, -⟩ := hk.part .pump (by decide)
  have hpu : (s.addCause c d).runningPu = s.runningPu := by
    simp only [State.runningPu, State.hasRole, hk.role (by decide), hrunning, hr]
  have h2 : RunMeansPumping (s.addCause c d) := by
    unfold RunMeansPumping
    rw [hrun, hpu, hphase]
    exact h.run
  have h3 : InHandAtPu (s.addCause c d) := by
    unfold InHandAtPu
    rw [hhand, hpu]
    exact h.inHand
  unfold State.enterTripped
  split
  · rename_i htripped
    exact ⟨fun _ => ⟨hrunning, htripped⟩, h2, h3⟩
  · exact .changePhase 0 0 hrunning h2 h3 (.inl rfl)

theorem TripAndPump.clear (h : TripAndPump s) : TripAndPump s.clearTripRecord := by
  obtain ⟨-, hlatched, -⟩ := s.clearTripRecord_cleared
  have hk := s.clearTripRecord_keeps
  obtain ⟨hphase, hhand, -⟩ := hk.part .phase (by decide)
  obtain ⟨-, -, -, hrun, -⟩ := hk.part .pump (by decide)
  have hpu : s.clearTripRecord.runningPu = s.runningPu := by
    simp only [State.runningPu, State.hasRole, hk.role (by decide), hk.running (by decide)]
  refine ⟨fun hl => absurd hlatched hl, ?_, ?_⟩
  · unfold RunMeansPumping
    rw [hrun, hpu, hphase]
    exact h.run
  · unfold InHandAtPu
    rw [hhand, hpu]
    exact h.inHand

theorem TripAndPump.stable : Stable TripAndPump where
  gist := TripAndPump.gist
  drive _ h := ⟨h.latched, h.run, h.inHand⟩
  letGo h := ⟨h.latched, h.run, nofun⟩
  clear := TripAndPump.clear
  trip := TripAndPump.trip
  changePhase n r hr hl h := by
    refine .changePhase n r hr h.run h.inHand (hl.imp_right fun ⟨hstep, hempty⟩ => ⟨hstep, ?_⟩)
    by_contra hlatched
    exact hlatched (hempty (h.latched hlatched).2)
  offline _ hr h := by
    obtain ⟨hl, -, hi⟩ := h.quiet hr
    exact .of_quiet hl rfl hi
  begins hj h := by
    obtain ⟨hl, hrun, hi⟩ := h.quiet (State.not_running_of_joining hj)
    exact .of_quiet hl hrun hi
  pulse _ _ h := ⟨h.latched, h.run, h.inHand⟩

/-- R186: before the setup is frozen the station does not run. -/
theorem SequenceOk.not_running (h : SequenceOk s) (hs : s.sl.step ≠ .frozen) : s.running = false := by
  by_contra hr
  exact hs (h.frozen (.inr (by simpa [State.running] using hr)))

theorem TripAndPump.step {t : State} (hseq : SequenceOk s) (h : TripAndPump s) (hst : Machine.step s = .next t) :
    TripAndPump t := by
  have hquiet {p : SeqStep} (hs : s.sl.step = p) (hp : p ≠ .frozen) := h.quiet (hseq.not_running (hs ▸ hp))
  refine stable.step_of_startUp h (.of_quiet rfl rfl rfl) (fun hs f => ?reject) (fun hs sn rl => ?straps)
    (fun hs l r _ _ => ?freeze) hst
  case reject =>
    obtain ⟨hl, -, hi⟩ := hs.elim (fun hs => hquiet hs nofun) fun hs => hquiet hs nofun
    exact .of_quiet hl rfl hi
  case straps =>
    obtain ⟨hl, hrun, hi⟩ := hquiet hs nofun
    exact .of_quiet hl hrun hi
  case freeze =>
    obtain ⟨hl, hrun, hi⟩ := hquiet hs nofun
    exact .of_quiet hl hrun hi

end Sys2Proof.Machine

open Sys2Proof Sys2Proof.Machine

/-- Settles O58: the three facts are kept by the shared operations, and so by every command; outside RUNNING, where
start-up works, they say that nothing is latched, running or in hand. -/
theorem tripAndPumpKept : Obligations.TripAndPumpKept := by
  intro s t hseq hlatched hrun hhand hst
  obtain ⟨h1, h2, h3⟩ := TripAndPump.step hseq ⟨hlatched, hrun, hhand⟩ hst
  exact ⟨h1, h2, h3⟩
end

section
/-! SUPPORT. The acknowledge (R75, R78) and the cadence toggle (R79). -/

namespace Sys2Proof.Machine

variable {s : State}

/-! ## The acknowledge -/

/-- R75: an acknowledge drops the CLEAR-NEW entries and leaves every other ACTIVE-ACKED. -/
theorem alarmAcknowledge_set (set : List AlarmEntry) :
    (alarmAcknowledge set).1
      = (set.filter fun a => a.state != .clearNew).map fun a => ⟨a.key, .activeAcked⟩ := by
  induction set with
  | nil => rfl
  | cons a set ih =>
    obtain ⟨key, state⟩ := a
    cases state <;> simp [alarmAcknowledge, ih]

/-- R75: with no new entry an acknowledge leaves the set. -/
theorem alarmAcknowledge_acked {set : List AlarmEntry} (h : ∀ a ∈ set, a.state = .activeAcked) :
    (alarmAcknowledge set).1 = set := by
  induction set with
  | nil => rfl
  | cons a set ih =>
    have ha : a.state = .activeAcked := h a List.mem_cons_self
    simp [alarmAcknowledge, ha, ih fun b hb => h b (List.mem_cons_of_mem _ hb)]

/-- R79: HORN is off where every entry is ACTIVE-ACKED. -/
theorem hornCadence_acked {set : List AlarmEntry} (h : ∀ a ∈ set, a.state = .activeAcked) : hornCadence set = .off := by
  have hnew : (set.any fun a => a.state == .activeNew) = false :=
    List.any_eq_false.2 fun a ha => by simp [h a ha]
  have htrip : (set.any fun a => a.key == .trip && a.state == .activeNew) = false :=
    List.any_eq_false.2 fun a ha => by simp [h a ha]
  simp [hornCadence, hnew, htrip]

/-- R78: the alarm set and HORN after an acknowledge. -/
structure Acknowledged (s t : State) : Prop where
  set : t.an.set = (s.an.set.filter fun a => a.state != .clearNew).map fun a => ⟨a.key, .activeAcked⟩
  acked : (∀ a ∈ s.an.set, a.state = .activeAcked) → t.an.set = s.an.set
  horn : t.an.horn.cadence = .off

theorem State.acknowledge_acknowledged (s : State) : Acknowledged s s.acknowledge where
  set := alarmAcknowledge_set s.an.set
  acked := alarmAcknowledge_acked
  horn := by
    refine (Sounding.take_cadence _ _).trans (hornCadence_acked fun a ha => ?_)
    rw [alarmAcknowledge_set] at ha
    obtain ⟨b, -, rfl⟩ := List.mem_map.1 ha
    rfl

theorem State.acknowledge_onward (s : State) : Onward s s.acknowledge := s.drive_onward _ _

/-! ## ACK_IN -/

theorem execAckInChange_same {on : Bool} (h : s.inputs.ack = on) : exec (.ackInChange on) s = .next s :=
  congrArg Host.Outcome.next (if_pos h)

/-- R78: ACK_IN going off, and ACK_IN in STARTUP. -/
theorem execAckInChange_input {on : Bool} (h : s.inputs.ack ≠ on) (hn : on = false ∨ s.pc.station = .startup) :
    exec (.ackInChange on) s = .next { s with inputs := { s.inputs with ack := on } } := by
  refine congrArg Host.Outcome.next ((if_neg h).trans (if_neg ?_))
  rcases hn with hn | hn <;> simp [hn]

/-- R78: ACK_IN going on. -/
theorem execAckInChange_on (h : s.inputs.ack = false) (hn : s.pc.station ≠ .startup) :
    exec (.ackInChange true) s = .next (State.acknowledge { s with inputs := { s.inputs with ack := true } }) := by
  refine congrArg Host.Outcome.next ((if_neg ?_).trans (if_pos ?_))
  · simp [h]
  · simp [hn]

/-! ## SILENCE -/

/-- R78, R198: SILENCE taken. -/
theorem execSilence_taken (hl : s.lineFits = true) (hn : s.pc.station ≠ .startup) :
    exec .silence s = .next (s.acknowledge.answerTaken .silence) :=
  congrArg Host.Outcome.next ((if_pos hl).trans (if_neg hn))

/-- R78, R198: SILENCE in STARTUP. -/
theorem execSilence_refused (hl : s.lineFits = true) (hn : s.pc.station = .startup) :
    exec .silence s = .next (s.refuse .silence .state) :=
  congrArg Host.Outcome.next ((if_pos hl).trans (if_pos hn))

/-! ## The toggle -/

/-- R79: an output that sounds FAST or SLOW changes over. -/
theorem Sounding.toggle_alternating {o : Sounding} (h : o.cadence = .fast ∨ o.cadence = .slow) :
    o.toggle = ⟨o.cadence, !o.on, ⟨true, 0⟩⟩ := by
  have ha : o.cadence.alternates = true := by rcases h with h | h <;> rw [h] <;> rfl
  exact if_pos ha

/-- R79: an output that is off or STEADY stays. -/
theorem Sounding.toggle_steady {o : Sounding} (h : o.cadence = .off ∨ o.cadence = .steady) : o.toggle = o := by
  have ha : ¬ o.cadence.alternates = true := by rcases h with h | h <;> rw [h] <;> exact Bool.false_ne_true
  exact if_neg ha

theorem State.putAlarms_frame (s : State) (a : Annunciator) : Frame [.alarms] s { s with an := a } := by
  intro p hp
  cases p <;> first | exact absurd (by decide) hp | simp [Part.same]

end Sys2Proof.Machine

open Sys2Proof Sys2Proof.Machine

/-- Settles O35: each output toggles alone, by its cadence. -/
theorem cadenceToggles : Obligations.CadenceToggles := by
  intro s o
  cases o with
  | horn =>
    exact ⟨_, rfl, rfl, fun _ => ⟨rfl, Sounding.toggle_alternating, Sounding.toggle_steady⟩, nofun, s.putAlarms_frame _⟩
  | beacon =>
    exact ⟨_, rfl, rfl, nofun, fun _ => ⟨rfl, Sounding.toggle_alternating, Sounding.toggle_steady⟩, s.putAlarms_frame _⟩

/-- Settles O34: both commands come to the one acknowledge; SILENCE gives its ANSWER after the events. -/
theorem acknowledge : Obligations.Acknowledge := by
  intro s c hc hn
  refine ⟨?taken, fun u hu hl hq => ?refused, fun u hu => execAckInChange_same hu,
    fun u hu => execAckInChange_input (by simp [hu]) (.inl rfl),
    fun u hu hst => execAckInChange_input (by simp [hu]) (.inr hst)⟩
  case taken =>
    rcases hc with ⟨rfl, hack⟩ | ⟨rfl, hl, hq⟩
    · have hin := s.putInputs_keeps { s.inputs with ack := true }
      have hacked := State.acknowledge_acknowledged { s with inputs := { s.inputs with ack := true } }
      have hk := State.acknowledge_keeps { s with inputs := { s.inputs with ack := true } }
      exact ⟨_, execAckInChange_on hack hn, hacked.set, hacked.acked, hacked.horn, nofun,
        fun _ => ⟨hk.part .inputs (by decide), ((hin.mono (by decide)).trans (hk.mono (by decide))).frame⟩⟩
    · have hacked := s.acknowledge_acknowledged
      have hk := s.acknowledge_keeps
      refine ⟨_, execSilence_taken hl hn, hacked.set, hacked.acked, hacked.horn, fun _ => ⟨?_, ?_⟩, nofun⟩
      · exact (State.report_newest (.answer (some .silence) none (.decided .taken) .none) nofun hl hk.events
          (s.acknowledge_onward.queue hq)).1
      · exact hk.frame.trans ((State.report_frame _ _).mono (by decide))
  case refused =>
    exact ⟨_, execSilence_refused hl hu, State.report_read _ nofun hl hq⟩
end

section
/-! SUPPORT. O22: a TRIP frame taken (R69, R70). -/

namespace Sys2Proof.Machine

variable {s : State} {l : List Byte} {h : Header} {c : Option Cause} {o : Nat}

/-- A TRIP as `readFrame` gives it. -/
def tripFrame (h : Header) (c : Option Cause) (o : Nat) : Received := ⟨.trip, h, .trip c o⟩

theorem State.offerTrip_trip (hg : h.gen = s.pc.gen) : s.offerTrip (tripFrame h c o) = s.honour h.sender c o :=
  if_pos hg

/-- R70: a TRIP under another generation. -/
theorem State.offerTrip_otherGen (hg : h.gen ≠ s.pc.gen) : s.offerTrip (tripFrame h c o) = s := if_neg hg

/-- R29: a TRIP that is no clash: the entry, the Trip Unit, the roster change. -/
theorem State.execRosterTakeFrame_trip (hr : s.running = true) (hd : s.lc.delivery = some l)
    (hread : readFrame l = some (tripFrame h c o)) (hc : s.isClash h = false) :
    exec .rosterTakeFrame s
      = .next (((s.enterFrame (tripFrame h c o)).offerTrip (tripFrame h c o)).rosterChanged).delivered := by
  rw [State.execRosterTakeFrame_frame (State.running_listening hr) hd, State.takeFrame_running hr hread,
    State.takeRunning_other hc rfl]
  rfl

/-- R26, R69: a remote trip that takes PU into TRIPPED turns PUMP_RUN off. -/
theorem State.honour_pumpRun (n : Nat) (hpu : s.hasRole .pu = true) (hp : s.pc.phase ≠ .tripped) :
    (s.honour n c o).vp.pumpRun = false := by
  have hn : ¬ (s.tu.firstOut.isSome && s.pc.phase == .tripped) = true := by simp [hp]
  unfold State.honour
  rw [if_neg hn]
  dsimp only
  rw [if_neg hp]
  have hask := State.askStatusIf_keeps { s with tu := { s.tu with firstOut := some (s.tu.firstOut.getD
    (FirstOut.mk c .remoteOrigin (if c = none ∨ o = 0 then n else o) none)) } } s.tu.firstOut.isNone
  generalize (State.askStatusIf _ _) = u at *
  have henter : u.enterTripped = u.changePhase .tripped 0 0 :=
    if_neg (by rw [(hask.part .phase (by decide)).1]; exact hp)
  rw [henter]
  have hafter (e : Event) : Keeps (watchParts ++ afterParts) (u.changePhase .tripped 0 0)
      ((u.changePhase .tripped 0 0).emit e).afterTrip.watch :=
    (((State.emit_keeps _ _).mono (by decide)).trans ((State.afterTrip_keeps _).mono (by decide))).trans
      ((State.watch_keeps _).mono (by decide))
  obtain ⟨-, -, -, hrun, -⟩ := (hafter _).part .pump (by decide)
  exact hrun.trans (State.changePhase_tripped_pump 0 0 ((hask.hasRole (by decide) _).trans hpu))

/-- R26, R69: a TRIP of this generation, before the slots are moved on. -/
theorem State.trip_honoured (hr : s.running = true) (hg : h.gen = s.pc.gen) :
    ((s.enterFrame (tripFrame h c o)).offerTrip (tripFrame h c o)).rosterChanged.pc.phase = .tripped
      ∧ ((s.enterFrame (tripFrame h c o)).offerTrip (tripFrame h c o)).rosterChanged.tu.firstOut
          = some (s.tu.firstOut.getD ⟨c, .remoteOrigin, if c = none ∨ o = 0 then h.sender else o, none⟩)
      ∧ (s.hasRole .pu = true → s.pc.phase ≠ .tripped →
          ((s.enterFrame (tripFrame h c o)).offerTrip (tripFrame h c o)).rosterChanged.vp.pumpRun = false) := by
  have hk := s.enterFrame_keeps (tripFrame h c o)
  obtain ⟨hfirst, -, -⟩ := hk.part .tripRecord (by decide)
  obtain ⟨hsame, -, -⟩ := hk.part .phase (by decide)
  rw [State.offerTrip_trip (s := s.enterFrame _) hg, ← hfirst, ← hsame, ← hk.hasRole (by decide)]
  have hrun := (hk.running (by decide)).trans hr
  generalize s.enterFrame (tripFrame h c o) = x at *
  have hphase := x.honour_phase h.sender c o
  have hstays := State.rosterChanged_tripped (((x.honour_keeps _ _ _).running (by decide)).trans hrun) hphase
  obtain ⟨hkept, -⟩ := hstays.keeps.part .tripRecord (by decide)
  obtain ⟨-, -, -, hpump, -⟩ := hstays.keeps.part .pump (by decide)
  exact ⟨hstays.phase.trans hphase, hkept.trans (x.honour_firstOut _ _ _),
    fun hpu hp => hpump.trans (State.honour_pumpRun _ hpu hp)⟩

/-- R70: a TRIP of another generation at a follower with no standing order is a frame heard, and no more. -/
theorem State.trip_disregarded (hr : s.running = true) (hpu : s.hasRole .pu = false) (ho : s.pc.order = none)
    (hg : h.gen ≠ s.pc.gen) :
    Keeps (rosterParts ++ [.roster]) s
      ((s.enterFrame (tripFrame h c o)).offerTrip (tripFrame h c o)).rosterChanged := by
  have hk := s.enterFrame_keeps (tripFrame h c o)
  have horder := State.orderDue_none (s := s.enterFrame (tripFrame h c o)) ho
  rw [State.offerTrip_otherGen (s := s.enterFrame _) hg, State.rosterChanged_follower ((hk.running (by decide)).trans hr)
    ((hk.hasRole (by decide) .pu).trans hpu), State.runOrder_notDue horder]
  exact (hk.mono (by decide)).trans ((State.rosterRest_keeps _).mono (by decide))

end Sys2Proof.Machine

open Sys2Proof Sys2Proof.Machine

/-- Settles O22: the trip is honoured before the roster change, which finds the station in TRIPPED; under another
generation only the roster change is left. -/
theorem remoteTripHonoured : Obligations.RemoteTripHonoured := by
  intro s l h c o hr hd hread hc
  have hexec := State.execRosterTakeFrame_trip hr hd hread hc
  refine ⟨fun hg => ?honoured, fun hg hpu ho => ?disregarded⟩
  case honoured =>
    obtain ⟨hphase, hfirst, hpump⟩ := State.trip_honoured (c := c) (o := o) hr hg
    have hk := s.changed_keeps (tripFrame h c o)
    generalize ((s.enterFrame (tripFrame h c o)).offerTrip (tripFrame h c o)).rosterChanged = y at *
    have hslots := y.delivered_keeps
    obtain ⟨hslotPhase, -, -⟩ := hslots.part .phase (by decide)
    obtain ⟨hslotFirst, -, -⟩ := hslots.part .tripRecord (by decide)
    obtain ⟨-, -, -, hslotRun, -⟩ := hslots.part .pump (by decide)
    refine ⟨_, hexec, hslotPhase.trans hphase, fun hn => ?_, fun f hf => ?_, fun hpu hp => hslotRun.trans (hpump hpu hp),
      (hk.frame.mono (by decide)).trans (hslots.frame.mono (by decide))⟩
    · rw [hslotFirst, hfirst, hn]
      rfl
    · rw [hslotFirst, hfirst, hf]
      rfl
  case disregarded =>
    have hk := State.trip_disregarded (c := c) (o := o) hr hpu ho hg
    have hall := (hk.mono (U := rosterParts ++ [.roster, .receive]) (by decide)).trans
      ((State.delivered_keeps _).mono (by decide))
    obtain ⟨hphase, -, -⟩ := hall.part .phase (by decide)
    obtain ⟨hfirst, hlatched, -⟩ := hall.part .tripRecord (by decide)
    exact ⟨_, hexec, hphase, hfirst, hlatched, hall.frame.mono (by decide)⟩
end

section
/-! SUPPORT. O33: what a latch does beside the trip record: the TRIP frame, the pump, the hold-off, the trip mark (R26,
R65, R90, R148); the CAUSE flag (R64). -/

namespace Sys2Proof.Machine

variable {s : State} {c : Cause} {d : Option Nat}

/-! ## The CAUSE flag -/

/-- Asking for a STATUS changes the Link Controller alone. -/
theorem State.askStatusIf_eq (s : State) (b : Bool) : ∃ l, s.askStatusIf b = { s with lc := l } := by
  unfold State.askStatusIf State.askStatus State.ask
  split
  · split <;> exact ⟨_, rfl⟩
  · exact ⟨_, rfl⟩

theorem State.watchFlags_causeActive (s : State) (c : Cause) :
    s.watchTimers.watchFlags.causeActive c = s.causeActive c := by
  obtain ⟨l, hl⟩ := State.askStatusIf_eq
    { s.watchTimers with pc := { s.watchTimers.pc with
        ready := s.watchTimers.readyNow, path := s.watchTimers.pathNow, closed := s.watchTimers.closedNow } }
    (s.watchTimers.pc.ready != s.watchTimers.readyNow || s.watchTimers.pc.path != s.watchTimers.pathNow
      || s.watchTimers.pc.closed != s.watchTimers.closedNow)
  have hflags : s.watchTimers.watchFlags = _ := hl
  rw [hflags]
  cases c <;> rfl

/-- R64: the CAUSE flag as the levels are watched. -/
theorem State.watch_cause (s : State) : s.watch.tu.cause = s.causeFlag := by
  have hflag : s.watch.tu.cause = s.watchTimers.watchFlags.causeFlag := by
    simp [State.watch, State.watchCause, State.watchAlarms, State.sweepAlarms]
  obtain ⟨-, htimers, -⟩ := s.watchTimers_keeps.part .tripRecord (by decide)
  obtain ⟨-, hflags, -⟩ := s.watchTimers.watchFlags_keeps.part .tripRecord (by decide)
  rw [hflag]
  unfold State.causeFlag
  rw [hflags, htimers]
  simp only [State.watchFlags_causeActive]

/-- R64: MANUAL latched with ESD_IN on. -/
theorem State.watch_cause_manual (hl : s.hasLatched .manual = true) (he : s.inputs.esd = true) :
    s.watch.tu.cause = true := by
  obtain ⟨l, hm, hc⟩ := List.any_eq_true.1 hl
  rw [s.watch_cause]
  refine List.any_eq_true.2 ⟨l, hm, ?_⟩
  rw [eq_of_beq hc]
  exact he

/-! ## The TRIP frame -/

theorem Onward.tripPlaced {t : State} (h : Onward s t) (hs : s.lc.trip.isSome = true) : t.lc.trip.isSome = true := by
  rcases h.trip with ht | ⟨ht, -⟩
  · rw [ht]
    exact hs
  · exact ht

/-- R65: a latch into the empty set asks for a TRIP frame. -/
theorem State.latch_trip (d : Option Nat) (hr : s.running = true) (hl : s.tu.latched = []) :
    (s.latch c d).lc.trip.isSome = true := by
  have hnot : ¬ s.hasLatched c = true := by simp [State.hasLatched, hl]
  have hempty : s.tu.latched.isEmpty = true := by rw [hl]; rfl
  have hrun := ((s.addCause_enterTripped_keeps c d).running (by decide)).trans hr
  have hasked : (((s.addCause c d).enterTripped.announce c d s.tu.latched.isEmpty s.tu.firstOut.isNone)).lc.trip.isSome
      = true := by
    rw [hempty]
    exact State.ask_trip_placed hrun
  unfold State.latch
  rw [if_neg hnot]
  exact ((Onward.ite (.refl _) (State.afterTrip_onward _)).trans (State.watch_onward _)).tripPlaced hasked

/-! ## The pump -/

/-- R26: TRIPPED entry at PU beside the record and the tanks is the pump stop. -/
theorem State.entryActions_tripped_from (old : Phase) (n r : Nat) (hp : s.pc.phase = .tripped)
    (hpu : s.hasRole .pu = true) :
    Keeps [.record, .tanks, .frames, .reports, .pressure] { s with vp := s.vp.stopPump } (s.entryActions old n r) := by
  have hfield : s.tripField = s.stopPump := if_pos hpu
  have hrecord (u : State) : Keeps [.record, .tanks, .frames, .reports, .pressure] u (u.tripRecord old) :=
    Keeps.ite ((u.markTrip_keeps.mono (by decide)).trans ((State.handEndKind_keeps _ _).mono (by decide)))
      (u.markTrip_keeps.mono (by decide))
  rw [State.entryActions_tripped hp, hfield]
  exact ((s.stopPump_from.mono (by decide)).trans (hrecord _)).trans
    (Keeps.iteSelf ((State.setExternalEnd_keeps _).mono (by decide)))

/-- R26, R96: at PU TRIPPED entry stops the pump. -/
theorem State.changePhase_tripped_stops (n r : Nat) (hpu : s.hasRole .pu = true) :
    PumpStops s (s.changePhase .tripped n r) := by
  have hentry := (s.left .tripped).entryActions_tripped_from s.pc.phase n r (s.left_phase _)
    ((s.left_hasRole _ _).trans hpu)
  exact .of_stopPump ((s.left_from .tripped).part .pump (by decide))
    (Part.same_trans (hentry.part .pump (by decide)) ((s.changePhase_from .tripped n r).part .pump (by decide)))

/-- R26, R65: at PU a latch that enters TRIPPED switches PUMP_RUN and RATE_LOW off. -/
theorem State.latch_stopsPump (d : Option Nat) (hl : s.hasLatched c = false) (hp : s.pc.phase ≠ .tripped)
    (hpu : s.hasRole .pu = true) : (s.latch c d).vp.pumpRun = false ∧ (s.latch c d).vp.rateLow = false := by
  obtain ⟨-, -, -, hrun, hlow⟩ := (State.latch_from d hl hp).1.part .pump (by decide)
  obtain ⟨hoff, hlowOff, -⟩ :=
    (s.addCause c d).changePhase_tripped_stops 0 0 (((s.addCause_keeps c d).hasRole (by decide) _).trans hpu)
  exact ⟨hrun.trans hoff, hlow.trans hlowOff⟩

/-! ## The hold-off -/

/-- R90: the close hold-off has begun. -/
def State.holdsOff (s : State) : Prop := s.vp.holdOff = .holding ∨ s.vp.holdOff = .released

theorem State.holdsOff_of_same {t : State} (ht : t.vp.holdOff = s.vp.holdOff) (h : s.holdsOff) : t.holdsOff := by
  unfold State.holdsOff
  rw [ht]
  exact h

theorem State.releaseAll_holdOff (s : State) (r : ReleaseReason) : (s.releaseAll r).vp.holdOff = .released :=
  State.eachChannel_holdOff (fun u n => u.putChannel_holdOff n _) _ _

/-- R89, R90: TRIPPED entry at BV, SV and TW. -/
theorem State.pendAll_holdsOff (s : State) : s.pendAll.holdsOff := by
  unfold State.pendAll State.releaseIfStopped
  dsimp only
  split
  · exact .inr (State.releaseAll_holdOff _ _)
  · exact .inl rfl

theorem State.followAll_holdOff (s : State) : s.followAll.vp.holdOff = s.vp.holdOff := by
  have hfollow (u : State) (n : Ch) : (u.followChannel n).vp.holdOff = u.vp.holdOff := by
    unfold State.followChannel
    dsimp only
    split
    · exact u.putChannel_holdOff n _
    · rfl
  unfold State.followAll
  split
  · exact State.eachChannel_holdOff hfollow _ s
  · rfl

theorem State.afterTrip_holdOff (s : State) : s.afterTrip.vp.holdOff = s.vp.holdOff := by
  have hconfirm (u : State) : u.confirm.vp.holdOff = u.vp.holdOff := (u.confirm_keeps.part .channels (by decide)).2.1
  have hjoin (u : State) : (u.closeChannel .n1).joinSeparation.vp.holdOff = u.vp.holdOff :=
    ((u.closeChannel .n1).joinSeparation_keeps.part .channels (by decide)).2.1.trans (u.putChannel_holdOff .n1 _)
  unfold State.afterTrip
  dsimp only
  rw [hconfirm]
  split
  · exact (hjoin _).trans s.followAll_holdOff
  · exact s.followAll_holdOff

theorem State.not_pu_of_closingRole (h : s.closingRole = true) : s.hasRole .pu = false := by
  simp only [State.closingRole, State.valveRole, State.hasRole, Bool.or_eq_true, beq_iff_eq] at h
  rcases h with (h | h) | h <;> simp [State.hasRole, h]

theorem State.changePhase_tripped_holdsOff (n r : Nat) (h : s.closingRole = true) :
    (s.changePhase .tripped n r).holdsOff := by
  have hclosing : (s.left .tripped).closingRole = true := by
    simp only [State.closingRole, State.valveRole, s.left_hasRole] at h ⊢
    exact h
  have hfield : (s.left .tripped).tripField = (s.left .tripped).pendAll := by
    unfold State.tripField
    rw [if_neg (by simp [State.not_pu_of_closingRole hclosing]), if_pos hclosing]
  have hrecord (u : State) : (u.tripRecord s.pc.phase).tripExternal.vp.holdOff = u.vp.holdOff := by
    have hmark : Keeps endParts u (u.tripRecord s.pc.phase) :=
      Keeps.ite ((u.markTrip_keeps.mono (by decide)).trans ((State.handEndKind_keeps _ _).mono (by decide)))
        (u.markTrip_keeps.mono (by decide))
    exact ((hmark.trans (Keeps.iteSelf (State.setExternalEnd_keeps _))).part .channels (by decide)).2.1
  have hentry := s.changePhase_from .tripped n r
  rw [State.entryActions_tripped (s.left_phase _), hfield] at hentry
  exact State.holdsOff_of_same ((hentry.part .channels (by decide)).2.1.trans (hrecord _)) (State.pendAll_holdsOff _)

/-- R65: outside TRIPPED a latch enters it, announces the cause, and sees to what follows. -/
theorem State.latch_eq (d : Option Nat) (hl : s.hasLatched c = false) (hp : s.pc.phase ≠ .tripped) :
    s.latch c d = (((s.addCause c d).changePhase .tripped 0 0).announce c d s.tu.latched.isEmpty
      s.tu.firstOut.isNone).afterTrip.watch := by
  have henter : (s.addCause c d).enterTripped = (s.addCause c d).changePhase .tripped 0 0 :=
    if_neg (by rw [((s.addCause_keeps c d).part .phase (by decide)).1]; exact hp)
  unfold State.latch
  rw [if_neg (by simp [hl])]
  dsimp only
  rw [if_neg hp, henter]

/-- R26, R65, R90: a latch that enters TRIPPED at BV, SV and TW begins the hold-off. -/
theorem State.latch_holdsOff (d : Option Nat) (hl : s.hasLatched c = false) (hp : s.pc.phase ≠ .tripped)
    (h : s.closingRole = true) : (s.latch c d).holdsOff := by
  have hk := s.addCause_keeps c d
  have hclosing : (s.addCause c d).closingRole = true := by
    simp only [State.closingRole, State.valveRole, hk.hasRole (by decide)] at h ⊢
    exact h
  rw [State.latch_eq d hl hp]
  have hannounced := (State.announce_keeps ((s.addCause c d).changePhase .tripped 0 0) c d s.tu.latched.isEmpty
    s.tu.firstOut.isNone).part .channels (by decide)
  refine State.holdsOff_of_same ?_ ((s.addCause c d).changePhase_tripped_holdsOff 0 0 hclosing)
  exact ((State.watch_keeps _).part .channels (by decide)).2.1.trans ((State.afterTrip_holdOff _).trans hannounced.2.1)

/-! ## The trip mark -/

/-- R148: what TRIPPED entry from `old` leaves of an OPEN record. -/
structure TripMarked (old : Phase) (r : Record) : Prop where
  mark : r.tripMark = true
  kind : old.pumpOn = true → r.endKind ≠ .none

theorem State.tripRecord_marked (old : Phase) (h : s.mr.record.state = .opened) :
    TripMarked old (s.tripRecord old).mr.record := by
  have hmark : s.markTrip.mr.record = { s.mr.record with tripMark := true } := by
    unfold State.markTrip
    rw [if_pos (s.recordOpen_iff.2 h)]
    rfl
  unfold State.tripRecord
  split
  · rw [State.handEndKind_record, hmark]
    split
    · exact ⟨rfl, fun _ => nofun⟩
    · rename_i hn
      exact ⟨rfl, fun _ hnone => hn ⟨h, hnone⟩⟩
  · rename_i hold
    rw [hmark]
    exact ⟨rfl, fun hon => absurd hon hold⟩

theorem State.setExternalEnd_tripMark (s : State) :
    s.setExternalEnd.mr.record.tripMark = s.mr.record.tripMark := by
  have hinternal (u : State) : u.judgeInternalEnd.mr.record.tripMark = u.mr.record.tripMark := by
    unfold State.judgeInternalEnd
    split <;> rfl
  have hsample (u : State) : u.judgeSample.mr.record.tripMark = u.mr.record.tripMark := by
    unfold State.judgeSample
    split <;> rfl
  have hsettle (u : State) : u.settle.mr.record = u.mr.record := u.settle_keeps.part .record (by decide)
  unfold State.setExternalEnd
  split
  · refine (hsample _).trans ((hinternal _).trans ?_)
    rw [hsettle]
    rfl
  · rfl

theorem State.tripExternal_marked {old : Phase} (h : TripMarked old s.mr.record) :
    TripMarked old s.tripExternal.mr.record := by
  unfold State.tripExternal
  split
  · exact ⟨s.setExternalEnd_tripMark.trans h.mark, fun hold => s.setExternalEnd_ends.1.endKind ▸ h.kind hold⟩
  · exact h

theorem State.changePhase_tripped_marked (n r : Nat) (h : s.mr.record.state = .opened) :
    TripMarked s.pc.phase (s.changePhase .tripped n r).mr.record := by
  have hentry := s.changePhase_from .tripped n r
  rw [State.entryActions_tripped (s.left_phase _)] at hentry
  have hrecord : (s.changePhase .tripped n r).mr.record = _ := hentry.part .record (by decide)
  have hfield : (s.left .tripped).tripField.mr.record = (s.left .tripped).mr.record := by
    have hstop (u : State) : u.stopPump.mr.record = u.mr.record := u.stopPump_from.part .record (by decide)
    have hpend (u : State) : u.pendAll.mr.record = u.mr.record := u.pendAll_keeps.part .record (by decide)
    unfold State.tripField
    split
    · exact hstop _
    · split
      · exact hpend _
      · rfl
  rw [hrecord]
  refine State.tripExternal_marked (State.tripRecord_marked _ ?_)
  rw [hfield, s.left_record]
  exact h

/-- R26, R65, R148: a latch that enters TRIPPED marks an OPEN record. -/
theorem State.latch_marked (d : Option Nat) (hl : s.hasLatched c = false) (hp : s.pc.phase ≠ .tripped)
    (h : s.mr.record.state = .opened) : TripMarked s.pc.phase (s.latch c d).mr.record := by
  have hk := s.addCause_keeps c d
  have hadded : (s.addCause c d).mr.record = s.mr.record := hk.part .record (by decide)
  have hlatch : (s.latch c d).mr.record = _ := (State.latch_from d hl hp).1.part .record (by decide)
  have hmarked := (s.addCause c d).changePhase_tripped_marked 0 0 (by rw [hadded]; exact h)
  rw [(hk.part .phase (by decide)).1] at hmarked
  rw [hlatch]
  exact hmarked

/-! ## TRIP and ESD_IN -/

/-- R61, R63: an enabled cause handed in a phase of its row latches. -/
theorem State.handCause_latches (d : Option Nat) (hr : s.running = true) (hp : c.latchesIn s.pc.phase = true)
    (he : s.tu.mask.enables c = true) : s.handCause c d = s.latch c d := by
  simp [State.handCause, State.hand, hr, hp, he]

/-- R61: MANUAL latches in every phase, and no mask disables it. -/
theorem State.handCause_manual (hr : s.running = true) : s.handCause .manual none = s.latch .manual none :=
  State.handCause_latches none hr rfl rfl

/-- R66: a cause that is latched does not latch again. -/
theorem State.latch_again (h : s.hasLatched c = true) : s.latch c d = s := if_pos h

/-- R198: TRIP at a RUNNING station with room for its report. -/
theorem execTrip_running (hl : s.lineFits = true) (hr : s.running = true) :
    exec .trip s = .next ((s.latch .manual none).answerTaken .trip) := by
  rw [← State.handCause_manual hr]
  exact congrArg Host.Outcome.next ((if_pos hl).trans (if_pos hr))

/-- R61: ESD_IN going on at a RUNNING station. -/
theorem execEsdInChange_on (he : s.inputs.esd = false) (hr : s.running = true) :
    exec (.esdInChange true) s
      = .next (State.latch { s with inputs := { s.inputs with esd := true } } .manual none).watch := by
  rw [← State.handCause_manual (s := { s with inputs := { s.inputs with esd := true } }) hr]
  exact congrArg Host.Outcome.next (if_neg (by simp [he]))

/-- R64: ESD_IN going off. -/
theorem execEsdInChange_off (he : s.inputs.esd = true) :
    exec (.esdInChange false) s = .next (State.watch { s with inputs := { s.inputs with esd := false } }) :=
  congrArg Host.Outcome.next (if_neg (by simp [he]))

/-- R26, R65, R90, R148: what the latch of MANUAL leaves. -/
structure ManualLatched (s t : State) : Prop where
  phase : t.pc.phase = .tripped
  latched : (s.tu.latched ++ [⟨.manual, none⟩]) <+: t.tu.latched
  firstOut : t.tu.firstOut = some (s.tu.firstOut.getD ⟨some .manual, .localOrigin, s.number, none⟩)
  trip : s.tu.latched = [] → t.lc.trip.isSome = true
  pump : s.pc.phase ≠ .tripped → s.hasRole .pu = true → t.vp.pumpRun = false ∧ t.vp.rateLow = false
  holdOff : s.pc.phase ≠ .tripped → s.closingRole = true → t.holdsOff
  record : s.pc.phase ≠ .tripped → s.mr.record.state = .opened → TripMarked s.pc.phase t.mr.record

theorem State.latch_manual (hr : s.running = true) (hl : s.hasLatched .manual = false) :
    ManualLatched s (s.latch .manual none) := by
  obtain ⟨hphase, hlatched, hfirst⟩ := State.latch_new none hl
  exact ⟨hphase, hlatched, hfirst, State.latch_trip none hr, State.latch_stopsPump none hl, State.latch_holdsOff none hl,
    State.latch_marked none hl⟩

/-- What neither touches the trip record, the phase, the plant nor the meter, nor withdraws the TRIP, leaves the latch of
MANUAL as it was. -/
theorem ManualLatched.keeps {T : List Part} {t u : State} (h : ManualLatched s t) (k : Frame T t u)
    (htrip : u.lc.trip = t.lc.trip ∨ u.lc.trip.isSome = true)
    (hT : decide (∀ p ∈ [Part.phase, .tripRecord, .pump, .channels, .record], p ∉ T) = true) : ManualLatched s u := by
  have hp := of_decide_eq_true hT
  have part (p : Part) (hm : p ∈ [Part.phase, .tripRecord, .pump, .channels, .record]) : p.same t u := k p (hp p hm)
  obtain ⟨hphase, -, -⟩ := part .phase (by decide)
  obtain ⟨hfirst, hlatched, -⟩ := part .tripRecord (by decide)
  obtain ⟨-, -, -, hrun, hlow⟩ := part .pump (by decide)
  obtain ⟨-, hhold, -⟩ := part .channels (by decide)
  have hrecord : u.mr.record = t.mr.record := part .record (by decide)
  refine ⟨hphase.trans h.phase, hlatched ▸ h.latched, hfirst.trans h.firstOut, fun hl => ?_, fun hn hpu => ?_,
    fun hn hc => State.holdsOff_of_same hhold (h.holdOff hn hc), fun hn ho => hrecord ▸ h.record hn ho⟩
  · rcases htrip with ht | ht
    · rw [ht]
      exact h.trip hl
    · exact ht
  · obtain ⟨h1, h2⟩ := h.pump hn hpu
    exact ⟨hrun.trans h1, hlow.trans h2⟩

/-- R198: TRIP that latches MANUAL. -/
theorem trip_latches (hr : s.running = true) (hn : s.hasLatched .manual = false) (hl : s.lineFits = true)
    (hq : s.pp.queue.length ≤ 8) :
    ∃ t, exec .trip s = .next t ∧ ManualLatched s t
      ∧ NewestReport t (.answer (some .trip) none (.decided .taken) .none) ∧ Frame cascadeParts s t := by
  have hk := s.latch_keeps .manual none
  have hreport := (s.latch .manual none).report_frame (.answer (some .trip) none (.decided .taken) .none)
  refine ⟨_, execTrip_running hl hr, (State.latch_manual hr hn).keeps hreport (.inl rfl) (by decide), ?_,
    hk.frame.trans (hreport.mono (by decide))⟩
  exact (State.report_newest (.answer (some .trip) none (.decided .taken) .none) nofun hl hk.events
    ((s.latch_onward _ _).queue hq)).1

/-- R61, R64: ESD_IN that latches MANUAL. -/
theorem esd_latches (hr : s.running = true) (hn : s.hasLatched .manual = false) (he : s.inputs.esd = false) :
    ∃ t, exec (.esdInChange true) s = .next t ∧ ManualLatched s t ∧ t.inputs = { s.inputs with esd := true }
      ∧ t.tu.cause = true ∧ Frame (cascadeParts ++ [.inputs]) s t := by
  have hin := s.putInputs_keeps { s.inputs with esd := true }
  have hon : ManualLatched s (State.latch { s with inputs := { s.inputs with esd := true } } .manual none) := by
    have h := State.latch_manual (s := { s with inputs := { s.inputs with esd := true } }) hr hn
    exact ⟨h.phase, h.latched, h.firstOut, h.trip, h.pump, h.holdOff, h.record⟩
  have hk := State.latch_keeps { s with inputs := { s.inputs with esd := true } } .manual none
  rw [execEsdInChange_on he hr]
  generalize State.latch { s with inputs := { s.inputs with esd := true } } .manual none = u at *
  have hw := u.watch_keeps
  have hinputs : u.inputs = { s.inputs with esd := true } := hk.part .inputs (by decide)
  have hmanual : u.hasLatched .manual = true :=
    List.any_eq_true.2 ⟨⟨.manual, none⟩, hon.latched.subset (by simp), rfl⟩
  refine ⟨_, rfl, hon.keeps hw.frame (u.watch_onward.trip.imp_right And.left) (by decide),
    (hw.part .inputs (by decide) : _ = _).trans hinputs, State.watch_cause_manual hmanual (by rw [hinputs]), ?_⟩
  exact (hin.frame.mono (by decide)).trans ((hk.frame.mono (by decide)).trans (hw.frame.mono (by decide)))

/-- R64: an ESD_IN level that is watched and hands nothing. -/
theorem State.watch_esd_frame (s : State) (b : Bool) :
    (State.watch { s with inputs := { s.inputs with esd := b } }).inputs = { s.inputs with esd := b }
      ∧ Frame (watchParts ++ [.inputs]) s (State.watch { s with inputs := { s.inputs with esd := b } }) := by
  have hw := State.watch_keeps { s with inputs := { s.inputs with esd := b } }
  exact ⟨hw.part .inputs (by decide),
    ((s.putInputs_keeps { s.inputs with esd := b }).frame.mono (by decide)).trans (hw.frame.mono (by decide))⟩

end Sys2Proof.Machine

open Sys2Proof Sys2Proof.Machine

/-- Settles O33: both commands come to the latch of MANUAL; once it is latched they leave the trip record alone. -/
theorem manualTrips : Obligations.ManualTrips := by
  refine ⟨fun s c hr hn hc => ?new, fun s hr hl => ⟨fun hfits hq => ?trip, fun he => ?esdOn⟩, fun s he => ?esdOff⟩
  case new =>
    rcases hc with ⟨rfl, hfits, hq⟩ | ⟨rfl, he⟩
    · obtain ⟨t, hexec, h, hnew, hframe⟩ := trip_latches hr hn hfits hq
      exact ⟨t, hexec, h.phase, h.latched, h.firstOut, h.trip, h.pump, h.holdOff,
        fun hp ho => ⟨(h.record hp ho).mark, (h.record hp ho).kind⟩,
        fun _ => ⟨hnew, hframe.part .inputs (by decide)⟩, nofun, hframe.mono (by decide)⟩
    · obtain ⟨t, hexec, h, hinputs, hcause, hframe⟩ := esd_latches hr hn he
      exact ⟨t, hexec, h.phase, h.latched, h.firstOut, h.trip, h.pump, h.holdOff,
        fun hp ho => ⟨(h.record hp ho).mark, (h.record hp ho).kind⟩, nofun, fun _ => ⟨hinputs, hcause⟩, hframe⟩
  case trip =>
    rw [execTrip_running hfits hr, State.latch_again hl]
    exact ⟨_, rfl, State.report_read _ nofun hfits hq⟩
  case esdOn =>
    obtain ⟨hinputs, hframe⟩ := s.watch_esd_frame true
    rw [execEsdInChange_on he hr, State.latch_again (s := { s with inputs := { s.inputs with esd := true } }) hl]
    exact ⟨_, rfl, hinputs, State.watch_cause_manual hl rfl, hframe⟩
  case esdOff =>
    obtain ⟨hinputs, hframe⟩ := s.watch_esd_frame false
    refine ⟨_, execEsdInChange_off he, hinputs, fun hl => ?_, hframe⟩
    rw [State.watch_cause, State.causeFlag]
    dsimp only
    rw [hl]
    rfl
end

section
/-! SUPPORT. O36: an alarm raised as the levels are watched (R75, R76). -/

namespace Sys2Proof.Machine

variable {s : State} {set : List AlarmEntry} {k : AlarmKey}

/-! ## One alarm through a sweep -/

theorem alarmEntry_append_ne {j : AlarmKey} (h : j ≠ k) (st : AlarmState) :
    alarmEntry (set ++ [⟨j, st⟩]) k = alarmEntry set k := by
  simp [alarmEntry, List.find?_append, h]

theorem alarmEntry_cons (a : AlarmEntry) (set : List AlarmEntry) (k : AlarmKey) :
    alarmEntry (a :: set) k = if a.key = k then some a else alarmEntry set k := by
  by_cases h : a.key = k <;> simp [alarmEntry, h]

theorem alarmEntry_set_ne {j : AlarmKey} (h : j ≠ k) (st : AlarmState) :
    alarmEntry (alarmSet set j st) k = alarmEntry set k := by
  induction set with
  | nil => rfl
  | cons a set ih =>
    have hset : alarmSet (a :: set) j st = (if a.key = j then { a with state := st } else a) :: alarmSet set j st := by
      simp [alarmSet]
    rw [hset, alarmEntry_cons, alarmEntry_cons, ih]
    by_cases hj : a.key = j
    · simp [hj, h]
    · simp [hj]

theorem alarmEntry_drop_ne {j : AlarmKey} (h : j ≠ k) : alarmEntry (alarmDrop set j) k = alarmEntry set k := by
  induction set with
  | nil => rfl
  | cons a set ih =>
    have hdrop : alarmDrop (a :: set) j = if a.key = j then alarmDrop set j else a :: alarmDrop set j := by
      by_cases hj : a.key = j <;> simp [alarmDrop, hj]
    rw [hdrop, alarmEntry_cons]
    by_cases hj : a.key = j
    · simp [hj, h, ih]
    · rw [if_neg hj, alarmEntry_cons, ih]

/-- R75: taking another alarm's condition leaves an alarm's entry. -/
theorem alarmEntry_take_ne {j : AlarmKey} (h : j ≠ k) (b : Bool) :
    alarmEntry (alarmTake set j b).1 k = alarmEntry set k := by
  unfold alarmTake
  split
  · exact alarmEntry_append_ne h _
  · exact alarmEntry_set_ne h _
  · exact alarmEntry_set_ne h _
  · exact alarmEntry_drop_ne h
  · rfl

/-- R75: a condition that holds makes an alarm without an entry ACTIVE-NEW. -/
theorem alarmEntry_take_absent (h : alarmEntry set k = none) :
    alarmEntry (alarmTake set k true).1 k = some ⟨k, .activeNew⟩ := by
  have htake : (alarmTake set k true).1 = set ++ [⟨k, .activeNew⟩] := by simp [alarmTake, h]
  rw [htake]
  simp only [alarmEntry] at h ⊢
  simp [List.find?_append, h]

/-- R75: a condition that goes on holding leaves an ACTIVE-NEW entry. -/
theorem alarmEntry_take_raised (h : alarmEntry set k = some ⟨k, .activeNew⟩) :
    alarmEntry (alarmTake set k true).1 k = some ⟨k, .activeNew⟩ := by
  have htake : (alarmTake set k true).1 = set := by simp [alarmTake, h]
  rw [htake]
  exact h

/-- R76: a sweep leaves the ACTIVE-NEW entry of an alarm whose condition holds. -/
theorem alarmSweep_raised {cond : AlarmKey → Bool} (hc : cond k = true) (l : List AlarmKey)
    (h : alarmEntry set k = some ⟨k, .activeNew⟩) :
    alarmEntry (alarmSweep cond l set).1 k = some ⟨k, .activeNew⟩ := by
  induction l generalizing set with
  | nil => exact h
  | cons j l ih =>
    by_cases hj : j = k
    · subst hj
      refine ih ?_
      rw [hc]
      exact alarmEntry_take_raised h
    · exact ih ((alarmEntry_take_ne hj _).trans h)

/-- R76: a sweep that comes to an alarm without an entry, whose condition holds, makes it ACTIVE-NEW. -/
theorem alarmSweep_raises {cond : AlarmKey → Bool} (hc : cond k = true) {l : List AlarmKey} (hk : k ∈ l)
    (h : alarmEntry set k = none) : alarmEntry (alarmSweep cond l set).1 k = some ⟨k, .activeNew⟩ := by
  induction l generalizing set with
  | nil => exact absurd hk List.not_mem_nil
  | cons j l ih =>
    by_cases hj : j = k
    · subst hj
      refine alarmSweep_raised hc l ?_
      rw [hc]
      exact alarmEntry_take_absent h
    · exact ih (List.mem_of_ne_of_mem (Ne.symm hj) hk) ((alarmEntry_take_ne hj _).trans h)

/-- An alarm stands, ACTIVE-NEW. -/
def State.raised (s : State) (k : AlarmKey) : Prop := alarmEntry s.an.set k = some ⟨k, .activeNew⟩

theorem State.raised_mem (h : s.raised k) : ⟨k, .activeNew⟩ ∈ s.an.set := List.mem_of_find?_eq_some h

/-! ## The levels watched -/

/-- The state in which the alarms are evaluated. -/
def State.leveled (s : State) : State := s.watchTimers.watchFlags.watchCause

theorem State.watch_leveled (s : State) : s.watch = s.leveled.watchAlarms := rfl

theorem State.leveled_keeps (s : State) : Keeps [.flags, .frames] s.watchTimers s.leveled :=
  s.watchTimers.watchFlags_keeps.trans (State.watchCause_keeps _)

theorem State.leveled_alarms (s : State) : s.leveled.an = s.an :=
  (s.leveled_keeps.part .alarms (by decide) : _ = _).trans (s.watchTimers_keeps.part .alarms (by decide))

theorem State.watchAlarms_set (s : State) : s.watchAlarms.an.set = (alarmSweep s.alarmCondition s.alarmKeys s.an.set).1 :=
  congrArg Annunciator.set ((State.emitAll_keeps _ _).part .alarms (by decide) : _ = _)

/-- R76: an alarm whose condition stands as the levels are watched is raised. -/
theorem State.watch_raises (hk : k ∈ s.leveled.alarmKeys) (hc : s.leveled.alarmCondition k = true)
    (h : alarmEntry s.an.set k = none ∨ s.raised k) : s.watch.raised k := by
  unfold State.raised at h ⊢
  rw [s.watch_leveled, State.watchAlarms_set, s.leveled_alarms]
  exact h.elim (alarmSweep_raises hc hk) (alarmSweep_raised hc _)

/-! ## SURGE and LEAK disabled -/

/-- R107: the above-threshold fact is read from the setup, the readings and the levels. -/
theorem Keeps.aboveThreshold {T : List Part} {t : State} (h : Keeps T s t)
    (hT : decide (Part.setup ∉ T ∧ Part.readings ∉ T ∧ Part.levels ∉ T) = true) :
    t.aboveThreshold = s.aboveThreshold := by
  obtain ⟨h1, h2, h3⟩ := of_decide_eq_true hT
  have hsl : t.sl = s.sl := h.frame .setup h1
  have hchans : t.hw.chans = s.hw.chans := h.frame .readings h2
  obtain ⟨hlevel, -, -⟩ := h.frame .levels h3
  simp only [State.aboveThreshold, State.pressureRole, State.pressure, State.role, hsl, hchans, hlevel]

/-- The alarms of SURGE and LEAK disabled read the station state, the pressure and leak facts, the mask and what is
qualified. -/
theorem Keeps.alarmCondition {T : List Part} {t : State} (h : Keeps T s t) (hk : k = .surge ∨ k = .leak)
    (hT : decide (∀ p ∈ [Part.station, .setup, .readings, .levels, .leak, .profile, .timers], p ∉ T) = true) :
    t.alarmCondition k = s.alarmCondition k := by
  have hp := of_decide_eq_true hT
  have part (p : Part) (hm : p ∈ [Part.station, .setup, .readings, .levels, .leak, .profile, .timers]) : p.same s t :=
    h.frame p (hp p hm)
  have hrunning := h.running (decide_eq_true (hp .station (by decide)))
  have habove := h.aboveThreshold (decide_eq_true ⟨hp .setup (by decide), hp .readings (by decide),
    hp .levels (by decide)⟩)
  have hleak : t.hw.leakCond = s.hw.leakCond := part .leak (by decide)
  have hmask : t.tu.mask = s.tu.mask := part .profile (by decide)
  obtain ⟨-, -, -, hsurgeQualified, hleakQualified⟩ := part .timers (by decide)
  rcases hk with rfl | rfl
  · simp only [State.alarmCondition, hrunning, hmask, hsurgeQualified, habove]
  · simp only [State.alarmCondition, hrunning, hmask, hleakQualified, hleak]

/-- R76: a disabled cause stays qualified while its condition stands. -/
theorem State.leveled_alarmCondition (hk : k = .surge ∨ k = .leak) :
    s.leveled.alarmCondition k = s.alarmCondition k := by
  rw [s.leveled_keeps.alarmCondition hk (by decide)]
  rcases hk with rfl | rfl
  · have habove : s.watchTimers.aboveThreshold = s.aboveThreshold := rfl
    have hq : s.watchTimers.tu.surgeQualified = (s.tu.surgeQualified && s.aboveThreshold) := rfl
    have hrest : s.watchTimers.running = s.running ∧ s.watchTimers.tu.mask = s.tu.mask := ⟨rfl, rfl⟩
    simp only [State.alarmCondition, habove, hq, hrest.1, hrest.2]
    cases s.aboveThreshold <;> simp
  · have hq : s.watchTimers.tu.leakQualified = (s.tu.leakQualified && s.hw.leakCond) := rfl
    have hrest : s.watchTimers.running = s.running ∧ s.watchTimers.tu.mask = s.tu.mask
      ∧ s.watchTimers.hw = s.hw := ⟨rfl, rfl, rfl⟩
    simp only [State.alarmCondition, hq, hrest.1, hrest.2.1, hrest.2.2]
    cases s.hw.leakCond <;> simp

theorem State.watch_alarmCondition (hk : k = .surge ∨ k = .leak) : s.watch.alarmCondition k = s.alarmCondition k :=
  (s.leveled.watchAlarms_keeps.alarmCondition hk (by decide)).trans (State.leveled_alarmCondition hk)

/-- R63, R76: a disabled cause whose condition stands raises its alarm, and watching the levels again leaves it. -/
theorem State.watch_watch_raises (hk : k = .surge ∨ k = .leak) (hc : s.alarmCondition k = true)
    (h : alarmEntry s.an.set k = none) : s.watch.watch.raised k := by
  have hkey (u : State) : k ∈ u.alarmKeys := by rcases hk with rfl | rfl <;> simp [State.alarmKeys]
  have hfirst : s.watch.raised k :=
    State.watch_raises (hkey _) ((State.leveled_alarmCondition hk).trans hc) (.inl h)
  refine State.watch_raises (hkey _) ?_ (.inr hfirst)
  rw [State.leveled_alarmCondition hk, State.watch_alarmCondition hk, hc]

end Sys2Proof.Machine
end

section
/-! SUPPORT. O36: a qualification timer runs out (R62, R63, R128). -/

namespace Sys2Proof.Machine

variable {s : State} {c : Cause} {d : Option Nat} {q : QualId}

/-! ## What a qualification does -/

theorem execQualificationExpiry_running (h : (s.tu.qualTimer q).running = true) :
    exec (.qualificationExpiry q) s = .next (s.qualify q).watch.puEval := congrArg Host.Outcome.next (if_pos h)

/-- R62: a qualification timer at its end. -/
def State.expired (s : State) : QualId → State
  | .overfill n => { s with tu := { s.tu with overfill := s.tu.overfill.set n (s.tu.overfill.get n).expire } }
  | .surge => { s with tu := { s.tu with surge := s.tu.surge.expire } }
  | .leak => { s with tu := { s.tu with leak := s.tu.leak.expire } }

theorem State.expired_keeps (s : State) (q : QualId) : Keeps [.timers] s (s.expired q) := by
  refine Keeps.pure ?_ ?_ ?_ ?_ ?_ ?_
  · intro p hp
    cases q <;> cases p <;> first | exact absurd (by decide) hp | simp [Part.same, State.expired]
  all_goals cases q <;> rfl

/-- R7: with a station in TRIPPED, watching the levels and PC's evaluation leave it there. -/
theorem State.evaluate_tripped (hp : s.pc.phase = .tripped) :
    Keeps (watchParts ++ [.phase]) s s.watch.puEval ∧ s.watch.puEval.pc.phase = .tripped := by
  have hw := s.watch_keeps
  have hphase := (hw.part .phase (by decide)).1.trans hp
  obtain ⟨hk, hstays, -⟩ := State.puEval_noStep_keeps (s := s.watch) (.inr (.inl (by simp [hphase])))
  exact ⟨(hw.mono (by decide)).trans (hk.mono (by decide)), hstays.trans hphase⟩

/-- R61, R63: SURGE or LEAK enabled, in a phase of its row. -/
theorem qualified_latches (hr : s.running = true) (hq : s.qualify q = (s.expired q).handCause c none)
    (ht : (s.tu.qualTimer q).running = true) (he : s.tu.mask.enables c = true) (hp : c.latchesIn s.pc.phase = true)
    (hl : s.hasLatched c = false) :
    ∃ t, exec (.qualificationExpiry q) s = .next t ∧ t.pc.phase = .tripped ∧ ⟨c, none⟩ ∈ t.tu.latched
      ∧ Frame cascadeParts s t := by
  have hk := s.expired_keeps q
  have hmask : (s.expired q).tu.mask = s.tu.mask := hk.part .profile (by decide)
  obtain ⟨hphase, -, -⟩ := hk.part .phase (by decide)
  obtain ⟨-, hlatched, -⟩ := hk.part .tripRecord (by decide)
  have hlatch : s.qualify q = (s.expired q).latch c none := by
    rw [hq]
    exact State.handCause_latches none ((hk.running (by decide)).trans hr) (by rw [hphase]; exact hp)
      (by rw [hmask]; exact he)
  obtain ⟨htripped, hprefix, -⟩ := State.latch_new (s := s.expired q) (c := c) none
    (by simpa only [State.hasLatched, hlatched] using hl)
  rw [execQualificationExpiry_running ht, hlatch]
  have hlk := (s.expired q).latch_keeps c none
  obtain ⟨hek, hstays⟩ := State.evaluate_tripped htripped
  obtain ⟨-, hkept, -⟩ := hek.part .tripRecord (by decide)
  refine ⟨_, rfl, hstays, hkept ▸ hprefix.subset (by simp), ?_⟩
  exact (hk.frame.mono (by decide)).trans (hlk.frame.trans (hek.frame.mono (by decide)))

/-! ## OVERFILL: the tank -/

/-- The tanks' states stay, and no claim begins. -/
structure TanksStay (s t : State) : Prop where
  tanks : ∀ m, (t.ow.tanks.get m).state = (s.ow.tanks.get m).state
  claim : t.ow.claim.waiting = true → s.ow.claim.waiting = true

theorem TanksStay.trans {t u : State} (h : TanksStay s t) (k : TanksStay t u) : TanksStay s u :=
  ⟨fun m => (k.tanks m).trans (h.tanks m), fun hw => h.claim (k.claim hw)⟩

theorem TanksStay.of_same {t : State} (h : t.ow = s.ow) : TanksStay s t := ⟨fun _ => by rw [h], fun hw => h ▸ hw⟩

theorem TanksStay.of_keeps {T : List Part} {t : State} (h : Keeps T s t) (hT : decide (Part.tanks ∉ T) = true) :
    TanksStay s t := .of_same (h.part .tanks hT)

theorem State.endClaim_tanksStay (s : State) : TanksStay s s.endClaim := by
  obtain ⟨htanks, -, hidle, -⟩ := s.endClaim_ow
  refine ⟨fun m => by rw [htanks], fun hw => ?_⟩
  cases hs : s.ow.claim.waiting with
  | true => rfl
  | false =>
    rw [hidle hs, hs] at hw
    exact hw

/-- R26: TRIPPED entry at a station that is not PU leaves the tanks. -/
theorem State.changePhase_tripped_tanksStay (n r : Nat) (hpu : s.hasRole .pu = false) (hp : s.pc.phase ≠ .tripped) :
    TanksStay s (s.changePhase .tripped n r) := by
  have hleft : TanksStay s (s.left .tripped) := by
    rw [State.left_of_untripped .tripped hp, if_neg (by decide : ¬ Phase.tripped.active = true)]
    have hset : TanksStay s { s.setPhase .tripped with mr := s.mr.changePhase s.pc.phase .tripped } := .of_same rfl
    exact hset.trans (State.endClaim_tanksStay _)
  have hrole : (s.left .tripped).hasRole .pu = false := (s.left_hasRole _ _).trans hpu
  have hfield : Keeps [.channels, .frames, .pressure, .reports, .record] (s.left .tripped) (s.left .tripped).tripField := by
    unfold State.tripField
    rw [if_neg (by simp [hrole])]
    exact Keeps.iteSelf ((State.pendAll_keeps _).mono (by decide))
  have hrecord (u : State) : Keeps [.channels, .frames, .pressure, .reports, .record] u (u.tripRecord s.pc.phase) :=
    Keeps.ite ((u.markTrip_keeps.mono (by decide)).trans ((State.handEndKind_keeps _ _).mono (by decide)))
      (u.markTrip_keeps.mono (by decide))
  have hmarked := hfield.trans (hrecord _)
  have hexternal : ((s.left .tripped).tripField.tripRecord s.pc.phase).tripExternal
      = (s.left .tripped).tripField.tripRecord s.pc.phase :=
    if_neg (by simp [hmarked.hasRole (by decide), hrole])
  have hentry := s.changePhase_from .tripped n r
  rw [State.entryActions_tripped (s.left_phase _), hexternal] at hentry
  exact hleft.trans ((TanksStay.of_keeps hmarked (by decide)).trans (.of_keeps hentry (by decide)))

/-- R65: a latch at a station that is not PU leaves the tanks. -/
theorem State.latch_tanksStay (c : Cause) (d : Option Nat) (hpu : s.hasRole .pu = false) : TanksStay s (s.latch c d) := by
  have hadd := s.addCause_keeps c d
  have htrip : TanksStay s (s.addCause c d).enterTripped := by
    refine (TanksStay.of_keeps hadd (by decide)).trans ?_
    unfold State.enterTripped
    split
    · exact .of_same rfl
    · rename_i hp
      exact State.changePhase_tripped_tanksStay 0 0 ((hadd.hasRole (by decide) _).trans hpu) hp
  unfold State.latch
  split
  · exact .of_same rfl
  · have hannounce (b f : Bool) := htrip.trans (.of_keeps (State.announce_keeps _ c d b f) (by decide))
    refine TanksStay.trans ?_ (.of_keeps (State.watch_keeps _) (by decide))
    split
    · exact hannounce _ _
    · exact (hannounce _ _).trans (.of_keeps (State.afterTrip_keeps _) (by decide))

/-- R128, R132: the tank becomes OVERFILL, the others stay, and a claim waiting for it ends. -/
structure TankOverfilled (s t : State) (n : Ch) : Prop where
  tank : (t.ow.tanks.get n).state = .overfill
  others : ∀ m, m ≠ n → (t.ow.tanks.get m).state = (s.ow.tanks.get m).state
  claim : t.ow.claim.waiting = true → s.ow.claim.waiting = true
  ended : s.ow.claim.tank = some n → s.ow.claim.waiting = true → t.ow.claim.waiting = false

theorem TankOverfilled.trans {t u : State} {n : Ch} (h : TankOverfilled s t n) (k : TanksStay t u) :
    TankOverfilled s u n where
  tank := (k.tanks n).trans h.tank
  others m hm := (k.tanks m).trans (h.others m hm)
  claim hw := h.claim (k.claim hw)
  ended ht hw := Bool.eq_false_iff.2 fun hu => Bool.noConfusion ((h.ended ht hw).symm.trans (k.claim hu))

theorem State.setTank_get (s : State) (n m : Ch) (st : TankState) :
    ((s.setTank n st).ow.tanks.get m).state = if m = n then st else (s.ow.tanks.get m).state := by
  rw [s.setTank_tanks]
  by_cases hm : m = n
  · subst hm
    by_cases hs : (s.ow.tanks.get m).state = st <;> simp [hs]
  · rw [if_neg hm]
    split
    · rfl
    · rw [Quad.get_set_of_ne _ hm]

theorem State.setTank_claim (s : State) (n : Ch) (st : TankState) : (s.setTank n st).ow.claim = s.ow.claim := by
  rw [s.setTank_tanks]
  split <;> rfl

theorem State.overfillTank_overfilled (s : State) (n : Ch) : TankOverfilled s (s.overfillTank n) n := by
  have htank : ((s.setTank n .overfill).ow.tanks.get n).state = .overfill := (s.setTank_get n n _).trans (if_pos rfl)
  have hothers (m : Ch) (hm : m ≠ n) : ((s.setTank n .overfill).ow.tanks.get m).state = (s.ow.tanks.get m).state :=
    (s.setTank_get n m _).trans (if_neg hm)
  have hclaim := s.setTank_claim n .overfill
  unfold State.overfillTank
  dsimp only
  split
  · rename_i ht
    have hstay := (s.setTank n .overfill).endClaim_tanksStay
    obtain ⟨-, -, -, hended⟩ := (s.setTank n .overfill).endClaim_ow
    exact ⟨(hstay.tanks n).trans htank, fun m hm => (hstay.tanks m).trans (hothers m hm),
      fun hw => hclaim ▸ hstay.claim hw, fun _ _ => hended (by rw [ht]; rfl)⟩
  · rename_i ht
    exact ⟨htank, hothers, fun hw => hclaim ▸ hw, fun hn => absurd (hclaim ▸ hn) ht⟩

/-! ## OVERFILL: the tank's name -/

theorem State.nameTank_named (s : State) (n : Ch) : (s.nameTank n).tu.named.get n = true := by
  unfold State.nameTank
  split
  · assumption
  · exact Quad.get_set_self _ n true

theorem State.nameTank_latched (s : State) (n : Ch) : (s.nameTank n).tu.latched = s.tu.latched := by
  unfold State.nameTank
  split <;> rfl

/-- R65: a cause that joins the set leaves the tanks that an event has named. -/
theorem State.addCause_named (s : State) (c : Cause) (d : Option Nat) : (s.addCause c d).tu.named = s.tu.named := by
  unfold State.addCause
  exact ((State.askStatusIf_keeps _ _).part .tripRecord (by decide)).2.2

theorem State.afterTrip_named (s : State) : s.afterTrip.tu.named = s.tu.named := by
  have hfollow : s.followAll.tu.named = s.tu.named := (s.followAll_keeps.part .tripRecord (by decide)).2.2
  have hjoin (u : State) : u.joinSeparation.tu.named = u.tu.named := by
    unfold State.joinSeparation
    split
    · rfl
    · exact ((State.announce_keeps _ _ _ _ _).part .tripRecord (by decide)).2.2.trans (u.addCause_named _ _)
  have hclose : (s.followAll.closeChannel .n1).tu.named = s.followAll.tu.named :=
    ((State.closeChannel_keeps _ _).part .tripRecord (by decide)).2.2
  unfold State.afterTrip
  dsimp only
  rw [((State.confirm_keeps _).part .tripRecord (by decide)).2.2]
  split
  · exact (hjoin _).trans (hclose.trans hfollow)
  · exact hfollow

theorem State.latch_named (s : State) (c : Cause) (d : Option Nat) : (s.latch c d).tu.named = s.tu.named := by
  have htrip : (s.addCause c d).enterTripped.tu.named = s.tu.named :=
    ((State.enterTripped_keeps _).part .tripRecord (by decide)).2.2.trans (s.addCause_named c d)
  have hannounce (b f : Bool) : ((s.addCause c d).enterTripped.announce c d b f).tu.named = s.tu.named :=
    ((State.announce_keeps _ c d b f).part .tripRecord (by decide)).2.2.trans htrip
  unfold State.latch
  split
  · rfl
  · refine ((State.watch_keeps _).part .tripRecord (by decide)).2.2.trans ?_
    split
    · exact hannounce _ _
    · exact (State.afterTrip_named _).trans (hannounce _ _)

/-! ## The parts of O36 -/

/-- R128: the tank, its channel and its name, before OVERFILL is handed. -/
def State.overfilled (s : State) (n : Ch) : State :=
  (((s.expired (.overfill n)).overfillTank n).closeOverfilled n).nameTank n

theorem State.overfilled_keeps (s : State) (n : Ch) :
    Keeps [.timers, .tanks, .channels, .frames, .pressure, .tripRecord, .reports] s (s.overfilled n) :=
  ((((s.expired_keeps _).mono (by decide)).trans ((State.overfillTank_keeps _ n).mono (by decide))).trans
    ((State.closeOverfilled_keeps _ n).mono (by decide))).trans ((State.nameTank_keeps _ n).mono (by decide))

theorem State.overfilled_tank (s : State) (n : Ch) : TankOverfilled s (s.overfilled n) n := by
  obtain ⟨htank, hothers, hclaim, hended⟩ := (s.expired (.overfill n)).overfillTank_overfilled n
  have hexpired : TankOverfilled s ((s.expired (.overfill n)).overfillTank n) n := ⟨htank, hothers, hclaim, hended⟩
  exact (hexpired.trans (.of_keeps (State.closeOverfilled_keeps _ n) (by decide))).trans
    (.of_keeps (State.nameTank_keeps _ n) (by decide))

theorem State.overfilled_latched (s : State) (n : Ch) : (s.overfilled n).tu.latched = s.tu.latched := by
  have hclose := ((State.closeOverfilled_keeps ((s.expired (.overfill n)).overfillTank n) n).part .tripRecord
    (by decide)).2.1
  have htank := ((State.overfillTank_keeps (s.expired (.overfill n)) n).part .tripRecord (by decide)).2.1
  exact (State.nameTank_latched _ n).trans (hclose.trans htank)

theorem State.not_pu_of_role {r : Role} (h : s.hasRole r = true) (hr : r ≠ .pu) : s.hasRole .pu = false := by
  simp_all [State.hasRole]

/-- R62, R128: OVERFILL. -/
theorem overfill_qualified {n : Ch} (hr : s.running = true) (htw : s.hasRole .tw = true)
    (ht : (s.tu.overfill.get n).timer.running = true) (hl : s.hasLatched .overfill = false) :
    ∃ t, exec (.qualificationExpiry (.overfill n)) s = .next t ∧ TankOverfilled s t n ∧ t.pc.phase = .tripped
      ∧ ⟨.overfill, some n.num⟩ ∈ t.tu.latched ∧ t.tu.named.get n = true ∧ Frame cascadeParts s t := by
  have hk := s.overfilled_keeps n
  have hnpu : (s.overfilled n).hasRole .pu = false :=
    (hk.hasRole (by decide) _).trans (State.not_pu_of_role htw (by decide))
  have hlatch : s.qualify (.overfill n) = (s.overfilled n).latch .overfill (some n.num) :=
    State.handCause_latches _ ((hk.running (by decide)).trans hr) rfl rfl
  have hlatched : (s.overfilled n).hasLatched .overfill = false := by
    simpa only [State.hasLatched, s.overfilled_latched n] using hl
  have htank := (s.overfilled_tank n).trans (State.latch_tanksStay .overfill (some n.num) hnpu)
  have hnamed : ((s.overfilled n).latch .overfill (some n.num)).tu.named.get n = true :=
    (congrArg (Quad.get · n) (State.latch_named _ _ _)).trans (State.nameTank_named _ n)
  obtain ⟨htripped, hprefix, -⟩ := State.latch_new (some n.num) hlatched
  have hlk := (s.overfilled n).latch_keeps .overfill (some n.num)
  rw [execQualificationExpiry_running (q := .overfill n) ht, hlatch]
  generalize (s.overfilled n).latch .overfill (some n.num) = u at *
  obtain ⟨hek, hstays⟩ := State.evaluate_tripped htripped
  obtain ⟨-, hkept, hname⟩ := hek.part .tripRecord (by decide)
  refine ⟨_, rfl, htank.trans (.of_keeps hek (by decide)), hstays, hkept ▸ hprefix.subset (by simp),
    by rw [hname]; exact hnamed, ?_⟩
  exact (hk.frame.mono (by decide)).trans (hlk.frame.trans (hek.frame.mono (by decide)))

/-- R61, R63: a disabled cause is noted in place of a latch. -/
theorem State.handCause_disabled (d : Option Nat) (hr : s.running = true) (hp : c.latchesIn s.pc.phase = true)
    (he : s.tu.mask.enables c = false) : s.handCause c d = s.alarmInstead c := by
  simp [State.handCause, State.hand, hr, hp, he]

/-- R63: SURGE, disabled, noted as qualified. -/
def State.surgeNoted (s : State) : State :=
  { s with tu := { s.tu with surge := s.tu.surge.expire, surgeQualified := true } }

/-- R63: LEAK, disabled, noted as qualified. -/
def State.leakNoted (s : State) : State :=
  { s with tu := { s.tu with leak := s.tu.leak.expire, leakQualified := true } }

theorem State.surgeNoted_keeps (s : State) : Keeps [.timers] s s.surgeNoted := by
  refine Keeps.pure ?_ rfl rfl rfl rfl rfl
  intro p hp
  cases p <;> first | exact absurd (by decide) hp | simp [Part.same, State.surgeNoted]

theorem State.leakNoted_keeps (s : State) : Keeps [.timers] s s.leakNoted := by
  refine Keeps.pure ?_ rfl rfl rfl rfl rfl
  intro p hp
  cases p <;> first | exact absurd (by decide) hp | simp [Part.same, State.leakNoted]

theorem exec_surge_disabled (hr : s.running = true) (ht : s.tu.surge.timer.running = true)
    (hm : s.tu.mask.surge = false) (hp : s.pc.phase.active = true ∨ s.pc.phase = .tripped) :
    exec (.qualificationExpiry .surge) s = .next s.surgeNoted.watch.watch.puEval := by
  have hlist : Cause.surge.latchesIn s.pc.phase = true := by
    rcases hp with hp | hp <;> simp [Cause.latchesIn, hp]
  have hq : s.qualify .surge = s.surgeNoted.watch :=
    State.handCause_disabled (s := s.expired .surge) none hr hlist hm
  rw [execQualificationExpiry_running (q := .surge) ht, hq]

theorem exec_leak_disabled (hr : s.running = true) (ht : s.tu.leak.timer.running = true)
    (hm : s.tu.mask.leak = false) (hp : s.pc.phase = .pumping ∨ s.pc.phase = .topping) :
    exec (.qualificationExpiry .leak) s = .next s.leakNoted.watch.watch.puEval := by
  have hlist : Cause.leak.latchesIn s.pc.phase = true := by
    rcases hp with hp | hp <;> simp [Cause.latchesIn, Phase.flowing, hp]
  have hq : s.qualify .leak = s.leakNoted.watch :=
    State.handCause_disabled (s := s.expired .leak) none hr hlist hm
  rw [execQualificationExpiry_running (q := .leak) ht, hq]

/-- PC's part of the state that stays where the phase and the standing order do. -/
theorem Keeps.pc {T : List Part} {t : State} (h : Keeps T s t)
    (hT : decide (Part.station ∉ T ∧ Part.generation ∉ T ∧ Part.transfer ∉ T) = true)
    (hphase : t.pc.phase = s.pc.phase) (horder : t.pc.order = s.pc.order) :
    t.pc = { s.pc with ready := t.pc.ready, path := t.pc.path, closed := t.pc.closed, inHand := t.pc.inHand } := by
  obtain ⟨h1, h2, h3⟩ := of_decide_eq_true hT
  have hstation : t.pc.station = s.pc.station := h.frame .station h1
  have hgen : t.pc.gen = s.pc.gen := h.frame .generation h2
  have htransfer : t.pc.transfer = s.pc.transfer := h.frame .transfer h3
  dsimp only
  rw [← hstation, ← hgen, ← htransfer, ← hphase, ← horder]

/-- R17, R183: watching the levels asks for no TRIP. -/
theorem State.watch_trip (s : State) : s.watch.lc.trip = s.lc.trip := by
  have hask (u : State) (b : Bool) : (u.askStatusIf b).lc.trip = u.lc.trip := by
    unfold State.askStatusIf State.askStatus State.ask
    split
    · split
      · exact (u.lc.ask_trip .status).resolve_left fun h => FrameKind.noConfusion h.1
      · rfl
    · rfl
  have halarms : s.watch.lc.trip = s.leveled.lc.trip := (s.leveled.watchAlarms_keeps.part .frames (by decide)).1
  exact halarms.trans ((hask _ _).trans (hask _ _))

/-- R63, R76: SURGE disabled. -/
theorem surge_disabled (hr : s.running = true) (ht : s.tu.surge.timer.running = true) (hm : s.tu.mask.surge = false)
    (hn : NoStepDue s) (hp : s.pc.phase.active = true ∨ s.pc.phase = .tripped) (ha : s.aboveThreshold = true)
    (he : alarmEntry s.an.set .surge = none) :
    ∃ t, exec (.qualificationExpiry .surge) s = .next t ∧ t.pc = { s.pc with
        ready := t.pc.ready, path := t.pc.path, closed := t.pc.closed, inHand := t.pc.inHand }
      ∧ ((s.hasRole .pu = false ∨ Unconfirmed s) → t.pc.inHand = s.pc.inHand)
      ∧ t.tu.latched = s.tu.latched ∧ t.tu.firstOut = s.tu.firstOut
      ∧ ⟨.surge, .activeNew⟩ ∈ t.an.set ∧ Frame (watchParts ++ [.phase]) s t := by
  have hraised : s.surgeNoted.watch.watch.raised .surge := by
    refine State.watch_watch_raises (.inl rfl) ?_ he
    have habove : s.surgeNoted.aboveThreshold = true := ha
    have hrunning : s.surgeNoted.running = true := hr
    have hmask : s.surgeNoted.tu.mask.surge = false := hm
    simp only [State.alarmCondition, habove, hrunning, hmask]
    rfl
  have hw : Keeps watchParts s s.surgeNoted.watch.watch :=
    ((s.surgeNoted_keeps.mono (by decide)).trans (State.watch_keeps _)).trans (State.watch_keeps _)
  rw [exec_surge_disabled hr ht hm hp]
  generalize s.surgeNoted.watch.watch = u at *
  have hrecord : u.mr.record = s.mr.record := hw.part .record (by decide)
  have hsame : SameForPc u s := hw.evaluatedLike (by decide) (by rw [hrecord]) (by rw [hrecord]) (by rw [hrecord])
    (.inr (.inr (by rw [hrecord])))
  obtain ⟨hek, hphase, horder⟩ := State.puEval_noStep_keeps ((hsame.noStepDue (hw.runningPu (by decide))).1 hn)
  have hall : Keeps (watchParts ++ [.phase]) s u.puEval := (hw.mono (by decide)).trans (hek.mono (by decide))
  obtain ⟨hwphase, hwhand, hworder⟩ := hw.part .phase (by decide)
  obtain ⟨hfirst, hlatched, -⟩ := hall.part .tripRecord (by decide)
  have halarms : u.puEval.an = u.an := hek.part .alarms (by decide)
  refine ⟨_, rfl, hall.pc (by decide) (hphase.trans hwphase) (horder.trans hworder), fun hstill => ?_, hlatched, hfirst,
    by rw [halarms]; exact State.raised_mem hraised, hall.frame⟩
  have hself : u.puEval = u := by
    rcases hstill with hpu | hun
    · exact State.puEval_follower (by simp [State.runningPu, hw.hasRole (by decide), hpu])
    · exact State.puEval_unconfirmed (hsame.unconfirmed.1 hun)
  rw [hself, hwhand]

/-- R63, R76: LEAK disabled. -/
theorem leak_disabled (hr : s.running = true) (hsv : s.hasRole .sv = true) (ht : s.tu.leak.timer.running = true)
    (hm : s.tu.mask.leak = false) (hp : s.pc.phase = .pumping ∨ s.pc.phase = .topping) (hc : s.hw.leakCond = true)
    (he : alarmEntry s.an.set .leak = none) :
    ∃ t, exec (.qualificationExpiry .leak) s = .next t ∧ t.pc = { s.pc with
        ready := t.pc.ready, path := t.pc.path, closed := t.pc.closed }
      ∧ t.tu.latched = s.tu.latched ∧ t.tu.firstOut = s.tu.firstOut ∧ t.lc.trip = s.lc.trip
      ∧ ⟨.leak, .activeNew⟩ ∈ t.an.set ∧ Frame watchParts s t := by
  have hraised : s.leakNoted.watch.watch.raised .leak := by
    refine State.watch_watch_raises (.inr rfl) ?_ he
    have hrunning : s.leakNoted.running = true := hr
    have hmask : s.leakNoted.tu.mask.leak = false := hm
    have hcond : s.leakNoted.hw.leakCond = true := hc
    simp only [State.alarmCondition, hcond, hrunning, hmask]
    rfl
  have htrip : s.leakNoted.watch.watch.lc.trip = s.lc.trip := (State.watch_trip _).trans (State.watch_trip _)
  have hw : Keeps watchParts s s.leakNoted.watch.watch :=
    ((s.leakNoted_keeps.mono (by decide)).trans (State.watch_keeps _)).trans (State.watch_keeps _)
  have hnpu := State.not_pu_of_role hsv (by decide)
  rw [exec_leak_disabled hr ht hm hp, State.puEval_follower (by simp [State.runningPu, hw.hasRole (by decide), hnpu])]
  obtain ⟨hphase, hhand, horder⟩ := hw.part .phase (by decide)
  obtain ⟨hfirst, hlatched, -⟩ := hw.part .tripRecord (by decide)
  have hpc := hw.pc (by decide) hphase horder
  rw [hhand] at hpc
  exact ⟨_, rfl, hpc, hlatched, hfirst, htrip, State.raised_mem hraised, hw.frame⟩

end Sys2Proof.Machine

open Sys2Proof Sys2Proof.Machine

/-- Settles O36: an enabled cause latches, and the evaluation that follows finds TRIPPED; a disabled one is noted as
qualified, and the levels raise its alarm. -/
theorem qualificationExpires : Obligations.QualificationExpires := by
  refine ⟨fun s n hr htw ht hl => ?overfill, fun s hr ht hm hp hl => ?surge, fun s hr ht hm hp hl => ?leak,
    fun s hr ht hm hn hp ha he => surge_disabled hr ht hm hn hp ha he,
    fun s hr hsv ht hm hp hc he => leak_disabled hr hsv ht hm hp hc he⟩
  case overfill =>
    obtain ⟨t, hexec, htank, hphase, hlatched, hnamed, hframe⟩ := overfill_qualified hr htw ht hl
    exact ⟨t, hexec, htank.tank, hphase, hlatched, hnamed, ⟨htank.claim, htank.ended⟩, htank.others, hframe⟩
  case surge =>
    refine qualified_latches (q := .surge) hr rfl ht hm ?_ hl
    rcases hp with hp | hp <;> simp [Cause.latchesIn, hp]
  case leak =>
    refine qualified_latches (q := .leak) hr rfl ht hm ?_ hl
    rcases hp with hp | hp <;> simp [Cause.latchesIn, Phase.flowing, hp]
end

section
/-! SUPPORT. One channel: what a switch, the dwell and the release of a pending close do to it (R82 to R92). -/

namespace Sys2Proof.Machine

variable {c : Channel} {os cs : Bool}

/-! ## The drive -/

@[simp] theorem Channel.driveOff_drive (c : Channel) : c.driveOff.drive = .off := by
  unfold Channel.driveOff
  split
  · assumption
  · rfl

@[simp] theorem Channel.arrive_drive (c : Channel) : c.arrive.drive = .off := c.driveOff_drive

@[simp] theorem Channel.toFault_drive (c : Channel) : c.toFault.drive = .off := c.driveOff_drive

@[simp] theorem Channel.follow_drive (c : Channel) (os cs : Bool) : (c.follow os cs).drive = c.drive := by
  cases os <;> cases cs <;> simp only [Channel.follow]
  split <;> rfl

/-- R83: a drive that goes off starts the dwell and stops the travel timer. -/
theorem Channel.driveOff_driven (h : c.drive ≠ .off) :
    c.driveOff = { c with drive := .off, dwell := ⟨true, 0⟩, travel := ⟨false, 0⟩ } := if_neg h

/-- R87: the travel limit puts a driven channel into FAULT. -/
theorem Channel.toFault_driven (h : c.drive ≠ .off) :
    c.toFault = ⟨.fault, .none, false, .off, ⟨true, 0⟩, ⟨false, 0⟩⟩ := by
  rw [Channel.toFault, Channel.driveOff_driven h]

/-- R82: a channel with no command takes the state of its switches, and nothing else of it changes. -/
theorem Channel.follow_uncommanded (hc : c.command = .none) (hp : c.pending = false) :
    c.follow os cs = { c with state := restState c.state os cs } := by
  cases os <;> cases cs <;> simp only [Channel.follow, restState]
  case false.false => split <;> rfl
  case false.true => rw [← hc, ← hp]

/-! ## Arrival and going on -/

/-- R86: a channel is at the end of its command. -/
theorem Channel.arrived_iff :
    c.arrived os cs = true
      ↔ c.command = .opened ∧ os = true ∧ cs = false ∨ c.command = .close ∧ cs = true ∧ os = false := by
  cases hc : c.command <;> simp [Channel.arrived, hc]

/-- R83: a channel that has not arrived drives on where nothing holds it back. -/
theorem Channel.progress_drives (ha : c.arrived os cs = false) (hc : c.command ≠ .none) (hp : c.pending = false)
    (hw : c.dwell.running = false) (hb : ¬ (os = true ∧ cs = true)) (hd : c.drive = .off) :
    c.progress os cs = c.driveOn := by
  have hboth : (os && cs) = false := by rwa [← Bool.not_eq_true, Bool.and_eq_true]
  have hmay : c.mayDrive os cs = true := by simp [Channel.mayDrive, hc, hp, hw, hd, hboth]
  simp [Channel.progress, ha, hmay]

theorem Channel.progress_uncommanded (hc : c.command = .none) : c.progress os cs = c := by
  simp [Channel.progress, Channel.arrived, Channel.mayDrive, hc]

/-- R83: at the end of its dwell a channel that waits drives on towards the end of its command. -/
theorem Channel.endDwell_drives {cmd : ValveCommand} {d : Drive}
    (hcd : cmd = .opened ∧ d = .opened ∨ cmd = .close ∧ d = .close)
    (hc : c.command = cmd) (hp : c.pending = false) (hd : c.drive = .off) (hb : ¬ (os = true ∧ cs = true))
    (ho : ¬ (cmd = .opened ∧ os = true)) (hs : ¬ (cmd = .close ∧ cs = true)) :
    c.endDwell.progress os cs = { c with dwell := ⟨false, 0⟩, drive := d, travel := ⟨true, 0⟩ } := by
  have harrived : c.endDwell.arrived os cs = false := by
    rw [← Bool.not_eq_true, Channel.arrived_iff]
    rintro (⟨hopen, hon, -⟩ | ⟨hclose, hon, -⟩)
    · exact ho ⟨hc ▸ hopen, hon⟩
    · exact hs ⟨hc ▸ hclose, hon⟩
  have hcommand : c.endDwell.command ≠ .none := by
    rcases hcd with ⟨rfl, -⟩ | ⟨rfl, -⟩ <;> simp [Channel.endDwell, hc]
  rw [Channel.progress_drives harrived hcommand hp rfl hb hd]
  rcases hcd with ⟨rfl, rfl⟩ | ⟨rfl, rfl⟩ <;>
    simp [Channel.driveOn, Channel.endDwell, hc, Timer.stopped, Timer.fromZero]

/-! ## Told to close (R85, R90) -/

/-- R85: a channel told to close at once, before it drives on. -/
def Channel.toClose (c : Channel) : Channel := { c with pending := false, command := .close, state := .closing }

/-- R85, R86: a channel told to close goes on closing, or is shut. -/
theorem Channel.toClose_closes (c : Channel) (os cs : Bool) : (c.toClose.progress os cs).Closes := by
  unfold Channel.progress
  split
  · exact ⟨.inr rfl, rfl⟩
  · split
    · exact ⟨.inl rfl, rfl⟩
    · exact ⟨.inl rfl, rfl⟩

/-- R85: with its shut switch off it is closing. -/
theorem Channel.toClose_closing (c : Channel) (os : Bool) :
    (c.toClose.progress os false).state = .closing ∧ (c.toClose.progress os false).command = .close := by
  have harrived : ¬ c.toClose.arrived os false = true := by simp [Channel.arrived, Channel.toClose]
  unfold Channel.progress
  rw [if_neg harrived]
  split
  · exact ⟨rfl, rfl⟩
  · exact ⟨rfl, rfl⟩

/-- R83: with its shut switch off it drives towards the close end where nothing holds it back. -/
theorem Channel.toClose_drives (os : Bool) (hw : c.dwell.running = false) (hd : c.drive = .off) :
    c.toClose.progress os false
      = { c with pending := false, command := .close, state := .closing, drive := .close, travel := ⟨true, 0⟩ } :=
  Channel.progress_drives (by simp [Channel.arrived, Channel.toClose]) (by simp [Channel.toClose]) rfl hw (by simp) hd

/-- R90: release of a channel whose close is pending. -/
theorem Channel.release_pending (os cs : Bool) (hp : c.pending = true) : c.release os cs = c.toClose.progress os cs :=
  if_pos hp

theorem Channel.release_unpending (os cs : Bool) (hp : c.pending = false) : c.release os cs = c := by
  simp [Channel.release, hp]

/-! ## A switch that changes (R88) -/

section
variable {sw : Switch} {on active : Bool} {h : HoldOff}

/-- R86: arrival. -/
theorem Channel.switched_arrived (ha : c.arrived os cs = true) (hf : c.state ≠ .fault) :
    c.switched sw on active h os cs = (c.arrive, false) := by
  have hnot : (os && cs) = false := by
    rcases Channel.arrived_iff.1 ha with ⟨-, ho, hs⟩ | ⟨-, hs, ho⟩ <;> simp [ho, hs]
  simp [Channel.switched, hnot, hf, ha]

/-- R88: both switches on. -/
theorem Channel.switched_both (hf : c.state ≠ .fault) : c.switched sw on active h true true = (c.toFault, true) := by
  simp [Channel.switched, hf]

/-- R88: a change at rest in an active phase. -/
theorem Channel.switched_moved (hc : c.command = .none) (hd : c.drive = .off) (hf : c.state ≠ .fault) :
    c.switched sw on true h os cs = (c.toFault, true) := by
  have harrived : c.arrived os cs = false := by simp [Channel.arrived, hc]
  have hright : c.wrongEnd sw on = false := by simp [Channel.wrongEnd, hd]
  have hrest : c.atRest = true := by simp [Channel.atRest, hc, hd]
  cases hb : os && cs <;> simp [Channel.switched, hb, hf, harrived, hright, hrest]

/-- R88: the wrong end while driving. -/
theorem Channel.switched_wrongEnd (hw : c.wrongEnd sw on = true) (ha : c.arrived os cs = false)
    (hf : c.state ≠ .fault) : c.switched sw on active h os cs = (c.toFault, true) := by
  cases hb : os && cs <;> simp [Channel.switched, hb, hf, ha, hw]

/-- R82: a channel at rest, not in FAULT, outside the active phases. -/
theorem Channel.switched_rests (hc : c.command = .none) (hd : c.drive = .off) (hb : ¬ (os = true ∧ cs = true))
    (hf : c.state ≠ .fault) : c.switched sw on false h os cs = (c.follow os cs, false) := by
  have harrived : c.arrived os cs = false := by simp [Channel.arrived, hc]
  have hright : c.wrongEnd sw on = false := by simp [Channel.wrongEnd, hd]
  have hrest : c.atRest = true := by simp [Channel.atRest, hc, hd]
  simp [Channel.switched, hb, hf, harrived, hright, hrest]

/-- R92: a channel in FAULT outside the active phases. -/
theorem Channel.switched_recovers (hb : ¬ (os = true ∧ cs = true)) (hf : c.state = .fault) :
    c.switched sw on false h os cs = ((c.follow os cs).afterFault c h os cs, false) := by
  simp [Channel.switched, hb, hf]

/-- R88: FAULT stays in an active phase, and with both switches on. -/
theorem Channel.switched_stays (hstay : active = true ∨ os = true ∧ cs = true) (hf : c.state = .fault) :
    c.switched sw on active h os cs = (c, false) := by
  rcases hstay with rfl | ⟨rfl, rfl⟩
  · cases hb : os && cs <;> simp [Channel.switched, hb, hf]
  · simp [Channel.switched, hf]

end

/-- R88: the ways into FAULT. -/
theorem Channel.switched_faults {sw : Switch} {on active : Bool} (h : HoldOff) (hf : c.state ≠ .fault)
    (ho : sw = .openSw → os = on) (hs : sw = .shutSw → cs = on)
    (hway : (os = true ∧ cs = true) ∨ (active = true ∧ c.command = .none ∧ c.drive = .off)
      ∨ (on = true ∧ sw = .shutSw ∧ c.command = .opened ∧ c.drive = .opened)
      ∨ (on = true ∧ sw = .openSw ∧ c.command = .close ∧ c.drive = .close)) :
    c.switched sw on active h os cs = (c.toFault, true) := by
  rcases hway with ⟨rfl, rfl⟩ | ⟨rfl, hc, hd⟩ | ⟨rfl, rfl, hc, hd⟩ | ⟨rfl, rfl, hc, hd⟩
  · exact Channel.switched_both hf
  · exact Channel.switched_moved hc hd hf
  · exact Channel.switched_wrongEnd (by simp [Channel.wrongEnd, hd]) (by simp [Channel.arrived, hc, hs]) hf
  · exact Channel.switched_wrongEnd (by simp [Channel.wrongEnd, hd]) (by simp [Channel.arrived, hc, ho]) hf

/-! ## Out of FAULT (R92) -/

theorem Channel.afterFault_holding (hf : c.state = .fault) (hp : c.pending = false) :
    (c.follow true false).afterFault c .holding true false
      = { c with state := .opened, command := .close, pending := true } := by
  simp [Channel.afterFault, Channel.follow, hf, hp, Channel.closePending]

/-- R92: once RELEASED the channel closes at once. -/
theorem Channel.afterFault_released (hf : c.state = .fault) (hp : c.pending = false) :
    (c.follow true false).afterFault c .released true false = c.toClose.progress true false := by
  simp [Channel.afterFault, Channel.follow, hf, hp, Channel.close, Channel.toClose]

theorem Channel.afterFault_none (c old : Channel) (os cs : Bool) : c.afterFault old .none os cs = c := by
  simp [Channel.afterFault]

end Sys2Proof.Machine
end

section
/-! SUPPORT and the proof of O46: a valve switch changes (R82, R86, R88, R92). -/

namespace Sys2Proof.Machine

variable {s : State} {n : Ch} {c : Channel}

/-! ## A channel takes a record -/

theorem State.putChannels_frame (s : State) (q : Quad Channel) :
    Frame [.channels] s { s with vp := { s.vp with channels := q } } := by
  intro p hp
  cases p <;> first | exact absurd (by decide) hp | simp [Part.same]

theorem State.putChannel_frame (s : State) (n : Ch) (c : Channel) :
    Frame [.channels, .frames, .pressure] s (s.putChannel n c) :=
  ((s.putChannels_frame _).mono (by decide)).trans ((s.putChannel_from n c).frame.mono (by decide))

/-- R109: with no drive going on, HW is told of no movement. -/
theorem State.putChannel_undriven (h : (s.vp.channels.get n).drive = .off → c.drive = .off) :
    s.putChannel n c = ({ s with vp := { s.vp with channels := s.vp.channels.set n c } } : State).askStatusIf
      (s.channelUsed n && (s.vp.channels.get n).state != c.state) := by
  unfold State.putChannel
  refine if_neg fun hmoves => ?_
  simp only [Bool.and_eq_true, beq_iff_eq, bne_iff_ne] at hmoves
  exact hmoves.2 (h hmoves.1.2)

theorem State.putChannel_undriven_frame (h : (s.vp.channels.get n).drive = .off → c.drive = .off) :
    Frame [.channels, .frames] s (s.putChannel n c) := by
  rw [State.putChannel_undriven h]
  exact ((s.putChannels_frame _).mono (by decide)).trans ((State.askStatusIf_keeps _ _).frame.mono (by decide))

/-- R93: outside RUNNING, and for a channel that is not in use, no STATUS is asked for. -/
theorem State.putChannel_silent (hq : s.running = false ∨ s.channelUsed n = false)
    (h : (s.vp.channels.get n).drive = .off → c.drive = .off) :
    s.putChannel n c = { s with vp := { s.vp with channels := s.vp.channels.set n c } } := by
  rw [State.putChannel_undriven h]
  rcases hq with hq | hq
  · have hrunning : ({ s with vp := { s.vp with channels := s.vp.channels.set n c } } : State).running = false := hq
    simp [State.askStatusIf, State.askStatus, State.ask, hrunning]
  · simp [State.askStatusIf, hq]

theorem Quad.set_get_self {α : Type} (q : Quad α) (n : Ch) : q.set n (q.get n) = q := by cases n <;> rfl

theorem State.putChannel_self (s : State) (n : Ch) : s.putChannel n (s.vp.channels.get n) = s := by
  rw [State.putChannel_undriven id, Quad.set_get_self]
  simp [State.askStatusIf]

/-- A channel has taken a record from `s` to `t`, and the levels have been watched. -/
structure ChannelTaken (s t : State) (n : Ch) (c : Channel) : Prop where
  taken : t.vp.channels.get n = c
  others : ∀ m, m ≠ n → t.vp.channels.get m = s.vp.channels.get m
  frame : Frame (watchParts ++ [.channels, .pressure]) s t
  undriven : ((s.vp.channels.get n).drive = .off → c.drive = .off) → Frame (watchParts ++ [.channels]) s t

theorem State.putChannel_taken (s : State) (n : Ch) (c : Channel) : ChannelTaken s (s.putChannel n c).watch n c := by
  have hwatch := (s.putChannel n c).watch_keeps
  obtain ⟨hchannels, -⟩ := hwatch.part .channels (by decide)
  refine ⟨?_, fun m hm => ?_, ?_, fun h => ?_⟩
  · rw [hchannels, State.putChannel_get, if_pos rfl]
  · rw [hchannels, State.putChannel_get, if_neg hm]
  · exact ((s.putChannel_frame n c).mono (by decide)).trans (hwatch.frame.mono (by decide))
  · exact ((State.putChannel_undriven_frame h).mono (by decide)).trans (hwatch.frame.mono (by decide))

/-! ## A channel put into FAULT, and VALVE handed (R87, R88) -/

/-- R87, R88: the channel into FAULT, VALVE handed, the levels watched. -/
def State.failChannel (s : State) (n : Ch) : State :=
  ((s.putChannel n (s.vp.channels.get n).toFault).handValve n).watch

/-- R61, R65: in an active phase VALVE latches. -/
theorem State.failChannel_latches (hr : s.running = true) (ha : s.pc.phase.active = true)
    (hl : s.hasLatched .valve = false) :
    (s.failChannel n).pc.phase = .tripped ∧ ⟨.valve, some n.num⟩ ∈ (s.failChannel n).tu.latched
      ∧ Frame cascadeParts s (s.failChannel n) := by
  have hframe := s.putChannel_frame n (s.vp.channels.get n).toFault
  have hfrom := s.putChannel_from n (s.vp.channels.get n).toFault
  unfold State.failChannel
  generalize s.putChannel n (s.vp.channels.get n).toFault = u at *
  have hrunning : u.running = true := (hfrom.running (by decide)).trans hr
  obtain ⟨hphase, -, -⟩ := hframe.part .phase (by decide)
  obtain ⟨-, hlatched, -⟩ := hframe.part .tripRecord (by decide)
  have hlatch : u.handValve n = u.latch .valve (some n.num) :=
    State.handCause_latches _ hrunning (by rw [hphase]; exact ha) rfl
  obtain ⟨htripped, hprefix, -⟩ := State.latch_new (s := u) (c := .valve) (some n.num)
    (by simpa only [State.hasLatched, hlatched] using hl)
  have hwatch := (u.latch .valve (some n.num)).watch_keeps
  rw [hlatch]
  refine ⟨(hwatch.part .phase (by decide)).1.trans htripped, ?_, ?_⟩
  · rw [(hwatch.part .tripRecord (by decide)).2.1]
    exact hprefix.subset (by simp)
  · exact (hframe.mono (by decide)).trans ((u.latch_keeps _ _).frame.trans (hwatch.frame.mono (by decide)))

/-- R61: outside the active phases VALVE does not latch. -/
theorem State.failChannel_unlisted (h : s.running = false ∨ s.pc.phase.active = false) :
    ChannelTaken s (s.failChannel n) n (s.vp.channels.get n).toFault
      ∧ Frame (watchParts ++ [.channels]) s (s.failChannel n) := by
  have hframe := s.putChannel_frame n (s.vp.channels.get n).toFault
  have hnot : (s.putChannel n (s.vp.channels.get n).toFault).handValve n
      = s.putChannel n (s.vp.channels.get n).toFault := by
    rcases h with h | h
    · exact State.handCause_idle _ _ (((s.putChannel_from n _).running (by decide)).trans h)
    · exact State.handCause_unlisted _ (by rw [(hframe.part .phase (by decide)).1]; exact h)
  have htaken := s.putChannel_taken n (s.vp.channels.get n).toFault
  unfold State.failChannel
  rw [hnot]
  exact ⟨htaken, htaken.undriven fun _ => Channel.toFault_drive _⟩

/-! ## The switch -/

/-- The switch of a channel at its new level. -/
def State.switchedTo (s : State) (n : Ch) (sw : Switch) (on : Bool) : State :=
  { s with inputs := s.inputs.setSwitch n sw on }

/-- R88: a switch of channel `n` changes to `on`; its open and shut switches are then at `os` and `cs`. -/
structure SwitchChanges (s : State) (n : Ch) (sw : Switch) (on os cs : Bool) : Prop where
  changes : s.inputs.switch n sw ≠ on
  opened : (s.switchedTo n sw on).openOn n = os
  shut : (s.switchedTo n sw on).shutOn n = cs
  openNew : sw = .openSw → os = on
  shutNew : sw = .shutSw → cs = on

variable {sw : Switch} {on os cs : Bool}

theorem SwitchChanges.of_levels (ho : os = (if sw = .openSw then on else s.inputs.openSw.get n))
    (hs : cs = (if sw = .shutSw then on else s.inputs.shutSw.get n))
    (hne : (if sw = .openSw then s.inputs.openSw.get n else s.inputs.shutSw.get n) ≠ on) :
    SwitchChanges s n sw on os cs := by
  subst ho hs
  cases sw
  case openSw => exact ⟨hne, Quad.get_set_self _ n on, rfl, fun _ => rfl, nofun⟩
  case shutSw => exact ⟨hne, rfl, Quad.get_set_self _ n on, nofun, fun _ => rfl⟩

theorem State.switchedTo_frame (s : State) (n : Ch) (sw : Switch) (on : Bool) :
    Frame [.inputs] s (s.switchedTo n sw on) := (s.putInputs_keeps _).frame

/-- R88: a switch of a channel in use of a RUNNING station. -/
theorem SwitchChanges.exec_used (h : SwitchChanges s n sw on os cs) (hr : s.running = true)
    (hu : s.channelUsed n = true) :
    exec (.valveSwitchChange n sw on) s = .next ((s.switchedTo n sw on).switchUsed n sw on) :=
  congrArg Host.Outcome.next ((if_neg h.changes).trans (if_pos (by simp [hr, hu])))

/-- R82: a switch of any other channel. -/
theorem SwitchChanges.exec_unused (h : SwitchChanges s n sw on os cs)
    (hq : s.running = false ∨ s.channelUsed n = false) :
    exec (.valveSwitchChange n sw on) s = .next ((s.switchedTo n sw on).switchUnused n) :=
  congrArg Host.Outcome.next ((if_neg h.changes).trans (if_neg (by
    rcases hq with hq | hq <;> simp [hq])))

/-- R88: a change with which VALVE is not handed. -/
theorem SwitchChanges.exec_moved (h : SwitchChanges s n sw on os cs) (hr : s.running = true)
    (hu : s.channelUsed n = true)
    (hc : (s.vp.channels.get n).switched sw on s.pc.phase.active s.tripHoldOff os cs = (c, false)) :
    exec (.valveSwitchChange n sw on) s = .next ((s.switchedTo n sw on).putChannel n c).watch := by
  have hswitched : ((s.switchedTo n sw on).vp.channels.get n).switched sw on (s.switchedTo n sw on).pc.phase.active
      (s.switchedTo n sw on).tripHoldOff os cs = (c, false) := hc
  rw [h.exec_used hr hu, State.switchUsed, h.opened, h.shut, hswitched]
  rfl

/-- R88: a change with which VALVE is handed. -/
theorem SwitchChanges.exec_failed (h : SwitchChanges s n sw on os cs) (hr : s.running = true)
    (hu : s.channelUsed n = true)
    (hc : (s.vp.channels.get n).switched sw on s.pc.phase.active s.tripHoldOff os cs
      = ((s.vp.channels.get n).toFault, true)) :
    exec (.valveSwitchChange n sw on) s = .next ((s.switchedTo n sw on).failChannel n) := by
  have hswitched : ((s.switchedTo n sw on).vp.channels.get n).switched sw on (s.switchedTo n sw on).pc.phase.active
      (s.switchedTo n sw on).tripHoldOff os cs = ((s.vp.channels.get n).toFault, true) := hc
  rw [h.exec_used hr hu, State.switchUsed, h.opened, h.shut, hswitched]
  rfl

/-- R17, R88: READY and CLOSED after a change at a channel in use. -/
theorem State.switchUsed_flagsRight (s : State) (n : Ch) (sw : Switch) (on : Bool) :
    FlagsRight (s.switchUsed n sw on) := State.watch_flagsRight _

/-- R92: out of FAULT in TRIPPED, with the open switch on. -/
theorem State.switched_recovers (hp : s.pc.phase = .tripped) (hf : (s.vp.channels.get n).state = .fault)
    (ho : os = true) (hs : cs = false) :
    (s.vp.channels.get n).switched sw on s.pc.phase.active s.tripHoldOff os cs
      = (((s.vp.channels.get n).follow true false).afterFault (s.vp.channels.get n) s.vp.holdOff true false,
        false) := by
  have hhold : s.tripHoldOff = s.vp.holdOff := if_pos hp
  rw [hp, hhold, ho, hs]
  exact Channel.switched_recovers (by simp) hf

/-! ## The cases of a channel in use -/

section
variable (h : SwitchChanges s n sw on os cs) (hr : s.running = true)
    (hu : s.channelUsed n = true)
include h hr hu

/-- R88: what a change leaves with which VALVE is not handed. -/
theorem SwitchChanges.moved
    (hc : (s.vp.channels.get n).switched sw on s.pc.phase.active s.tripHoldOff os cs = (c, false)) :
    ∃ t, exec (.valveSwitchChange n sw on) s = .next t ∧ t.vp.channels.get n = c
      ∧ Frame (watchParts ++ [.inputs, .channels, .pressure]) s t
      ∧ (((s.vp.channels.get n).drive = .off → c.drive = .off) → Frame (watchParts ++ [.inputs, .channels]) s t) := by
  have htaken := (s.switchedTo n sw on).putChannel_taken n c
  have hinputs := s.switchedTo_frame n sw on
  exact ⟨_, h.exec_moved hr hu hc, htaken.taken, (hinputs.mono (by decide)).trans (htaken.frame.mono (by decide)),
    fun hd => (hinputs.mono (by decide)).trans ((htaken.undriven hd).mono (by decide))⟩

/-- R86: arrival. -/
theorem SwitchChanges.arrives {cmd : ValveCommand}
    (hcmd : cmd = .opened ∧ os = true ∧ cs = false ∨ cmd = .close ∧ cs = true ∧ os = false)
    (hc : (s.vp.channels.get n).command = cmd) (hf : (s.vp.channels.get n).state ≠ .fault) :
    ∃ t, exec (.valveSwitchChange n sw on) s = .next t
      ∧ (t.vp.channels.get n).state = (if cmd = .opened then .opened else .shut)
      ∧ (t.vp.channels.get n).command = .none ∧ (t.vp.channels.get n).pending = false
      ∧ (t.vp.channels.get n).drive = .off
      ∧ ((s.vp.channels.get n).drive ≠ .off →
          (t.vp.channels.get n).dwell = ⟨true, 0⟩ ∧ (t.vp.channels.get n).travel = ⟨false, 0⟩)
      ∧ Frame (watchParts ++ [.inputs, .channels]) s t := by
  have harrived : (s.vp.channels.get n).arrived os cs = true := Channel.arrived_iff.2 (hc ▸ hcmd)
  obtain ⟨t, hexec, htaken, -, hframe⟩ := h.moved hr hu (Channel.switched_arrived harrived hf)
  refine ⟨t, hexec, ?_, ?_, ?_, ?_, fun hd => ?_, hframe fun _ => Channel.arrive_drive _⟩ <;> rw [htaken]
  · rw [← hc]
    rfl
  · rfl
  · rfl
  · exact Channel.arrive_drive _
  · rw [Channel.arrive, Channel.driveOff_driven hd]
    exact ⟨rfl, rfl⟩

/-- R88: into FAULT. -/
theorem SwitchChanges.fails
    (hc : (s.vp.channels.get n).switched sw on s.pc.phase.active s.tripHoldOff os cs
      = ((s.vp.channels.get n).toFault, true)) :
    ∃ t, exec (.valveSwitchChange n sw on) s = .next t
      ∧ (s.pc.phase.active = true → s.hasLatched .valve = false →
          t.pc.phase = .tripped ∧ ⟨.valve, some n.num⟩ ∈ t.tu.latched ∧ Frame (cascadeParts ++ [.inputs]) s t)
      ∧ (s.pc.phase.active = false →
          (t.vp.channels.get n).state = .fault ∧ (t.vp.channels.get n).command = .none
            ∧ (t.vp.channels.get n).pending = false ∧ (t.vp.channels.get n).drive = .off
            ∧ Frame (watchParts ++ [.inputs, .channels]) s t) := by
  have hinputs := s.switchedTo_frame n sw on
  refine ⟨_, h.exec_failed hr hu hc, fun ha hl => ?_, fun ha => ?_⟩
  · obtain ⟨hphase, hlatched, hframe⟩ := State.failChannel_latches (s := s.switchedTo n sw on) (n := n) hr ha hl
    exact ⟨hphase, hlatched, (hinputs.mono (by decide)).trans (hframe.mono (by decide))⟩
  · obtain ⟨htaken, hframe⟩ := State.failChannel_unlisted (s := s.switchedTo n sw on) (n := n) (.inr ha)
    rw [htaken.taken]
    exact ⟨rfl, rfl, rfl, Channel.toFault_drive _, (hinputs.mono (by decide)).trans (hframe.mono (by decide))⟩

/-- R82: at rest outside the active phases the channel follows its switches. -/
theorem SwitchChanges.follows (ha : s.pc.phase.active = false) (hc : (s.vp.channels.get n).command = .none)
    (hd : (s.vp.channels.get n).drive = .off) (hp : (s.vp.channels.get n).pending = false)
    (hb : ¬ (os = true ∧ cs = true)) (ht : s.pc.phase = .tripped → (s.vp.channels.get n).state ≠ .fault) :
    ∃ t, exec (.valveSwitchChange n sw on) s = .next t
      ∧ t.vp.channels.get n = { s.vp.channels.get n with state := restState (s.vp.channels.get n).state os cs }
      ∧ Frame (watchParts ++ [.inputs, .channels]) s t := by
  have hswitched : (s.vp.channels.get n).switched sw on s.pc.phase.active s.tripHoldOff os cs
      = ((s.vp.channels.get n).follow os cs, false) := by
    rw [ha]
    by_cases hf : (s.vp.channels.get n).state = .fault
    · have hnone : s.tripHoldOff = .none := if_neg fun hphase => ht hphase hf
      rw [Channel.switched_recovers hb hf, hnone, Channel.afterFault_none]
    · exact Channel.switched_rests hc hd hb hf
  obtain ⟨t, hexec, htaken, -, hframe⟩ := h.moved hr hu hswitched
  rw [Channel.follow_uncommanded hc hp] at htaken hframe
  exact ⟨t, hexec, htaken, hframe id⟩

/-- R92: out of FAULT while HOLDING. -/
theorem SwitchChanges.recovers_holding (hp : s.pc.phase = .tripped) (hh : s.vp.holdOff = .holding)
    (hf : (s.vp.channels.get n).state = .fault) (hq : (s.vp.channels.get n).pending = false) (ho : os = true)
    (hs : cs = false) :
    ∃ t, exec (.valveSwitchChange n sw on) s = .next t
      ∧ t.vp.channels.get n = { s.vp.channels.get n with state := .opened, command := .close, pending := true }
      ∧ Frame (watchParts ++ [.inputs, .channels]) s t := by
  obtain ⟨t, hexec, htaken, -, hframe⟩ := h.moved hr hu (State.switched_recovers hp hf ho hs)
  rw [hh, Channel.afterFault_holding hf hq] at htaken hframe
  exact ⟨t, hexec, htaken, hframe id⟩

/-- R92: out of FAULT once RELEASED. -/
theorem SwitchChanges.recovers_released (hp : s.pc.phase = .tripped) (hh : s.vp.holdOff = .released)
    (hf : (s.vp.channels.get n).state = .fault) (hq : (s.vp.channels.get n).pending = false) (ho : os = true)
    (hs : cs = false) :
    ∃ t, exec (.valveSwitchChange n sw on) s = .next t
      ∧ (t.vp.channels.get n).state = .closing ∧ (t.vp.channels.get n).command = .close
      ∧ (t.vp.channels.get n).pending = false
      ∧ ((s.vp.channels.get n).dwell.running = false → (s.vp.channels.get n).drive = .off →
          (t.vp.channels.get n).drive = .close ∧ (t.vp.channels.get n).travel = ⟨true, 0⟩)
      ∧ Frame (watchParts ++ [.inputs, .channels, .pressure]) s t := by
  obtain ⟨t, hexec, htaken, hframe, -⟩ := h.moved hr hu (State.switched_recovers hp hf ho hs)
  rw [hh, Channel.afterFault_released hf hq] at htaken
  obtain ⟨hstate, hcommand⟩ := (s.vp.channels.get n).toClose_closing true
  obtain ⟨-, hpending⟩ := (s.vp.channels.get n).toClose_closes true false
  refine ⟨t, hexec, ?_⟩
  rw [htaken]
  refine ⟨hstate, hcommand, hpending, fun hw hd => ?_, hframe⟩
  rw [Channel.toClose_drives true hw hd]
  exact ⟨rfl, rfl⟩

/-- R88: FAULT stays. -/
theorem SwitchChanges.stays (hstay : s.pc.phase.active = true ∨ os = true ∧ cs = true)
    (hf : (s.vp.channels.get n).state = .fault) :
    ∃ t, exec (.valveSwitchChange n sw on) s = .next t ∧ t.vp = s.vp ∧ t.pc.phase = s.pc.phase
      ∧ Frame (watchParts ++ [.inputs]) s t := by
  have hself : (s.switchedTo n sw on).putChannel n (s.vp.channels.get n) = s.switchedTo n sw on :=
    (s.switchedTo n sw on).putChannel_self n
  have hexec := h.exec_moved hr hu (Channel.switched_stays hstay hf)
  rw [hself] at hexec
  have hwatch := (s.switchedTo n sw on).watch_keeps
  exact ⟨_, hexec, (s.switchedTo n sw on).watch_sameFacts.vp, (hwatch.part .phase (by decide)).1,
    ((s.switchedTo_frame n sw on).mono (by decide)).trans (hwatch.frame.mono (by decide))⟩

end

/-! ## Any other channel -/

/-- R82: a channel that is not in use, or of a station that is not RUNNING, follows its switches at rest. -/
theorem State.switchUnused_eq (hq : s.running = false ∨ s.channelUsed n = false) :
    s.switchUnused n = if (s.vp.channels.get n).atRest then
      { s with vp := { s.vp with
          channels := s.vp.channels.set n ((s.vp.channels.get n).follow (s.openOn n) (s.shutOn n)) } } else s := by
  rw [State.switchUnused, State.putChannel_silent hq fun hd => (Channel.follow_drive _ _ _).trans hd]

/-- R82: any other channel. -/
theorem SwitchChanges.unused (h : SwitchChanges s n sw on os cs) (hq : s.running = false ∨ s.channelUsed n = false) :
    ∃ t, exec (.valveSwitchChange n sw on) s = .next t
      ∧ ((s.vp.channels.get n).drive = .off → (s.vp.channels.get n).command = .none →
          (s.vp.channels.get n).pending = false →
          t.vp.channels.get n
            = { s.vp.channels.get n with state := restState (s.vp.channels.get n).state os cs })
      ∧ ((s.vp.channels.get n).drive ≠ .off → t.vp = s.vp)
      ∧ (∀ m, m ≠ n → t.vp.channels.get m = s.vp.channels.get m)
      ∧ t.inputs.openSw.get n = os ∧ t.inputs.shutSw.get n = cs
      ∧ Frame [.inputs, .channels] s t := by
  have hunused : (s.switchedTo n sw on).switchUnused n = if (s.vp.channels.get n).atRest then
      { s.switchedTo n sw on with vp := { s.vp with
          channels := s.vp.channels.set n ((s.vp.channels.get n).follow os cs) } } else s.switchedTo n sw on := by
    rw [State.switchUnused_eq (s := s.switchedTo n sw on) hq, h.opened, h.shut]
    rfl
  have hinputs := (s.switchedTo_frame n sw on).mono (U := [.inputs, .channels]) (by decide)
  refine ⟨_, h.exec_unused hq, ?_⟩
  rw [hunused]
  cases hrest : (s.vp.channels.get n).atRest with
  | true =>
    have hoff : (s.vp.channels.get n).drive = .off := by simp_all [Channel.atRest]
    refine ⟨fun _ hc hp => ?_, fun hd => absurd hoff hd, fun m hm => Quad.get_set_of_ne _ hm _, h.opened, h.shut,
      hinputs.trans (((s.switchedTo n sw on).putChannels_frame _).mono (by decide))⟩
    exact (Quad.get_set_self _ n _).trans (Channel.follow_uncommanded hc hp)
  | false =>
    refine ⟨fun hd hc _ => ?_, fun _ => rfl, fun _ _ => rfl, h.opened, h.shut, hinputs⟩
    simp [Channel.atRest, hd, hc] at hrest

end Sys2Proof.Machine

open Sys2Proof Sys2Proof.Machine

/-- Settles O46: each way in which a switch can change is one branch of what a channel does with it (R88). -/
theorem valveSwitches : Obligations.ValveSwitches := by
  intro s n sw on os cs ho hs hne
  have h : SwitchChanges s n sw on os cs := .of_levels ho hs hne
  refine ⟨fun hr hu => ⟨?arrival, ?fault, ?following, ?holding, ?released, ?stays⟩, fun hr hu => ?flags,
    fun hq => h.unused hq⟩
  case arrival => exact fun cmd hcmd hc hf => h.arrives hr hu hcmd hc hf
  case fault => exact fun hway hf => h.fails hr hu (Channel.switched_faults _ hf h.openNew h.shutNew hway)
  case following => exact fun ha hc hd hp hb ht => h.follows hr hu ha hc hd hp hb ht
  case holding => exact fun hp hh hf hq ho hs => h.recovers_holding hr hu hp hh hf hq ho hs
  case released => exact fun hp hh hf hq ho hs => h.recovers_released hr hu hp hh hf hq ho hs
  case stays => exact fun hstay hf => h.stays hr hu hstay hf
  case flags => exact ⟨_, h.exec_used hr hu, State.switchUsed_flagsRight _ _ _ _⟩
end

section
/-! SUPPORT and the proof of O47: the valve timers (R83, R87, R90, R109). -/

namespace Sys2Proof.Machine

variable {s : State} {n : Ch} {c : Channel}

/-! ## The dwell (R83, R109) -/

theorem execDwellExpiry_running (h : (s.vp.channels.get n).dwell.running = true) :
    exec (.dwellExpiry n) s
      = .next (s.putChannel n ((s.vp.channels.get n).endDwell.progress (s.openOn n) (s.shutOn n))).watch :=
  congrArg Host.Outcome.next (if_pos h)

theorem State.pressureRole_of_valve (h : s.valveRole = true) : s.pressureRole = true := by
  simp only [State.valveRole, Bool.or_eq_true, State.hasRole_iff] at h
  rcases h with h | h <;> simp [State.pressureRole, h, Role.pressure]

/-- R109: an allowance that opens where no excursion is under way. -/
theorem HoseWatch.openAllowance_opens {w : HoseWatch} {p : Nat} (hp : w.chans.n1.valid = some p)
    (he : w.excursion = .none) :
    w.openAllowance.allowance = ⟨true, 0⟩
      ∧ w.openAllowance.excursion = if w.surgeThreshold < p then .excursion else .allowed := by
  unfold HoseWatch.openAllowance
  rw [hp, he]
  exact ⟨rfl, rfl⟩

/-- R83, R109: a drive of VC1 going on at BV or SV opens the allowance. -/
theorem State.putChannel_opensAllowance (hr : s.running = true) (hv : s.valveRole = true)
    (hoff : s.vp.channels.n1.drive = .off) (hon : c.drive ≠ .off) :
    (s.putChannel .n1 c).hw = s.hw.openAllowance := by
  have hmoves : (s.valveRole && Ch.n1 == Ch.n1 && (s.vp.channels.get .n1).drive == Drive.off && c.drive != Drive.off)
      = true := by
    have hget : (s.vp.channels.get .n1).drive = .off := hoff
    simp [hv, hget, hon]
  have hasked := State.askStatusIf_keeps ({ s with vp := { s.vp with channels := s.vp.channels.set .n1 c } } : State)
    (s.channelUsed .n1 && (s.vp.channels.get .n1).state != c.state)
  unfold State.putChannel
  rw [hmoves]
  have hrunning := (hasked.running (by decide)).trans hr
  have hpressure := State.pressureRole_of_valve ((hasked.valveRole (by decide)).trans hv)
  simp [State.movementIf, State.movement, hrunning, hpressure]

/-- R83, R109: the waiting drive goes on. -/
theorem dwell_expires (h : (s.vp.channels.get n).dwell.running = true) :
    ∃ t, exec (.dwellExpiry n) s = .next t
      ∧ (∀ cmd d, (cmd = .opened ∧ d = .opened ∨ cmd = .close ∧ d = .close) →
          (s.vp.channels.get n).command = cmd → (s.vp.channels.get n).pending = false →
          (s.vp.channels.get n).drive = .off → ¬ (s.openOn n = true ∧ s.shutOn n = true) →
          ¬ (cmd = .opened ∧ s.openOn n = true) → ¬ (cmd = .close ∧ s.shutOn n = true) →
          t.vp.channels.get n
              = { s.vp.channels.get n with dwell := ⟨false, 0⟩, drive := d, travel := ⟨true, 0⟩ }
            ∧ (∀ p, s.running = true → s.valveRole = true → n = .n1 → s.pressure = some p →
                s.hw.excursion = .none →
                t.hw.allowance = ⟨true, 0⟩
                  ∧ t.hw.excursion = (if s.hw.surgeThreshold < p then .excursion else .allowed)))
      ∧ ((s.vp.channels.get n).command = .none →
          t.vp.channels.get n = { s.vp.channels.get n with dwell := ⟨false, 0⟩ })
      ∧ (∀ m, m ≠ n → t.vp.channels.get m = s.vp.channels.get m)
      ∧ Frame (watchParts ++ [.channels, .pressure]) s t := by
  have htaken := s.putChannel_taken n ((s.vp.channels.get n).endDwell.progress (s.openOn n) (s.shutOn n))
  refine ⟨_, execDwellExpiry_running h, fun cmd d hcd hc hp hd hb ho hs => ?_, fun hc => ?_,
    htaken.others, htaken.frame⟩
  · have hdrives := Channel.endDwell_drives hcd hc hp hd hb ho hs
    refine ⟨htaken.taken.trans hdrives, fun p hr hv hn hpressure hnone => ?_⟩
    subst hn
    have hon : d ≠ .off := by rcases hcd with ⟨-, rfl⟩ | ⟨-, rfl⟩ <;> decide
    rw [(State.watch_sameFacts _).hw, State.watchTimers_hw, hdrives, State.putChannel_opensAllowance hr hv hd]
    · exact HoseWatch.openAllowance_opens hpressure hnone
    · exact hon
  · exact htaken.taken.trans (Channel.progress_uncommanded hc)

/-! ## The travel limit (R87) -/

theorem execTravelLimitExpiry_running (h : (s.vp.channels.get n).travel.running = true) :
    exec (.travelLimitExpiry n) s = .next (s.failChannel n) := congrArg Host.Outcome.next (if_pos h)

/-- R87: the channel that has not arrived goes into FAULT, with VALVE handed. -/
theorem travelLimit_expires (h : (s.vp.channels.get n).travel.running = true)
    (hd : (s.vp.channels.get n).drive ≠ .off) :
    ∃ t, exec (.travelLimitExpiry n) s = .next t
      ∧ (s.running = true → s.pc.phase.active = true → s.hasLatched .valve = false →
          t.pc.phase = .tripped ∧ ⟨.valve, some n.num⟩ ∈ t.tu.latched ∧ Frame cascadeParts s t)
      ∧ (s.running = false ∨ s.pc.phase.active = false →
          t.vp.channels.get n = ⟨.fault, .none, false, .off, ⟨true, 0⟩, ⟨false, 0⟩⟩
            ∧ (∀ m, m ≠ n → t.vp.channels.get m = s.vp.channels.get m)
            ∧ Frame (watchParts ++ [.channels]) s t) := by
  refine ⟨_, execTravelLimitExpiry_running h, State.failChannel_latches, fun hq => ?_⟩
  obtain ⟨htaken, hframe⟩ := State.failChannel_unlisted hq
  exact ⟨htaken.taken.trans (Channel.toFault_driven hd), htaken.others, hframe⟩

/-! ## The hold-off (R90) -/

theorem State.mem_channelsUsed (s : State) (n : Ch) : n ∈ s.channelsUsed ↔ s.channelUsed n = true := by
  simp [State.channelsUsed, Ch.mem_all]

theorem State.channelsUsed_nodup (s : State) : s.channelsUsed.Nodup := List.Nodup.filter _ (by decide)

/-- R90: every channel in use is released, and no other. -/
theorem State.releaseAll_get (s : State) (r : ReleaseReason) (n : Ch) :
    (s.releaseAll r).vp.channels.get n
      = if s.channelUsed n = true then (s.vp.channels.get n).release (s.openOn n) (s.shutOn n)
        else s.vp.channels.get n := by
  have hget := State.eachChannel_get (f := State.releaseChannel) (g := Channel.release) (fun _ _ => rfl)
    s.channelsUsed_nodup { s with vp := { s.vp with holdOff := .released, holdOffTimer := .stopped } } n
  simp only [s.mem_channelsUsed] at hget
  exact hget

theorem State.eachChannel_holdOffTimer {f : State → Ch → State}
    (hf : ∀ s n, (f s n).vp.holdOffTimer = s.vp.holdOffTimer)
    (l : List Ch) (s : State) : (s.eachChannel f l).vp.holdOffTimer = s.vp.holdOffTimer := by
  induction l generalizing s with
  | nil => rfl
  | cons n l ih => exact (ih (f s n)).trans (hf s n)

theorem State.releaseAll_holdOffTimer (s : State) (r : ReleaseReason) : (s.releaseAll r).vp.holdOffTimer = ⟨false, 0⟩ :=
  State.eachChannel_holdOffTimer (fun u n => ((u.putChannel_from n _).part .channels (by decide)).2.2) _ _

theorem execHoldOffExpiry_holding (h : s.vp.holdOff = .holding) :
    exec .holdOffExpiry s = .next (s.releaseAll .holdOff).watch := congrArg Host.Outcome.next (if_pos h)

/-- R90: a HOLDING station releases its pending channels. -/
theorem holdOff_expires (h : s.vp.holdOff = .holding) :
    ∃ t, exec .holdOffExpiry s = .next t ∧ t.vp.holdOff = .released ∧ t.vp.holdOffTimer = ⟨false, 0⟩
      ∧ (∀ n : Ch, s.channelUsed n = true → (s.vp.channels.get n).pending = true →
          (t.vp.channels.get n).pending = false
            ∧ ((t.vp.channels.get n).state = .closing ∨ (t.vp.channels.get n).state = .shut)
            ∧ ((s.vp.channels.get n).dwell.running = false → (s.vp.channels.get n).drive = .off →
                s.shutOn n = false →
                t.vp.channels.get n = { s.vp.channels.get n with
                  pending := false, command := .close, state := .closing, drive := .close, travel := ⟨true, 0⟩ }))
      ∧ (∀ n : Ch, (s.channelUsed n = false ∨ (s.vp.channels.get n).pending = false) →
          t.vp.channels.get n = s.vp.channels.get n)
      ∧ Frame (watchParts ++ [.channels, .pressure]) s t := by
  have hwatch := (s.releaseAll .holdOff).watch_keeps
  have hget (n : Ch) : (s.releaseAll .holdOff).watch.vp.channels.get n = _ :=
    (congrArg (Quad.get · n) (hwatch.part .channels (by decide)).1).trans (s.releaseAll_get .holdOff n)
  obtain ⟨-, hhold, htimer⟩ := hwatch.part .channels (by decide)
  refine ⟨_, execHoldOffExpiry_holding h, hhold.trans (s.releaseAll_holdOff _),
    htimer.trans (s.releaseAll_holdOffTimer _), fun n hu hp => ?_, fun n hn => ?_, ?_⟩
  · rw [hget, if_pos hu, Channel.release_pending _ _ hp]
    obtain ⟨hstate, hpending⟩ := (s.vp.channels.get n).toClose_closes (s.openOn n) (s.shutOn n)
    exact ⟨hpending, hstate, fun hw hd hs => hs.symm ▸ Channel.toClose_drives _ hw hd⟩
  · rw [hget]
    split
    · rename_i hu
      exact Channel.release_unpending _ _ (hn.resolve_left (by simp [hu]))
    · rfl
  · exact ((s.releaseAll_keeps _).frame.mono (by decide)).trans (hwatch.frame.mono (by decide))

/-- Log 5: a hold-off that is not HOLDING cannot run out. -/
theorem execHoldOffExpiry_still (h : s.vp.holdOff ≠ .holding) : exec .holdOffExpiry s = .next s :=
  congrArg Host.Outcome.next (if_neg h)

end Sys2Proof.Machine

open Sys2Proof Sys2Proof.Machine

/-- Settles O47: the three expiries, each from what it does to a channel. -/
theorem valveTimers : Obligations.ValveTimers :=
  ⟨fun _ _ h => dwell_expires h, fun _ _ h hd => travelLimit_expires h hd, fun _ h => holdOff_expires h,
    fun _ h => execHoldOffExpiry_still h⟩
end

section
/-! SUPPORT. PC's evaluation after a change of the field: what it leaves where no step is due, that READY and CLOSED are
right after it (R7, R17), and what the latch of PUMP leaves of the pump (R26, R96, R97). -/

namespace Sys2Proof.Machine

variable {s t : State} {T : List Part} {c : Cause} {d : Option Nat} {r : PumpReason}

/-! ## READY and CLOSED -/

/-- READY and CLOSED stay right where what they read stays. -/
theorem FlagsRight.congr (h : FlagsRight s) (k : SameFacts s t) (hready : t.pc.ready = s.pc.ready)
    (hclosed : t.pc.closed = s.pc.closed) : FlagsRight t where
  ready := by rw [hready, h.ready, ← s.readyNow_iff, ← t.readyNow_iff, k.ready]
  closed := by rw [hclosed, h.closed, ← s.closedNow_iff, ← t.closedNow_iff, k.closed]

theorem State.confirm_sameFacts (s : State) : SameFacts s s.confirm := by
  unfold State.confirm
  split
  · exact ⟨rfl, rfl, rfl, rfl, rfl, rfl, rfl, rfl, rfl⟩
  · exact ⟨rfl, rfl, rfl, rfl, rfl, rfl, rfl, rfl, rfl⟩

/-- R10: confirmation leaves READY and CLOSED. -/
theorem FlagsRight.confirm (h : FlagsRight s) : FlagsRight s.confirm := by
  obtain ⟨hready, -, hclosed, -⟩ := s.confirm_keeps.part .flags (by decide)
  exact h.congr s.confirm_sameFacts hready hclosed

/-- R7: an automatic step ends with the levels watched. -/
theorem State.takeTrigger_flagsRight (s : State) (p : Phase × EndKind) : FlagsRight (s.takeTrigger p) :=
  State.watch_flagsRight _

theorem FlagsRight.puSteps (n : Nat) (h : FlagsRight s) : FlagsRight (State.puSteps n s) := by
  induction n generalizing s with
  | zero => exact h
  | succ n ih =>
    unfold State.puSteps
    dsimp only
    split
    · exact h.confirm
    · split
      · exact ih (State.takeTrigger_flagsRight _ _)
      · exact h.confirm

/-- R7, R17: the levels watched and PC's evaluation leave READY and CLOSED as the rules give them. -/
theorem State.evaluate_flagsRight (s : State) : FlagsRight s.watch.puEval := by
  unfold State.puEval
  split
  · exact s.watch_flagsRight.puSteps 8
  · exact s.watch_flagsRight

/-! ## An evaluation with no step due -/

theorem noStepDue_of_resting (h : s.running = false ∨ s.pc.phase.active = false) : NoStepDue s := by
  rcases h with h | h
  · exact .inl (by simp [State.runningPu, h])
  · refine .inr (.inl ?_)
    cases hp : s.pc.phase <;> simp_all [Phase.active]

/-- VP is made of the channels with the hold-off and of the pump. -/
theorem Keeps.vp (h : Keeps T s t) (hT : decide (Part.channels ∉ T ∧ Part.pump ∉ T) = true) : t.vp = s.vp := by
  obtain ⟨hchannels, hpump⟩ := of_decide_eq_true hT
  obtain ⟨h1, h2, h3⟩ := h.frame .channels hchannels
  obtain ⟨h4, h5, h6, h7, h8⟩ := h.frame .pump hpump
  calc t.vp = ⟨t.vp.channels, t.vp.holdOff, t.vp.holdOffTimer, t.vp.pump, t.vp.feedback, t.vp.stopTimer, t.vp.pumpRun,
        t.vp.rateLow⟩ := rfl
    _ = s.vp := by rw [h1, h2, h3, h4, h5, h6, h7, h8]

/-- From `s` by way of `u` to `t`: the parts of `T` change up to `u`; then the levels are watched and PC takes no
step. -/
structure Settled (T : List Part) (s u t : State) : Prop where
  vp : t.vp = u.vp
  inputs : t.inputs = u.inputs
  record : t.mr.record = u.mr.record
  phase : t.pc.phase = s.pc.phase
  frame : Frame (watchParts ++ .phase :: T) s t

theorem State.evaluate_settled {u : State} (hu : Frame T s u) (hphase : Part.phase ∉ T) (hn : NoStepDue u) :
    Settled T s u u.watch.puEval := by
  have hwatch := u.watch_keeps
  have hstill : NoStepDue u.watch := (u.watch_evaluatedLike.noStepDue (hwatch.runningPu (by decide))).1 hn
  obtain ⟨heval, hstays, -⟩ := State.puEval_noStep_keeps hstill
  have hall : Keeps (watchParts ++ [.phase]) u u.watch.puEval :=
    (hwatch.mono (by decide)).trans (heval.mono (by decide))
  refine ⟨hall.vp (by decide), hall.part .inputs (by decide), hall.part .record (by decide), ?_, ?_⟩
  · exact hstays.trans ((hwatch.part .phase (by decide)).1.trans (hu .phase hphase).1)
  · exact (hu.mono fun p hp => by simp [hp]).trans (hall.frame.mono fun p hp => by
      rcases List.mem_append.1 hp with hp | hp <;> simp_all)

/-! ## The pump record -/

theorem State.putPump_from (s : State) (v : ValvePump) : Keeps [.frames] { s with vp := v } (s.putPump v) :=
  State.askStatusIf_keeps _ _

@[simp] theorem State.putPump_vp (s : State) (v : ValvePump) : (s.putPump v).vp = v := by simp [State.putPump]

/-- R94: a STATUS asked for leads to no step. -/
theorem State.putPump_noStepDue {v : ValvePump} (h : NoStepDue { s with vp := v }) : NoStepDue (s.putPump v) := by
  have hfrom := s.putPump_from v
  have hrecord : (s.putPump v).mr.record = s.mr.record := hfrom.part .record (by decide)
  have hsame : SameForPc (s.putPump v) { s with vp := v } :=
    hfrom.evaluatedLike (by decide) (by rw [hrecord]) (by rw [hrecord]) (by rw [hrecord])
      (.inr (.inr (by rw [hrecord])))
  exact (hsame.noStepDue (hfrom.runningPu (by decide))).1 h

/-! ## A stop command (R96) -/

theorem ValvePump.stopPump_stopping {v : ValvePump} (h : v.pump = .stopping) :
    v.stopPump.pump = .stopping ∧ v.stopPump.stopTimer = v.stopTimer := by
  simp [ValvePump.stopPump, h]

/-- R96: what a stop command does to the pump is judged by the pump alone. -/
theorem State.stopPump_congr (h : Part.same s t .pump) :
    Part.same { s with vp := s.vp.stopPump } { t with vp := t.vp.stopPump } .pump := by
  obtain ⟨h1, h2, h3, h4, h5⟩ := h
  simp only [Part.same, ValvePump.stopPump, h1]
  split <;> simp [h3]

/-! ## PUMP latched -/

/-- R26, R65: at PU a latch that enters TRIPPED is, for the pump, a stop command. -/
theorem State.latch_pump (d : Option Nat) (hpu : s.hasRole .pu = true) (hl : s.hasLatched c = false)
    (hp : s.pc.phase ≠ .tripped) : Part.same { s with vp := s.vp.stopPump } (s.latch c d) .pump := by
  have hadd := s.addCause_keeps c d
  have hleft : Part.same s ((s.addCause c d).left .tripped) .pump :=
    Part.same_trans (hadd.part .pump (by decide)) (((s.addCause c d).left_from .tripped).part .pump (by decide))
  have hentry := ((s.addCause c d).left .tripped).entryActions_tripped_from (s.addCause c d).pc.phase 0 0
    ((s.addCause c d).left_phase _) (((s.addCause c d).left_hasRole _ _).trans ((hadd.hasRole (by decide) _).trans hpu))
  exact Part.same_trans (State.stopPump_congr hleft) (Part.same_trans (hentry.part .pump (by decide))
    (Part.same_trans (((s.addCause c d).changePhase_from .tripped 0 0).part .pump (by decide))
      ((State.latch_from d hl hp).1.part .pump (by decide))))

/-- R66: a latch in TRIPPED adds the cause and announces it. -/
theorem State.latch_tripped_keeps (c : Cause) (d : Option Nat) (hp : s.pc.phase = .tripped) :
    Keeps (watchParts ++ [.tripRecord]) s (s.latch c d) := by
  unfold State.latch
  split
  · exact .refl _ s
  · have hadd := s.addCause_keeps c d
    have hentered : (s.addCause c d).enterTripped = s.addCause c d :=
      if_pos ((hadd.part .phase (by decide)).1.trans hp)
    dsimp only
    rw [hentered]
    exact ((hadd.mono (by decide)).trans ((State.announce_keeps _ _ _ _ _).mono (by decide))).trans
      ((State.watch_keeps _).mono (by decide))

theorem State.handPump_unlisted (h : s.running = false ∨ r.latchesIn s.pc.phase = false) : s.handPump r = s := by
  rcases h with h | h <;> simp [State.handPump, State.hand, h]

/-- R61, R97: PUMP handed in a phase of its reason latches, and PC's evaluation finds TRIPPED. -/
theorem State.handPump_trips (hr : s.running = true) (hlist : r.latchesIn s.pc.phase = true)
    (hl : s.hasLatched .pump = false) :
    (s.handPump r).watch.puEval.pc.phase = .tripped ∧ ⟨.pump, none⟩ ∈ (s.handPump r).watch.puEval.tu.latched
      ∧ Frame cascadeParts s (s.handPump r).watch.puEval
      ∧ Part.same (s.latch .pump none) (s.handPump r).watch.puEval .pump := by
  have hlatch : s.handPump r = s.latch .pump none := by
    simp [State.handPump, State.hand, hr, hlist, ProfileMask.enables]
  obtain ⟨htripped, hprefix, -⟩ := State.latch_new (s := s) (c := .pump) none hl
  obtain ⟨heval, hstays⟩ := State.evaluate_tripped htripped
  rw [hlatch]
  refine ⟨hstays, ?_, (s.latch_keeps _ _).frame.trans (heval.frame.mono (by decide)), heval.part .pump (by decide)⟩
  rw [(heval.part .tripRecord (by decide)).2.1]
  exact hprefix.subset (by simp)

/-- R26, R97: where the latch enters TRIPPED at PU, the pump has had a stop command. -/
theorem State.handPump_stops (hr : s.running = true) (hpu : s.hasRole .pu = true)
    (hlist : r.latchesIn s.pc.phase = true) (hp : s.pc.phase ≠ .tripped) (hl : s.hasLatched .pump = false) :
    Part.same { s with vp := s.vp.stopPump } (s.handPump r).watch.puEval .pump :=
  Part.same_trans (State.latch_pump none hpu hl hp) (State.handPump_trips hr hlist hl).2.2.2

end Sys2Proof.Machine
end

section
/-! SUPPORT and the proof of O48: the pump feedback and the pump timers (R94 to R98, R149). -/

namespace Sys2Proof.Machine

variable {s : State}

theorem Phase.ne_tripped_of_active {p : Phase} (h : p.active = true) : p ≠ .tripped := by
  rintro rfl
  exact absurd h (by decide)

/-! ## PUMP_FB -/

/-- PUMP_FB at a level. -/
def State.feedbackAt (s : State) (on : Bool) : State := { s with inputs := { s.inputs with pumpFb := on } }

theorem State.feedbackAt_frame (s : State) (on : Bool) : Frame [.inputs] s (s.feedbackAt on) :=
  (s.putInputs_keeps _).frame

theorem execPumpFbChange_on (hpu : s.hasRole .pu = true) (hl : s.listening = true) (h : s.inputs.pumpFb = false) :
    exec (.pumpFbChange true) s = .next (s.feedbackAt true).feedbackOn.watch.puEval :=
  congrArg Host.Outcome.next ((if_neg (by simp [h])).trans (if_pos (by simp [hpu, hl])))

theorem execPumpFbChange_off (hpu : s.hasRole .pu = true) (hl : s.listening = true) (h : s.inputs.pumpFb = true) :
    exec (.pumpFbChange false) s = .next (s.feedbackAt false).feedbackOff.watch.puEval :=
  congrArg Host.Outcome.next ((if_neg (by simp [h])).trans (if_pos (by simp [hpu, hl])))

/-- R94, log 69: where PUMP_FB is not read, its level alone is kept. -/
theorem execPumpFbChange_kept (on : Bool) (h : s.hasRole .pu = false ∨ s.listening = false) :
    exec (.pumpFbChange on) s = .next (s.feedbackAt on) := by
  refine congrArg Host.Outcome.next ?_
  split
  · rename_i hsame
    rw [← hsame]
    rfl
  · exact if_neg (by rcases h with h | h <;> simp [h])

/-! ## PUMP_FB comes on (R95, R97) -/

theorem State.feedbackOn_starting (h : s.vp.pump = .starting) :
    s.feedbackOn = s.putPump { s.vp with pump := .running, feedback := .stopped } := by
  simp [State.feedbackOn, h]

/-- R97: a pump that turns uncommanded is to be proved stopped. -/
def State.runsDown (s : State) : State := s.putPump { s.vp with pump := .stopping, stopTimer := .fromZero }

theorem State.runsDown_vp (s : State) : s.runsDown.vp = { s.vp with pump := .stopping, stopTimer := ⟨true, 0⟩ } :=
  s.putPump_vp _

theorem State.runsDown_keeps (s : State) : Keeps [.pump, .frames] s s.runsDown := s.putPump_keeps _ ⟨rfl, rfl, rfl⟩

theorem State.feedbackOn_stopped (h : s.vp.pump = .stopped) : s.feedbackOn = s.runsDown.handPump .uncommanded := by
  simp [State.feedbackOn, h, State.runsDown]

section
variable (hpu : s.hasRole .pu = true) (hl : s.listening = true) (hfb : s.inputs.pumpFb = false)
include hpu hl hfb

/-- R95: the start proved. -/
theorem feedback_provesStart (hp : s.vp.pump = .starting)
    (hn : NoStepDue { s with vp := { s.vp with pump := .running } }) :
    ∃ t, exec (.pumpFbChange true) s = .next t ∧ t.inputs = { s.inputs with pumpFb := true }
      ∧ t.vp = { s.vp with pump := .running, feedback := ⟨false, 0⟩ } ∧ t.pc.phase = s.pc.phase
      ∧ Frame (watchParts ++ [.inputs, .pump, .phase]) s t := by
  have hfrom := (s.feedbackAt true).putPump_keeps { s.vp with pump := .running, feedback := .stopped } ⟨rfl, rfl, rfl⟩
  have hframe : Frame [.inputs, .pump, .frames] s _ :=
    ((s.feedbackAt_frame true).mono (by decide)).trans (hfrom.frame.mono (by decide))
  have hsettled := State.evaluate_settled hframe (by decide) (State.putPump_noStepDue hn)
  refine ⟨_, execPumpFbChange_on hpu hl hfb, ?_⟩
  rw [State.feedbackOn_starting (s := s.feedbackAt true) hp]
  exact ⟨hsettled.inputs.trans (hfrom.part .inputs (by decide)), hsettled.vp.trans (State.putPump_vp _ _),
    hsettled.phase, hsettled.frame.mono (by decide)⟩

/-- R97: the feedback comes uncommanded in an active phase. -/
theorem feedback_uncommanded (hp : s.vp.pump = .stopped) (hr : s.running = true) (ha : s.pc.phase.active = true)
    (hlatched : s.hasLatched .pump = false) :
    ∃ t, exec (.pumpFbChange true) s = .next t ∧ t.pc.phase = .tripped ∧ ⟨.pump, none⟩ ∈ t.tu.latched
      ∧ t.vp.pump = .stopping ∧ t.vp.stopTimer = ⟨true, 0⟩ ∧ Frame (cascadeParts ++ [.inputs]) s t := by
  have hkeeps := (s.feedbackAt true).runsDown_keeps
  have hvp := (s.feedbackAt true).runsDown_vp
  refine ⟨_, execPumpFbChange_on hpu hl hfb, ?_⟩
  rw [State.feedbackOn_stopped (s := s.feedbackAt true) hp]
  generalize (s.feedbackAt true).runsDown = u at *
  have hrunning : u.running = true := (hkeeps.running (by decide)).trans hr
  have hrole : u.hasRole .pu = true := (hkeeps.hasRole (by decide) _).trans hpu
  have hphase : u.pc.phase = s.pc.phase := (hkeeps.part .phase (by decide)).1
  have hactive : PumpReason.uncommanded.latchesIn u.pc.phase = true := by rw [hphase]; exact ha
  have hnot : u.hasLatched .pump = false := by
    have hsame : u.tu.latched = s.tu.latched := (hkeeps.part .tripRecord (by decide)).2.1
    simpa only [State.hasLatched, hsame] using hlatched
  obtain ⟨htripped, hmem, hframe, -⟩ := State.handPump_trips hrunning hactive hnot
  obtain ⟨hpump, -, htimer, -, -⟩ :=
    State.handPump_stops hrunning hrole hactive (Phase.ne_tripped_of_active hactive) hnot
  obtain ⟨hstopping, hkept⟩ := ValvePump.stopPump_stopping (v := u.vp) (by rw [hvp])
  refine ⟨htripped, hmem, hpump.trans hstopping, htimer.trans (hkept.trans (by rw [hvp])), ?_⟩
  exact ((s.feedbackAt_frame true).mono (by decide)).trans
    ((hkeeps.frame.mono (by decide)).trans (hframe.mono (by decide)))

/-- R97: outside the active phases an uncommanded feedback makes the pump STOPPING. -/
theorem feedback_uncommanded_resting (hp : s.vp.pump = .stopped) (hq : s.running = false ∨ s.pc.phase.active = false) :
    ∃ t, exec (.pumpFbChange true) s = .next t ∧ t.vp = { s.vp with pump := .stopping, stopTimer := ⟨true, 0⟩ }
      ∧ t.pc.phase = s.pc.phase ∧ Frame (watchParts ++ [.inputs, .pump, .phase]) s t := by
  have hkeeps := (s.feedbackAt true).runsDown_keeps
  have hvp := (s.feedbackAt true).runsDown_vp
  refine ⟨_, execPumpFbChange_on hpu hl hfb, ?_⟩
  rw [State.feedbackOn_stopped (s := s.feedbackAt true) hp]
  generalize (s.feedbackAt true).runsDown = u at *
  have hresting : u.running = false ∨ u.pc.phase.active = false := by
    rw [hkeeps.running (by decide), (hkeeps.part .phase (by decide)).1]
    exact hq
  have hframe : Frame [.inputs, .pump, .frames] s u :=
    ((s.feedbackAt_frame true).mono (by decide)).trans (hkeeps.frame.mono (by decide))
  have hsettled := State.evaluate_settled hframe (by decide) (noStepDue_of_resting hresting)
  rw [State.handPump_unlisted (r := .uncommanded) hresting]
  exact ⟨hsettled.vp.trans hvp, hsettled.phase, hsettled.frame.mono (by decide)⟩

end

/-! ## PUMP_FB goes off (R96, R97, R149) -/

theorem State.feedbackOff_running (h : s.vp.pump = .running) (hrun : s.vp.pumpRun = true) :
    s.feedbackOff = s.handPump .lost := by
  simp [State.feedbackOff, h, hrun]

theorem State.feedbackOff_stopping (h : s.vp.pump = .stopping) : s.feedbackOff = s.proveStop := by
  simp [State.feedbackOff, h]

theorem State.proveStop_unproved (h : s.pumpProved = false) : s.proveStop = s := by simp [State.proveStop, h]

/-- R96: the pump record after the stop proof. -/
theorem State.proveStop_vp (h : s.pumpProved = true) :
    s.proveStop.vp = { s.vp with pump := .stopped, stopTimer := ⟨false, 0⟩ } := by
  unfold State.proveStop
  rw [if_pos h]
  split
  · rw [(State.setExternalEnd_keeps _).vp (by decide), State.putPump_vp]
    rfl
  · exact State.putPump_vp _ _

/-- R149: the stop proof in STOPPING and TRIPPED sets the external end of an OPEN record. -/
theorem State.proveStop_externalEnd (h : s.pumpProved = true) (hr : s.running = true)
    (hp : s.pc.phase = .stopping ∨ s.pc.phase = .tripped) (ho : s.mr.record.state = .opened) :
    s.proveStop.mr.record.externalEnd = true := by
  have hends : (s.running && (s.pc.phase == .stopping || s.pc.phase == .tripped)) = true := by
    rcases hp with hp | hp <;> simp [hr, hp]
  have hrecord : (s.putPump s.vp.proved).mr.record = s.mr.record := (s.putPump_from _).part .record (by decide)
  unfold State.proveStop
  rw [if_pos h, if_pos hends]
  exact (State.setExternalEnd_ends _).2 (by rw [hrecord]; exact ho)

/-- R96: without the settle fact the stop is not proved. -/
theorem State.pumpProved_unsettled (h : s.pressure = none ∨ ∃ p, s.pressure = some p ∧ s.hw.settleLevel ≤ p) :
    s.pumpProved = false := by
  rcases h with h | ⟨p, h, hle⟩
  · simp [State.pumpProved, State.settleFact, h]
  · have hnot : ¬ p < s.hw.settleLevel := by omega
    simp [State.pumpProved, State.settleFact, h, hnot]

/-- R7, R96: the stop proof makes no step due that the stopped pump does not. -/
theorem State.proveStop_noStepDue (h : s.pumpProved = true)
    (hn : NoStepDue { s with vp := { s.vp with pump := .stopped } }) :
    NoStepDue s.proveStop := by
  cases hr : s.running with
  | true =>
    obtain ⟨hsame, hpu⟩ := State.proveStop_like hr h
    exact (hsame.noStepDue hpu).1 hn
  | false => exact noStepDue_of_resting (.inl ((s.proveStop_keeps.running (by decide)).trans hr))

section
variable (hpu : s.hasRole .pu = true) (hl : s.listening = true) (hfb : s.inputs.pumpFb = true)
include hpu hl hfb

/-- R97: the feedback lost in an active phase. -/
theorem feedback_lost (hp : s.vp.pump = .running) (hrun : s.vp.pumpRun = true) (hr : s.running = true)
    (ha : s.pc.phase.active = true) (hlatched : s.hasLatched .pump = false) :
    ∃ t, exec (.pumpFbChange false) s = .next t ∧ t.pc.phase = .tripped ∧ ⟨.pump, none⟩ ∈ t.tu.latched
      ∧ t.vp.pumpRun = false ∧ t.vp.pump = .stopping ∧ Frame (cascadeParts ++ [.inputs]) s t := by
  obtain ⟨htripped, hmem, hframe, -⟩ := State.handPump_trips (s := s.feedbackAt false) (r := .lost) hr ha hlatched
  obtain ⟨hpump, -, -, hoff, -⟩ := State.handPump_stops (s := s.feedbackAt false) (r := .lost) hr hpu ha
    (Phase.ne_tripped_of_active ha) hlatched
  obtain ⟨hstopping, -⟩ := ValvePump.stopPump_turning (v := s.vp) (.inr hp)
  refine ⟨_, execPumpFbChange_off hpu hl hfb, ?_⟩
  rw [State.feedbackOff_running (s := s.feedbackAt false) hp hrun]
  exact ⟨htripped, hmem, hoff.trans s.vp.stopPump_off.1, hpump.trans hstopping,
    ((s.feedbackAt_frame false).mono (by decide)).trans (hframe.mono (by decide))⟩

/-- R96, R149: the stop proved. -/
theorem feedback_provesStop {p : Nat} (hp : s.vp.pump = .stopping) (hpressure : s.pressure = some p)
    (hsettle : p < s.hw.settleLevel) (hn : NoStepDue { s with vp := { s.vp with pump := .stopped } }) :
    ∃ t, exec (.pumpFbChange false) s = .next t ∧ t.inputs = { s.inputs with pumpFb := false }
      ∧ t.vp = { s.vp with pump := .stopped, stopTimer := ⟨false, 0⟩ } ∧ t.pc.phase = s.pc.phase
      ∧ (s.running = true → (s.pc.phase = .stopping ∨ s.pc.phase = .tripped) → s.mr.record.state = .opened →
          t.mr.record.externalEnd = true)
      ∧ Frame (watchParts ++ [.inputs, .pump, .phase, .record, .tanks]) s t := by
  have hproved : (s.feedbackAt false).pumpProved = true := State.pumpProved_of hpu hp rfl hpressure hsettle
  have hkeeps := (s.feedbackAt false).proveStop_keeps
  have hframe : Frame (.inputs :: proofParts) s (s.feedbackAt false).proveStop :=
    ((s.feedbackAt_frame false).mono (by decide)).trans (hkeeps.frame.mono (by decide))
  have hsettled := State.evaluate_settled hframe (by decide) (State.proveStop_noStepDue hproved hn)
  refine ⟨_, execPumpFbChange_off hpu hl hfb, ?_⟩
  rw [State.feedbackOff_stopping (s := s.feedbackAt false) hp]
  exact ⟨hsettled.inputs.trans (hkeeps.part .inputs (by decide)), hsettled.vp.trans (State.proveStop_vp hproved),
    hsettled.phase, fun hr hphase ho => (congrArg Record.externalEnd hsettled.record).trans
      (State.proveStop_externalEnd hproved hr hphase ho), hsettled.frame.mono (by decide)⟩

/-- R96: the stop not proved yet. -/
theorem feedback_unsettled (hp : s.vp.pump = .stopping)
    (hpressure : s.pressure = none ∨ ∃ p, s.pressure = some p ∧ s.hw.settleLevel ≤ p) (hn : NoStepDue s) :
    ∃ t, exec (.pumpFbChange false) s = .next t ∧ t.vp = s.vp ∧ t.pc.phase = s.pc.phase
      ∧ Frame (watchParts ++ [.inputs, .phase]) s t := by
  have hsettled := State.evaluate_settled (s.feedbackAt_frame false) (by decide) hn
  refine ⟨_, execPumpFbChange_off hpu hl hfb, ?_⟩
  rw [State.feedbackOff_stopping (s := s.feedbackAt false) hp,
    State.proveStop_unproved (s := s.feedbackAt false) (State.pumpProved_unsettled hpressure)]
  exact ⟨hsettled.vp, hsettled.phase, hsettled.frame.mono (by decide)⟩

end

/-! ## The pump timers (R95 to R97) -/

/-- The feedback timer at its end. -/
def State.feedbackEnded (s : State) : State := { s with vp := { s.vp with feedback := .stopped } }

/-- The stop timer at its end. -/
def State.stopEnded (s : State) : State := { s with vp := { s.vp with stopTimer := .stopped } }

theorem State.putPumpTimers_frame (s : State) (a b : Timer) :
    Frame [.pump] s { s with vp := { s.vp with feedback := a, stopTimer := b } } := by
  intro p hp
  cases p <;> first | exact absurd (by decide) hp | simp [Part.same]

theorem State.feedbackEnded_frame (s : State) : Frame [.pump] s s.feedbackEnded :=
  s.putPumpTimers_frame _ s.vp.stopTimer

theorem State.stopEnded_frame (s : State) : Frame [.pump] s s.stopEnded := s.putPumpTimers_frame s.vp.feedback _

theorem execFeedbackTimerExpiry_running (h : s.vp.feedback.running = true) :
    exec .feedbackTimerExpiry s = .next (s.feedbackEnded.handPump .noFeedback).watch.puEval :=
  congrArg Host.Outcome.next (if_pos h)

theorem execStopTimerExpiry_running (h : s.vp.stopTimer.running = true) :
    exec .stopTimerExpiry s = .next (s.stopEnded.handPump .noStop).watch.puEval :=
  congrArg Host.Outcome.next (if_pos h)

/-- R97: no feedback in STARTING, PUMPING and TOPPING. -/
theorem feedbackTimer_trips (h : s.vp.feedback.running = true) (hr : s.running = true) (hpu : s.hasRole .pu = true)
    (hp : s.pc.phase = .starting ∨ s.pc.phase = .pumping ∨ s.pc.phase = .topping) (hl : s.hasLatched .pump = false) :
    ∃ t, exec .feedbackTimerExpiry s = .next t ∧ t.pc.phase = .tripped ∧ ⟨.pump, none⟩ ∈ t.tu.latched
      ∧ t.vp.feedback = ⟨false, 0⟩ ∧ t.vp.pumpRun = false ∧ Frame cascadeParts s t := by
  have hlist : PumpReason.noFeedback.latchesIn s.pc.phase = true := by
    rcases hp with hp | hp | hp <;> rw [hp] <;> rfl
  have hnot : s.pc.phase ≠ .tripped := by
    rcases hp with hp | hp | hp <;> rw [hp] <;> decide
  obtain ⟨htripped, hmem, hframe, -⟩ := State.handPump_trips (s := s.feedbackEnded) hr hlist hl
  obtain ⟨-, hfeedback, -, hrun, -⟩ := State.handPump_stops (s := s.feedbackEnded) hr hpu hlist hnot hl
  obtain ⟨hoff, -, hstopped⟩ := s.feedbackEnded.vp.stopPump_off
  exact ⟨_, execFeedbackTimerExpiry_running h, htripped, hmem, hfeedback.trans hstopped, hrun.trans hoff,
    (s.feedbackEnded_frame.mono (by decide)).trans hframe⟩

/-- R97: the feedback timer runs out in any other phase. -/
theorem feedbackTimer_stops (h : s.vp.feedback.running = true) (hq : s.running = false ∨ s.pc.phase.pumpOn = false)
    (hn : NoStepDue s) :
    ∃ t, exec .feedbackTimerExpiry s = .next t ∧ t.vp = { s.vp with feedback := ⟨false, 0⟩ }
      ∧ t.pc.phase = s.pc.phase ∧ Frame (watchParts ++ [.pump, .phase]) s t := by
  have hsettled := State.evaluate_settled s.feedbackEnded_frame (by decide) hn
  refine ⟨_, execFeedbackTimerExpiry_running h, ?_⟩
  rw [State.handPump_unlisted (s := s.feedbackEnded) (r := .noFeedback) hq]
  exact ⟨hsettled.vp, hsettled.phase, hsettled.frame.mono (by decide)⟩

/-- R96, R97: no stop in the active phases and TRIPPED. -/
theorem stopTimer_trips (h : s.vp.stopTimer.running = true) (hr : s.running = true) (hpu : s.hasRole .pu = true)
    (hstop : s.vp.pump = .stopping) (hp : s.pc.phase.active = true ∨ s.pc.phase = .tripped)
    (hl : s.hasLatched .pump = false) :
    ∃ t, exec .stopTimerExpiry s = .next t ∧ t.pc.phase = .tripped ∧ ⟨.pump, none⟩ ∈ t.tu.latched
      ∧ t.vp.pump = .stopping ∧ t.vp.stopTimer = ⟨false, 0⟩ ∧ Frame cascadeParts s t := by
  have hlist : PumpReason.noStop.latchesIn s.pc.phase = true := by
    rcases hp with hp | hp <;> simp [PumpReason.latchesIn, hp]
  obtain ⟨htripped, hmem, hframe, hlatch⟩ := State.handPump_trips (s := s.stopEnded) (r := .noStop) hr hlist hl
  have hpump : (s.stopEnded.handPump .noStop).watch.puEval.vp.pump = .stopping
      ∧ (s.stopEnded.handPump .noStop).watch.puEval.vp.stopTimer = ⟨false, 0⟩ := by
    rcases hp with ha | ht
    · obtain ⟨hpump, -, htimer, -, -⟩ :=
        State.handPump_stops (s := s.stopEnded) hr hpu hlist (Phase.ne_tripped_of_active ha) hl
      obtain ⟨hstopping, hkept⟩ := ValvePump.stopPump_stopping (v := s.stopEnded.vp) hstop
      exact ⟨hpump.trans hstopping, htimer.trans hkept⟩
    · obtain ⟨hpump, -, htimer, -, -⟩ :=
        Part.same_trans ((State.latch_tripped_keeps .pump none (s := s.stopEnded) ht).part .pump (by decide)) hlatch
      exact ⟨hpump.trans hstop, htimer⟩
  exact ⟨_, execStopTimerExpiry_running h, htripped, hmem, hpump.1, hpump.2,
    (s.stopEnded_frame.mono (by decide)).trans hframe⟩

/-- R97: the stop timer runs out in any other phase. -/
theorem stopTimer_stops (h : s.vp.stopTimer.running = true)
    (hq : s.running = false ∨ s.pc.phase = .idle ∨ s.pc.phase = .lineup ∨ s.pc.phase = .ended) :
    ∃ t, exec .stopTimerExpiry s = .next t ∧ t.vp = { s.vp with stopTimer := ⟨false, 0⟩ }
      ∧ t.pc.phase = s.pc.phase ∧ Frame (watchParts ++ [.pump, .phase]) s t := by
  have hunlisted : s.running = false ∨ PumpReason.noStop.latchesIn s.pc.phase = false := by
    rcases hq with hq | hq | hq | hq <;> simp [hq, PumpReason.latchesIn, Phase.active]
  have hresting : s.running = false ∨ s.pc.phase.active = false := by
    rcases hq with hq | hq | hq | hq <;> simp [hq, Phase.active]
  have hsettled := State.evaluate_settled s.stopEnded_frame (by decide)
    (noStepDue_of_resting (s := s.stopEnded) hresting)
  refine ⟨_, execStopTimerExpiry_running h, ?_⟩
  rw [State.handPump_unlisted (s := s.stopEnded) hunlisted]
  exact ⟨hsettled.vp, hsettled.phase, hsettled.frame.mono (by decide)⟩

/-! ## READY and CLOSED -/

/-- R17: the levels watched and PC's evaluation end each of the three commands. -/
theorem pump_flagsRight {c : Instr}
    (hc : c = .pumpFbChange (!s.inputs.pumpFb) ∧ s.hasRole .pu = true ∧ s.listening = true
      ∨ c = .feedbackTimerExpiry ∧ s.vp.feedback.running = true
      ∨ c = .stopTimerExpiry ∧ s.vp.stopTimer.running = true) :
    ∃ t, exec c s = .next t ∧ FlagsRight t := by
  rcases hc with ⟨rfl, hpu, hl⟩ | ⟨rfl, h⟩ | ⟨rfl, h⟩
  · cases hfb : s.inputs.pumpFb with
    | false => exact ⟨_, execPumpFbChange_on hpu hl hfb, State.evaluate_flagsRight _⟩
    | true => exact ⟨_, execPumpFbChange_off hpu hl hfb, State.evaluate_flagsRight _⟩
  · exact ⟨_, execFeedbackTimerExpiry_running h, State.evaluate_flagsRight _⟩
  · exact ⟨_, execStopTimerExpiry_running h, State.evaluate_flagsRight _⟩

end Sys2Proof.Machine

open Sys2Proof Sys2Proof.Machine

/-- Settles O48: each case changes the pump's record, may hand PUMP, and then has the levels watched and PC evaluate. -/
theorem pumpWatched : Obligations.PumpWatched := by
  refine ⟨⟨fun s hpu hl hfb => ⟨?startProved, ?uncommanded, ?uncommandedAtRest⟩,
      fun s hpu hl hfb => ⟨?lost, ?stopProved, ?unsettled⟩, fun s on h => execPumpFbChange_kept on h⟩,
    fun s => ⟨fun h => ⟨?noFeedback, ?feedbackEnds⟩, fun h => ⟨?noStop, ?stopEnds⟩⟩, fun s c hc => pump_flagsRight hc⟩
  case startProved => exact fun hp hn => feedback_provesStart hpu hl hfb hp hn
  case uncommanded => exact fun hp hr ha hlatched => feedback_uncommanded hpu hl hfb hp hr ha hlatched
  case uncommandedAtRest => exact fun hp hq => feedback_uncommanded_resting hpu hl hfb hp hq
  case lost => exact fun hp hrun hr ha hlatched => feedback_lost hpu hl hfb hp hrun hr ha hlatched
  case stopProved => exact fun p hp hpressure hsettle hn => feedback_provesStop hpu hl hfb hp hpressure hsettle hn
  case unsettled => exact fun hp hpressure hn => feedback_unsettled hpu hl hfb hp hpressure hn
  case noFeedback => exact fun hr hpu hp hl => feedbackTimer_trips h hr hpu hp hl
  case feedbackEnds => exact fun hq hn => feedbackTimer_stops h hq hn
  case noStop => exact fun hr hpu hstop hp hl => stopTimer_trips h hr hpu hstop hp hl
  case stopEnds => exact fun hq => stopTimer_stops h hq
end

section
/-! SUPPORT and the proof of O45: SEP_IN and the high-high switches (R91, R115, R127). -/

namespace Sys2Proof.Machine

variable {s : State} {n : Ch}

/-! ## VC1 closed at once (R85, R91) -/

theorem State.closeChannel_closes (s : State) (n : Ch) : ((s.closeChannel n).vp.channels.get n).Closes := by
  rw [State.closeChannel, State.putChannel_get, if_pos rfl]
  exact Channel.close_closes _ _ _

/-- Where the channels stay, VC1 stays closing or shut. -/
theorem Keeps.closes {T : List Part} {t : State} (h : Keeps T s t) (hT : decide (Part.channels ∉ T) = true)
    (hc : s.vp.channels.n1.Closes) : t.vp.channels.n1.Closes := by
  rw [(h.part .channels hT).1]
  exact hc

/-- R115: with SEP_IN on, what follows TRIPPED entry closes VC1 last of all. -/
theorem State.afterTrip_closes (h : (s.valveRole && s.inputs.sep) = true) : s.afterTrip.vp.channels.n1.Closes := by
  have hseparated : (s.followAll.valveRole && s.followAll.inputs.sep) = true :=
    (s.followAll_keeps.separated (by decide)).trans h
  unfold State.afterTrip
  dsimp only
  rw [if_pos hseparated]
  exact (State.confirm_keeps _).closes (by decide)
    ((State.joinSeparation_keeps _).closes (by decide) (s.followAll.closeChannel_closes .n1))

/-- R66, R115: with SEP_IN on, a latch leaves VC1 closing or shut. -/
theorem State.latch_closes (c : Cause) (d : Option Nat) (h : (s.valveRole && s.inputs.sep) = true)
    (hc : s.vp.channels.n1.Closes) : (s.latch c d).vp.channels.n1.Closes := by
  by_cases hp : s.pc.phase = .tripped
  · exact (State.latch_tripped_keeps c d hp).closes (by decide) hc
  cases hl : s.hasLatched c with
  | true =>
    rw [State.latch_again hl]
    exact hc
  | false =>
    rw [State.latch_eq d hl hp]
    refine (State.watch_keeps _).closes (by decide) (State.afterTrip_closes ?_)
    have hentry := (((s.addCause_keeps c d).mono (U := cascadeParts) (by decide)).trans
      ((State.changePhase_keeps _ .tripped 0 0).mono (by decide))).trans
      ((State.announce_keeps _ c d s.tu.latched.isEmpty s.tu.firstOut.isNone).mono (by decide))
    exact (hentry.separated (by decide)).trans h

/-- R91, R115: SEPARATION handed closes VC1, whether it latches or not. -/
theorem State.handSeparation_closes (h : (s.valveRole && s.inputs.sep) = true) :
    s.handSeparation.vp.channels.n1.Closes := by
  have hclosed := s.closeChannel_closes .n1
  have hsame := ((s.closeChannel_keeps .n1).separated (by decide)).trans h
  unfold State.handSeparation State.handCause State.hand
  split
  · exact State.latch_closes _ _ hsame hclosed
  · exact hclosed

/-! ## SEP_IN (R115) -/

/-- SEP_IN at a level. -/
def State.separatedAt (s : State) (on : Bool) : State := { s with inputs := { s.inputs with sep := on } }

theorem State.separatedAt_keeps (s : State) (on : Bool) : Keeps [.inputs] s (s.separatedAt on) := s.putInputs_keeps _

theorem execSepInChange_on (hr : s.running = true) (hv : s.valveRole = true) (h : s.inputs.sep = false) :
    exec (.sepInChange true) s = .next (s.separatedAt true).handSeparation.watch :=
  congrArg Host.Outcome.next ((if_neg (by simp [h])).trans (if_pos (by simp [hr, hv])))

theorem execSepInChange_off (hr : s.running = true) (hv : s.valveRole = true) (h : s.inputs.sep = true) :
    exec (.sepInChange false) s = .next (s.separatedAt false).watch :=
  congrArg Host.Outcome.next ((if_neg (by simp [h])).trans (if_pos (by simp [hr, hv])))

/-- R115: where SEP_IN is not read, its level alone is kept. -/
theorem execSepInChange_kept (on : Bool) (h : s.running = false ∨ s.valveRole = false) :
    exec (.sepInChange on) s = .next (s.separatedAt on) := by
  refine congrArg Host.Outcome.next ?_
  split
  · rename_i hsame
    rw [← hsame]
    rfl
  · exact if_neg (by rcases h with h | h <;> simp [h])

/-- R61, R65: SEPARATION handed in a phase in which it latches. -/
theorem State.handSeparation_latches (hr : s.running = true) (hidle : s.pc.phase ≠ .idle) (hended : s.pc.phase ≠ .ended)
    (hl : s.hasLatched .separation = false) :
    s.handSeparation.pc.phase = .tripped ∧ ⟨.separation, none⟩ ∈ s.handSeparation.tu.latched := by
  have hclose := s.closeChannel_keeps .n1
  have hphase : (s.closeChannel .n1).pc.phase = s.pc.phase := (hclose.part .phase (by decide)).1
  have hlatched : (s.closeChannel .n1).tu.latched = s.tu.latched := (hclose.part .tripRecord (by decide)).2.1
  have hlatch : s.handSeparation = (s.closeChannel .n1).latch .separation none :=
    State.handCause_latches none ((hclose.running (by decide)).trans hr) (by simp [Cause.latchesIn, hphase, hidle, hended])
      rfl
  obtain ⟨htripped, hprefix, -⟩ := State.latch_new (s := s.closeChannel .n1) (c := .separation) none
    (by simpa only [State.hasLatched, hlatched] using hl)
  rw [hlatch]
  exact ⟨htripped, hprefix.subset (by simp)⟩

/-- R91, R115: SEP_IN on. -/
theorem separation_on (hr : s.running = true) (hv : s.valveRole = true) (h : s.inputs.sep = false) :
    ∃ t, exec (.sepInChange true) s = .next t ∧ t.inputs = { s.inputs with sep := true } ∧ t.vp.channels.n1.Closes
      ∧ FlagsRight t
      ∧ (s.pc.phase ≠ .idle → s.pc.phase ≠ .ended → s.hasLatched .separation = false →
          t.pc.phase = .tripped ∧ ⟨.separation, none⟩ ∈ t.tu.latched ∧ Frame (cascadeParts ++ [.inputs]) s t)
      ∧ (s.pc.phase = .idle ∨ s.pc.phase = .ended → Frame (watchParts ++ [.inputs, .channels, .pressure]) s t) := by
  have hinputs := s.separatedAt_keeps true
  have hhand := (s.separatedAt true).handSeparation_keeps
  have hwatch := (s.separatedAt true).handSeparation.watch_keeps
  have hcloses : (s.separatedAt true).handSeparation.vp.channels.n1.Closes :=
    State.handSeparation_closes (by rw [hinputs.valveRole (by decide), hv]; rfl)
  refine ⟨_, execSepInChange_on hr hv h, (hwatch.part .inputs (by decide) : _ = _).trans (hhand.part .inputs (by decide)),
    hwatch.closes (by decide) hcloses, State.watch_flagsRight _, fun hidle hended hl => ?latches, fun hq => ?rests⟩
  case latches =>
    obtain ⟨htripped, hmem⟩ := State.handSeparation_latches (s := s.separatedAt true) hr hidle hended hl
    refine ⟨(hwatch.part .phase (by decide)).1.trans htripped, ?_, ?_⟩
    · rw [(hwatch.part .tripRecord (by decide)).2.1]
      exact hmem
    · exact (hinputs.frame.mono (by decide)).trans
        ((hhand.frame.mono (by decide)).trans (hwatch.frame.mono (by decide)))
  case rests =>
    have hclose := (s.separatedAt true).closeChannel_keeps .n1
    rw [State.handSeparation_unlisted (s := s.separatedAt true) hq] at hwatch ⊢
    exact (hinputs.frame.mono (by decide)).trans
      ((hclose.frame.mono (by decide)).trans (hwatch.frame.mono (by decide)))

/-- R64, R115: SEP_IN off ends the active condition of SEPARATION. -/
theorem separation_off (hr : s.running = true) (hv : s.valveRole = true) (h : s.inputs.sep = true) :
    ∃ t, exec (.sepInChange false) s = .next t ∧ t.inputs = { s.inputs with sep := false }
      ∧ (s.tu.latched = [⟨.separation, none⟩] → t.tu.cause = false) ∧ FlagsRight t ∧ Frame (watchParts ++ [.inputs]) s t := by
  have hwatch := (s.separatedAt false).watch_keeps
  refine ⟨_, execSepInChange_off hr hv h, hwatch.part .inputs (by decide), fun hl => ?_, State.watch_flagsRight _,
    ((s.separatedAt_keeps false).frame.mono (by decide)).trans (hwatch.frame.mono (by decide))⟩
  have honly : (s.separatedAt false).tu.latched = [⟨.separation, none⟩] := hl
  have hgone : (s.separatedAt false).causeActive .separation = false := Bool.and_false _
  rw [State.watch_cause, State.causeFlag, honly]
  simp [hgone]

/-! ## The high-high switches (R127) -/

/-- The high-high switch of a tank at a level. -/
def State.highHighAt (s : State) (n : Ch) (on : Bool) : State :=
  { s with inputs := { s.inputs with hh := s.inputs.hh.set n on } }

theorem State.highHighAt_keeps (s : State) (n : Ch) (on : Bool) : Keeps [.inputs] s (s.highHighAt n on) :=
  s.putInputs_keeps _

theorem execHhChange_used {on : Bool} (hl : s.listening = true) (hu : s.tankUsed n = true) (h : s.inputs.hh.get n ≠ on) :
    exec (.hhChange n on) s = .next ((s.highHighAt n on).takeOverfill n).watch :=
  congrArg Host.Outcome.next ((if_neg h).trans (if_pos (by simp [hl, hu])))

/-- R127: where a high-high switch is not read, its level alone is kept. -/
theorem execHhChange_kept (on : Bool) (h : s.listening = false ∨ s.tankUsed n = false) :
    exec (.hhChange n on) s = .next (s.highHighAt n on) := by
  refine congrArg Host.Outcome.next ?_
  split
  · rename_i hsame
    rw [← hsame, State.highHighAt, Quad.set_get_self]
  · exact if_neg (by rcases h with h | h <;> simp [h])

/-- R127: the overfill condition of a tank in use. -/
theorem Tank.overfillNow_iff (t : Tank) (hh : Bool) (highHigh : Nat) :
    t.overfillNow hh highHigh = true
      ↔ hh = true ∨ ∃ v, t.levelValid = true ∧ t.level = some v ∧ highHigh ≤ v := by
  simp only [Tank.overfillNow, Bool.or_eq_true, Bool.and_eq_true, Option.any_eq_true, decide_eq_true_eq]
  refine or_congr_right ⟨?_, ?_⟩
  · rintro ⟨hv, v, hl, hle⟩
    exact ⟨v, hv, hl, hle⟩
  · rintro ⟨v, hv, hl, hle⟩
    exact ⟨hv, v, hl, hle⟩

/-- R62: the OVERFILL timer of each tank as the levels are watched. -/
theorem State.watch_overfill (s : State) (n : Ch) :
    s.watch.tu.overfill.get n = (s.tu.overfill.get n).take (s.overfillPresent n) := by
  have htimers : s.watch.tu.overfill = s.watchTimers.tu.overfill :=
    (((State.watchFlags_keeps _).mono (U := [.flags, .frames, .alarms, .reports]) (by decide)).trans
      (((State.watchCause_keeps _).mono (by decide)).trans ((State.watchAlarms_keeps _).mono (by decide)))).part
        .timers (by decide) |>.1
  rw [htimers]
  cases n <;> rfl

/-- R127: a high-high switch of a tank in use. -/
theorem highHigh_changes {on : Bool} (hl : s.listening = true) (hu : s.tankUsed n = true) (h : s.inputs.hh.get n ≠ on) :
    ∃ t, exec (.hhChange n on) s = .next t ∧ t.inputs = { s.inputs with hh := s.inputs.hh.set n on }
      ∧ (∃ b, t.ow.tanks.get n = { s.ow.tanks.get n with overfill := b }
          ∧ (b = true ↔ on = true ∨ ∃ v, (s.ow.tanks.get n).levelValid = true ∧ (s.ow.tanks.get n).level = some v
              ∧ (s.sl.setup.tanks.get n).highHigh ≤ v)
          ∧ (b = false → t.tu.overfill.get n = ⟨false, ⟨false, 0⟩⟩)
          ∧ (b = true → s.running = true → (s.tu.overfill.get n).armed = false →
              t.tu.overfill.get n = ⟨true, ⟨true, 0⟩⟩))
      ∧ (∀ m, m ≠ n → t.ow.tanks.get m = s.ow.tanks.get m)
      ∧ FlagsRight t ∧ Frame (watchParts ++ [.inputs, .tanks]) s t := by
  have hwatch := ((s.highHighAt n on).takeOverfill n).watch_keeps
  have htanks : ((s.highHighAt n on).takeOverfill n).watch.ow = _ := hwatch.part .tanks (by decide)
  have hused : (s.highHighAt n on).tankUsed n = true := hu
  have hhigh : (s.highHighAt n on).inputs.hh.get n = on := Quad.get_set_self _ _ _
  have htank : ((s.highHighAt n on).takeOverfill n).ow.tanks.get n = { s.ow.tanks.get n with
      overfill := (s.ow.tanks.get n).overfillNow on (s.sl.setup.tanks.get n).highHigh } := by
    rw [State.takeOverfill, hused, hhigh]
    exact Quad.get_set_self _ _ _
  have hpresent : ((s.highHighAt n on).takeOverfill n).overfillPresent n
      = (s.running && (s.ow.tanks.get n).overfillNow on (s.sl.setup.tanks.get n).highHigh) := by
    have hrunning : ((s.highHighAt n on).takeOverfill n).running = s.running := rfl
    have hstill : ((s.highHighAt n on).takeOverfill n).tankUsed n = true := hu
    rw [State.overfillPresent, htank, hrunning, hstill, Bool.and_true]
  have htimer := ((s.highHighAt n on).takeOverfill n).watch_overfill n
  rw [hpresent] at htimer
  refine ⟨_, execHhChange_used hl hu h, hwatch.part .inputs (by decide),
    ⟨_, (congrArg (fun o => o.tanks.get n) htanks).trans htank, Tank.overfillNow_iff _ _ _, fun hb => ?_,
      fun hb hr ha => ?_⟩, fun m hm => ?_, State.watch_flagsRight _, ?_⟩
  · rw [htimer, hb, Bool.and_false]
    rfl
  · have hidle : (((s.highHighAt n on).takeOverfill n).tu.overfill.get n).armed = false := ha
    rw [htimer, hb, hr, QualTimer.take, hidle]
    rfl
  · rw [htanks]
    exact Quad.get_set_of_ne _ hm _
  · exact ((s.highHighAt_keeps n on).frame.mono (by decide)).trans
      (((State.takeOverfill_keeps _ n).frame.mono (by decide)).trans (hwatch.frame.mono (by decide)))

end Sys2Proof.Machine

open Sys2Proof Sys2Proof.Machine

/-- Settles O45: SEPARATION handed closes VC1 before and after its latch; HH_CHANGE evaluates one tank and the levels. -/
theorem separationAndHighHigh : Obligations.SeparationAndHighHigh := by
  refine ⟨fun s hr hv h => ?on, fun s hr hv h => separation_off hr hv h, fun s on h => execSepInChange_kept on h,
    fun s n on hl hu h => highHigh_changes hl hu h, fun s n on h => execHhChange_kept on h⟩
  obtain ⟨t, hexec, hinputs, ⟨hstate, hpending⟩, hflags, hlatches, hrests⟩ := separation_on hr hv h
  exact ⟨t, hexec, hinputs, hstate, hpending, hflags, hlatches, hrests⟩
end

section
/-! SUPPORT and the proof of O9: what the pressure levels are, and that no command changes them after start-up. -/

namespace Sys2Proof.Machine

/-! ## The levels a setup gives (R106) -/

/-- The three pressure levels: the surge threshold, the hard limit and the settle level. -/
def HoseWatch.levels (h : HoseWatch) : Nat × Nat × Nat := (h.surgeThreshold, h.hardLimit, h.settleLevel)

/-- The three levels as the setup gives them. -/
def Setup.levels (c : Setup) : Nat × Nat × Nat := (c.surgeThreshold, c.hardLimit, c.settleLevel)

/-- R106: entry to JOINING computes the levels of a station with a pressure watch, and no others. -/
theorem HoseWatch.levels_join (h : HoseWatch) (r : Role) (c : Setup) :
    (h.join r c).levels = if r.pressure then c.levels else h.levels := by
  obtain ⟨hsurge, hhard, hsettle⟩ := h.join_levels r c
  unfold HoseWatch.levels Setup.levels
  rw [hsurge, hhard, hsettle]
  split <;> rfl

/-- R127 after R192: the overfill conditions taken at JOINING entry leave all but the tanks. -/
theorem takeOverfills_keeps (s : State) : Keeps [.tanks] s (Ch.all.foldl State.takeOverfill s) :=
  Keeps.foldl State.takeOverfill_keeps Ch.all s

/-- What the freeze leaves in the setup, the station state and the levels. -/
theorem State.freeze_spec (s : State) (r : Role) (c : Setup) :
    (s.freeze r c).pc.station = .joining ∧ (s.freeze r c).sl.setup = c
      ∧ (s.freeze r c).hw.levels = if r.pressure then c.levels else s.hw.levels := by
  have hk := takeOverfills_keeps { s with
      sl := { s.sl with step := .frozen, setup := c, joinWindow := .fromZero }
      pc := { s.pc with station := .joining }
      sr := ⟨(protectedNumbers s.number c.lineup).map Entry.guard, .start⟩
      tu := { s.tu with mask := c.mask }
      vp := s.vp.join r
      hw := s.hw.join r c }
  obtain ⟨hsurge, hhard, hsettle⟩ := hk.part .levels (by decide)
  have hsl : (s.freeze r c).sl = _ := hk.part .setup (by decide)
  have hlevels : (s.freeze r c).hw.levels = (s.hw.join r c).levels :=
    Prod.ext hsurge (Prod.ext hhard hsettle)
  exact ⟨hk.part .station (by decide), hsl ▸ rfl, hlevels.trans (s.hw.levels_join r c)⟩

/-- R189: the rated pressure and the surge code that a station with a pressure watch freezes. -/
theorem freezeSetup_pressure (l : List Byte) {r : Role} (h : r.pressure = true) :
    (freezeSetup l r).rated = numAt l 14 2 ∧ (freezeSetup l r).surgeCode = byteAt l 16 := by
  simp [freezeSetup, usedOr, h]

/-! ## Commands that keep the levels -/

/-- The state has these pressure levels. -/
def HasLevels (l : Nat × Nat × Nat) (s : State) : Prop := s.hw.levels = l

variable {l : Nat × Nat × Nat} {s : State}

theorem HasLevels.frame {T : List Part} {t : State} (h : HasLevels l s) (k : Frame T s t)
    (hT : decide (Part.levels ∉ T) = true) : HasLevels l t := by
  obtain ⟨hsurge, hhard, hsettle⟩ := k.part .levels hT
  exact (Prod.ext hsurge (Prod.ext hhard hsettle) : t.hw.levels = s.hw.levels).trans h

theorem HasLevels.keeps {T : List Part} {t : State} (h : HasLevels l s) (k : Keeps T s t)
    (hT : decide (Part.levels ∉ T) = true) : HasLevels l t := h.frame k.frame hT

/-- A change outside the Hose Watch. -/
theorem HasLevels.congr {t : State} (h : HasLevels l s) (hw : t.hw = s.hw) : HasLevels l t :=
  (congrArg HoseWatch.levels hw).trans h

theorem HasLevels.ite {t u : State} {c : Prop} [Decidable c] (ht : HasLevels l t) (hu : HasLevels l u) :
    HasLevels l (if c then t else u) := Stable.ite (fun _ => ht) fun _ => hu

theorem HasLevels.iteSelf {t : State} {c : Prop} [Decidable c] (h : HasLevels l s) (ht : HasLevels l t) :
    HasLevels l (if c then t else s) := ht.ite h

theorem HasLevels.watch (h : HasLevels l s) : HasLevels l s.watch := h.keeps s.watch_keeps (by decide)

theorem HasLevels.puEval (h : HasLevels l s) : HasLevels l s.puEval := h.keeps s.puEval_keeps (by decide)

theorem HasLevels.handCause (h : HasLevels l s) (c : Cause) (d : Option Nat) : HasLevels l (s.handCause c d) :=
  h.keeps (s.handCause_keeps c d) (by decide)

theorem HasLevels.handPump (h : HasLevels l s) (r : PumpReason) : HasLevels l (s.handPump r) :=
  h.keeps (s.handPump_keeps r) (by decide)

theorem HasLevels.putChannel (h : HasLevels l s) (n : Ch) (c : Channel) : HasLevels l (s.putChannel n c) :=
  have hput : HasLevels l { s with vp := { s.vp with channels := s.vp.channels.set n c } } := h.congr rfl
  hput.keeps (State.putChannel_from s n c) (by decide)

theorem HasLevels.rosterChanged (h : HasLevels l s) : HasLevels l s.rosterChanged :=
  h.keeps s.rosterChanged_keeps (by decide)

theorem HasLevels.moveSlots (h : HasLevels l s) : HasLevels l s.moveSlots := h.keeps s.moveSlots_keeps (by decide)

/-! ## The link and the roster -/

theorem HasLevels.joinWindowEnd (h : HasLevels l s) : AnswersWith (HasLevels l) .joinWindowEnd s := by
  by_cases hj : s.pc.station = .joining
  swap
  · exact ⟨s, congrArg Host.Outcome.next (if_neg hj), h⟩
  have hrun : HasLevels l s.beginRunning := h.frame s.beginRunning_frame (by decide)
  have henter : HasLevels l (s.beginRunning.enterPhase s.sr.join.heard) := by
    cases s.sr.join.heard with
    | true => exact State.enterPhase_heard _ ▸ hrun.keeps (State.latch_keeps _ _ _) (by decide)
    | false => exact hrun.keeps (State.enterPhase_idle_keeps _).1 (by decide)
  exact ⟨_, State.execJoinWindowEnd_joining hj,
    (henter.keeps (State.handStanding_keeps _) (by decide)).watch.puEval⟩

theorem HasLevels.endNoAnswer (h : HasLevels l s) : HasLevels l s.endNoAnswer := by
  unfold State.endNoAnswer
  split
  · exact h.congr rfl
  · exact h

theorem HasLevels.mismatch (h : HasLevels l s) (a : Attempt) : HasLevels l (s.mismatch a) := by
  obtain ⟨he, -⟩ | ⟨p, -, -, -, hother, hrequest⟩ := s.mismatch_cases a
  · exact he ▸ h.congr rfl
  · have hdrop : HasLevels l ({ s with lc := s.lc.fail a }.emit (.dropped a.kind p.number)) := h.congr rfl
    by_cases hk : a.kind = .request
    · exact hrequest hk ▸ hdrop.endNoAnswer
    · exact hother hk ▸ hdrop

theorem HasLevels.compareEcho (h : HasLevels l s) (c : LineChar) : HasLevels l (s.compareEcho c) := by
  unfold State.compareEcho
  split
  · exact h
  · split
    · exact .ite (.ite (h.congr rfl) (h.congr rfl)) (h.mismatch _)
    · exact h.mismatch _

theorem HasLevels.lineCharacter (h : HasLevels l s) (c : LineChar) :
    AnswersWith (HasLevels l) (.lineCharacter c) s :=
  have hheard : HasLevels l { s with lc := { s.lc with line := s.lc.line.heard, idle := 0 } } := h.congr rfl
  ⟨_, rfl, .iteSelf h ((hheard.compareEcho c).congr rfl)⟩

theorem HasLevels.echoTimeout (h : HasLevels l s) : AnswersWith (HasLevels l) .echoTimeout s := by
  refine ⟨_, rfl, ?_⟩
  split
  · exact h.mismatch _
  · exact h

theorem HasLevels.lineIdle (h : HasLevels l s) : AnswersWith (HasLevels l) .lineIdle s :=
  have hidle : HasLevels l { s with lc := { s.lc with
      line := .quiet, idle := max s.lc.idle 200, assembly := s.lc.assembly.idle } } := h.congr rfl
  ⟨_, rfl, .iteSelf h hidle.moveSlots⟩

theorem HasLevels.attempt (h : HasLevels l s) : AnswersWith (HasLevels l) .attempt s := by
  refine ⟨_, rfl, .iteSelf h ?_⟩
  split
  · split
    · exact h.congr rfl
    · exact h
  · exact h

theorem HasLevels.heartbeat (h : HasLevels l s) : AnswersWith (HasLevels l) .heartbeat s :=
  have hbeat : HasLevels l { s with lc := { s.lc with heartbeat := .fromZero } } := h.congr rfl
  ⟨_, rfl, .iteSelf h (hbeat.keeps (State.askStatus_keeps _) (by decide))⟩

theorem HasLevels.takeJoining (h : HasLevels l s) (r : Received) : HasLevels l (s.takeJoining r) := by
  have hclash (e : Event) : HasLevels l (s.emit e) := h.congr rfl
  unfold State.takeJoining
  exact .ite ((hclash _).frame (State.enterOffline_frame _ _) (by decide))
    ((h.keeps (s.enterFrame_keeps r) (by decide)).congr rfl)

/-- R53, R56: a REQUEST frame taken at PU. -/
theorem HasLevels.takeRequestFrame (h : HasLevels l s) (n code : Nat) (number : BitVec 8) (q r : Nat) :
    HasLevels l (s.takeRequestFrame n code number q r) := by
  have hdone := h.keeps (s.carryOut_keeps (ReqKind.ofCode code) q r) (by decide)
  unfold State.takeRequestFrame
  refine .ite (h.congr rfl) ?_
  dsimp only
  split
  · exact hdone.congr rfl
  · exact hdone

/-- R51: an ANSWER frame for this station. -/
theorem HasLevels.takeAnswerFrame (h : HasLevels l s) (number : BitVec 8) (o : Decision) :
    HasLevels l (s.takeAnswerFrame number o) := by
  unfold State.takeAnswerFrame
  split
  · exact .ite (h.congr rfl) (h.congr rfl)
  · exact h.congr rfl

theorem HasLevels.takeContents (h : HasLevels l s) (r : Received) : HasLevels l (s.takeContents r) := by
  unfold State.takeContents
  split
  · exact .iteSelf h (h.takeRequestFrame _ _ _ _ _)
  · exact .iteSelf h (h.takeAnswerFrame _ _)
  · exact h.congr rfl
  · exact h

theorem HasLevels.takeRunning (h : HasLevels l s) (r : Received) : HasLevels l (s.takeRunning r) := by
  have hoffer := (h.keeps (s.enterFrame_keeps r) (by decide)).keeps (State.offerTrip_keeps _ r) (by decide)
  unfold State.takeRunning
  refine .ite (h.keeps (s.takeClash_keeps r) (by decide)) (.takeContents (.rosterChanged ?_) r)
  split
  · exact hoffer.keeps (State.takeStatus_keeps _ _ _ _) (by decide)
  · exact hoffer

theorem HasLevels.takeFrame (h : HasLevels l s) (b : List Byte) : HasLevels l (s.takeFrame b) := by
  unfold State.takeFrame
  split
  · split
    · exact .ite (h.takeJoining _) ((h.takeJoining _).congr rfl)
    · exact h.takeJoining _
  · exact h.takeRunning _
  · exact h

theorem HasLevels.rosterTakeFrame (h : HasLevels l s) : AnswersWith (HasLevels l) .rosterTakeFrame s := by
  refine ⟨_, rfl, ?_⟩
  split
  · rename_i b _ _
    have hgone : HasLevels l { s.takeFrame b with lc := { (s.takeFrame b).lc with delivery := none } } :=
      (h.takeFrame b).congr rfl
    exact hgone.moveSlots
  · exact h

theorem HasLevels.silenceLimit (h : HasLevels l s) (n : Nat) : AnswersWith (HasLevels l) (.silenceLimit n) s := by
  refine ⟨_, rfl, ?_⟩
  split
  · rename_i e _ _
    have hc := (h.keeps (s.silenced_keeps e) (by decide)).rosterChanged
    exact .iteSelf h (.iteSelf hc (hc.handCause _ _))
  · exact h

theorem HasLevels.removalLimit (h : HasLevels l s) (n : Nat) : AnswersWith (HasLevels l) (.removalLimit n) s := by
  refine ⟨_, rfl, ?_⟩
  split
  · exact .ite h (h.keeps (s.removed_keeps n) (by decide)).rosterChanged
  · exact h

theorem HasLevels.stepConfirmationTimeout (h : HasLevels l s) :
    AnswersWith (HasLevels l) .stepConfirmationTimeout s := by
  refine ⟨_, rfl, ?_⟩
  split
  · rename_i i _ _
    exact ((h.keeps (s.timedOut_keeps i) (by decide)).handCause _ _).puEval
  · exact h

theorem HasLevels.answerTimerExpiry (h : HasLevels l s) : AnswersWith (HasLevels l) .answerTimerExpiry s :=
  have hgone : HasLevels l { s with lc := s.lc.withdraw .request } := h.congr rfl
  ⟨_, rfl, .iteSelf h hgone.endNoAnswer⟩

/-! ## The plant -/

theorem HasLevels.valveSwitchChange (h : HasLevels l s) (n : Ch) (sw : Switch) (on : Bool) :
    AnswersWith (HasLevels l) (.valveSwitchChange n sw on) s :=
  have hi : HasLevels l { s with inputs := s.inputs.setSwitch n sw on } := h.congr rfl
  ⟨_, rfl, .ite h (.ite (hi.keeps (State.switchUsed_keeps _ n sw on) (by decide))
    (hi.keeps (State.switchUnused_keeps _ n) (by decide)))⟩

theorem HasLevels.dwellExpiry (h : HasLevels l s) (n : Ch) : AnswersWith (HasLevels l) (.dwellExpiry n) s :=
  ⟨_, rfl, .iteSelf h (h.putChannel _ _).watch⟩

theorem HasLevels.travelLimitExpiry (h : HasLevels l s) (n : Ch) :
    AnswersWith (HasLevels l) (.travelLimitExpiry n) s :=
  ⟨_, rfl, .iteSelf h ((h.putChannel _ _).handCause _ _).watch⟩

theorem HasLevels.holdOffExpiry (h : HasLevels l s) : AnswersWith (HasLevels l) .holdOffExpiry s :=
  ⟨_, rfl, .iteSelf h (h.keeps (s.releaseAll_keeps _) (by decide)).watch⟩

theorem HasLevels.pumpFbChange (h : HasLevels l s) (on : Bool) : AnswersWith (HasLevels l) (.pumpFbChange on) s :=
  have hi : HasLevels l { s with inputs := { s.inputs with pumpFb := on } } := h.congr rfl
  ⟨_, rfl, .ite h (.iteSelf hi (HasLevels.puEval (HasLevels.watch
    (.ite (hi.keeps (State.feedbackOn_keeps _) (by decide)) (hi.keeps (State.feedbackOff_keeps _) (by decide))))))⟩

theorem HasLevels.feedbackTimerExpiry (h : HasLevels l s) : AnswersWith (HasLevels l) .feedbackTimerExpiry s :=
  have hv : HasLevels l { s with vp := { s.vp with feedback := .stopped } } := h.congr rfl
  ⟨_, rfl, .iteSelf h (hv.handPump _).watch.puEval⟩

theorem HasLevels.stopTimerExpiry (h : HasLevels l s) : AnswersWith (HasLevels l) .stopTimerExpiry s :=
  have hv : HasLevels l { s with vp := { s.vp with stopTimer := .stopped } } := h.congr rfl
  ⟨_, rfl, .iteSelf h (hv.handPump _).watch.puEval⟩

theorem HasLevels.esdInChange (h : HasLevels l s) (on : Bool) : AnswersWith (HasLevels l) (.esdInChange on) s :=
  have hi : HasLevels l { s with inputs := { s.inputs with esd := on } } := h.congr rfl
  ⟨_, rfl, .ite h (HasLevels.watch (.iteSelf hi (hi.handCause _ _)))⟩

theorem HasLevels.sepInChange (h : HasLevels l s) (on : Bool) : AnswersWith (HasLevels l) (.sepInChange on) s :=
  have hi : HasLevels l { s with inputs := { s.inputs with sep := on } } := h.congr rfl
  ⟨_, rfl, .ite h (.iteSelf hi (HasLevels.watch
    (.iteSelf hi (hi.keeps (State.handSeparation_keeps _) (by decide)))))⟩

theorem HasLevels.ackInChange (h : HasLevels l s) (on : Bool) : AnswersWith (HasLevels l) (.ackInChange on) s :=
  have hi : HasLevels l { s with inputs := { s.inputs with ack := on } } := h.congr rfl
  ⟨_, rfl, .ite h (.iteSelf hi (hi.keeps (State.acknowledge_keeps _) (by decide)))⟩

theorem HasLevels.cadenceToggle (h : HasLevels l s) (o : Sounder) :
    AnswersWith (HasLevels l) (.cadenceToggle o) s := by
  cases o <;> exact ⟨_, rfl, h.congr rfl⟩

theorem HasLevels.qualificationExpiry (h : HasLevels l s) (q : QualId) :
    AnswersWith (HasLevels l) (.qualificationExpiry q) s :=
  ⟨_, rfl, .iteSelf h (h.keeps (s.qualify_keeps q) (by decide)).watch.puEval⟩

theorem HasLevels.hhChange (h : HasLevels l s) (n : Ch) (on : Bool) :
    AnswersWith (HasLevels l) (.hhChange n on) s :=
  have hi : HasLevels l { s with inputs := { s.inputs with hh := s.inputs.hh.set n on } } := h.congr rfl
  ⟨_, rfl, .ite h (.iteSelf hi (hi.keeps (State.takeOverfill_keeps _ n) (by decide)).watch)⟩

theorem HasLevels.claimWaitExpiry (h : HasLevels l s) : AnswersWith (HasLevels l) .claimWaitExpiry s := by
  refine ⟨_, rfl, ?_⟩
  split
  · rename_i n _ _
    have hdecided : HasLevels l (if !s.peerClaimBelow && s.peerRoute then s.winClaim n else s.loseClaim n) :=
      .ite (h.keeps (s.winClaim_keeps n) (by decide)) (h.keeps (s.loseClaim_keeps n) (by decide))
    exact ((hdecided.keeps (State.judgeAllFull_keeps _) (by decide)).keeps (State.judgeEnds_keeps _)
      (by decide)).watch
  · exact h

theorem HasLevels.settleExpiry (h : HasLevels l s) {c : Instr} (hc : c = .settleWindowExpiry ∨ c = .settleLimitExpiry) :
    AnswersWith (HasLevels l) c s := by
  rcases hc with rfl | rfl <;> exact ⟨_, rfl, .iteSelf h (h.keeps s.completeSettling_keeps (by decide))⟩

theorem HasLevels.meterPulse (h : HasLevels l s) : AnswersWith (HasLevels l) .meterPulse s :=
  have hpulsed : HasLevels l { s with mr := s.mr.pulse s.sl.setup.meterK } := h.congr rfl
  ⟨_, rfl, .iteSelf h (hpulsed.keeps (State.litres_keeps _ _) (by decide))⟩

theorem HasLevels.rateWindow (h : HasLevels l s) : AnswersWith (HasLevels l) .rateWindow s :=
  have hm : HasLevels l { s with mr := s.mr.completeWindow s.pc.phase } := h.congr rfl
  ⟨_, rfl, .iteSelf h (((hm.keeps (State.followCap_keeps _) (by decide)).keeps (State.handNoFlow_keeps _ _)
    (by decide)).watch.puEval)⟩

theorem HasLevels.startLimitExpiry (h : HasLevels l s) : AnswersWith (HasLevels l) .startLimitExpiry s :=
  have hm : HasLevels l { s with mr := { s.mr with startLimit := .stopped } } := h.congr rfl
  ⟨_, rfl, .iteSelf h (hm.keeps (State.handNoFlow_keeps _ _) (by decide)).watch.puEval⟩

theorem HasLevels.scanSetStart (h : HasLevels l s) : AnswersWith (HasLevels l) .scanSetStart s :=
  ⟨_, rfl, .iteSelf h (h.keeps s.startSet_keeps (by decide))⟩

theorem HasLevels.scanReading (h : HasLevels l s) (raw : BitVec 12) :
    AnswersWith (HasLevels l) (.scanReading raw) s := by
  refine ⟨_, rfl, ?_⟩
  split
  · rename_i n _ _
    have hread : HasLevels l { s with hw := { s.hw with
        chans := s.hw.chans.set n ((s.hw.chans.get n).read raw.toNat (s.hasRole .tw)).1 } } := h
    exact (hread.keeps (State.handOn_keeps _ _ _) (by decide)).watch.puEval.keeps (State.advanceScan_keeps _ n)
      (by decide)
  · exact h

theorem HasLevels.allowanceExpiry (h : HasLevels l s) : AnswersWith (HasLevels l) .allowanceExpiry s := by
  have hsurge : HasLevels l (if s.hw.excursion = .excursion then s.handCause .surge none else s) :=
    .iteSelf h (h.handCause _ _)
  generalize hu : (if s.hw.excursion = .excursion then s.handCause .surge none else s) = u at hsurge
  have hended : HasLevels l { u with hw := u.hw.endAllowance } := hsurge
  exact ⟨_, rfl, .iteSelf h (hu ▸ hended.watch.puEval)⟩

theorem HasLevels.relaxExpiry (h : HasLevels l s) : AnswersWith (HasLevels l) .relaxExpiry s :=
  have hnone : HasLevels l { s with hw := { s.hw with excursion := .none, relax := .stopped } } := h
  ⟨_, rfl, .iteSelf h hnone.watch⟩

/-! ## The panel -/

theorem HasLevels.handleLine (h : HasLevels l s) {f : State → State} (hf : HasLevels l (f s)) :
    HasLevels l (s.handleLine f) := .ite hf (h.congr rfl)

theorem HasLevels.requestLine (h : HasLevels l s) (k : ReqKind) (q r : Nat) : HasLevels l (s.requestLine k q r) := by
  have hdone := h.keeps (s.carryOut_keeps (some k) q r) (by decide)
  exact .ite (h.congr rfl) (.ite (hdone.congr rfl) (.ite (h.congr rfl) (.ite (h.congr rfl) (h.congr rfl))))

theorem HasLevels.tankLine (h : HasLevels l s) (w : CommandWord) (t : Nat) (check : Ch → Option RefuseReason)
    (st : TankState) : HasLevels l (s.tankLine w t check st) := by
  unfold State.tankLine
  split
  · exact h.congr rfl
  · rename_i n _
    have hchosen : HasLevels l (s.chooseTank n st) :=
      .ite (h.congr rfl) (h.keeps (s.setTank_keeps n st) (by decide)).watch
    refine .ite ?_ (h.congr rfl)
    split
    · exact h.congr rfl
    · exact hchosen.congr rfl

/-- R203: a READ command gives a report and does nothing else. -/
theorem HasLevels.lineRead (h : HasLevels l s) (n : Option Nat) :
    HasLevels l (s.lineReadValve n) ∧ HasLevels l (s.lineReadTank n) ∧ HasLevels l (s.lineReadRoster n) := by
  refine ⟨?_, ?_, ?_⟩
  · unfold State.lineReadValve
    split
    · exact h.congr rfl
    · split <;> exact h.congr rfl
  · unfold State.lineReadTank
    split
    · exact h.congr rfl
    · split <;> exact h.congr rfl
  · cases n
    · exact h.congr rfl
    · exact .ite (h.congr rfl) (h.congr rfl)

/-- R198: whatever a command handed on does. -/
theorem HasLevels.runLine (h : HasLevels l s) (c : Instr) : HasLevels l (s.runLine c) := by
  cases c
  case nominate q r => exact .ite (h.requestLine _ _ _) (h.congr rfl)
  case start | pause | resume | stop | reset | endack => exact h.requestLine _ _ _
  case trip => exact .ite ((h.handCause _ _).congr rfl) (h.congr rfl)
  case silence => exact .ite (h.congr rfl) ((h.keeps s.acknowledge_keeps (by decide)).congr rfl)
  case assign t => exact h.tankLine _ _ _ _
  case unassign t => exact h.tankLine _ _ _ _
  case mask w => exact h.congr rfl
  case readRoster n => exact (h.lineRead n).2.2
  case readValve n => exact (h.lineRead n).1
  case readTank n => exact (h.lineRead n).2.1
  case readPhase | readTrip | readAlarm | readPump | readScan | readRecord | readSetup | readPanel =>
    exact h.congr rfl
  all_goals exact h

theorem HasLevels.runParsed (h : HasLevels l s) (p : PanelLine) : HasLevels l (s.runParsed p) := by
  cases p with
  | blank => exact h
  | overlong w => exact h.handleLine (f := fun u => u.report _) (h.congr rfl)
  | bad w => exact h.handleLine (f := fun u => u.report _) (h.congr rfl)
  | command c => exact h.handleLine (f := fun u => u.runLine c) (h.runLine c)

theorem HasLevels.panelCharacter (h : HasLevels l s) (c : LineChar) :
    AnswersWith (HasLevels l) (.panelCharacter c) s := by
  cases c with
  | bad => exact ⟨_, rfl, h⟩
  | good b =>
    have hcleared : HasLevels l { s with pp := s.pp.clearLine } := h.congr rfl
    exact ⟨_, rfl, .ite (hcleared.runParsed _) (.ite (h.congr rfl) (.iteSelf h (h.congr rfl)))⟩

theorem HasLevels.reportSent (h : HasLevels l s) : AnswersWith (HasLevels l) .reportSent s :=
  ⟨_, rfl, .ite h (h.congr rfl)⟩

/-! ## Every command -/

/-- R186, R188: the straps and the image are read before the setup is frozen. -/
theorem execStartUp_frozen {c : Instr} (hf : s.sl.step = .frozen) (hc : isStartUp c = true) (hn : c ≠ .startUp) :
    exec c s = .next s := by
  cases c with
  | startUp => exact absurd rfl hn
  | resetInOff sn rl => exact congrArg Host.Outcome.next (if_neg (by simp [hf]))
  | setupRead image => exact congrArg Host.Outcome.next (by simp [hf])
  | _ => exact Bool.noConfusion hc

/-- R106: no command but those of start-up writes the levels. -/
theorem HasLevels.exec (h : HasLevels l s) (c : Instr) (hc : isStartUp c = false) : AnswersWith (HasLevels l) c s := by
  by_cases hl : isPanelLine c = true
  · exact ⟨_, exec_panelLine hl s, h.handleLine (h.runLine c)⟩
  cases c
  case joinWindowEnd => exact h.joinWindowEnd
  case lineCharacter c => exact h.lineCharacter c
  case echoTimeout => exact h.echoTimeout
  case lineIdle => exact h.lineIdle
  case attempt => exact h.attempt
  case heartbeat => exact h.heartbeat
  case rosterTakeFrame => exact h.rosterTakeFrame
  case silenceLimit n => exact h.silenceLimit n
  case removalLimit n => exact h.removalLimit n
  case stepConfirmationTimeout => exact h.stepConfirmationTimeout
  case answerTimerExpiry => exact h.answerTimerExpiry
  case panelCharacter c => exact h.panelCharacter c
  case reportSent => exact h.reportSent
  case esdInChange on => exact h.esdInChange on
  case sepInChange on => exact h.sepInChange on
  case ackInChange on => exact h.ackInChange on
  case cadenceToggle o => exact h.cadenceToggle o
  case hhChange n on => exact h.hhChange n on
  case qualificationExpiry q => exact h.qualificationExpiry q
  case valveSwitchChange n sw on => exact h.valveSwitchChange n sw on
  case dwellExpiry n => exact h.dwellExpiry n
  case travelLimitExpiry n => exact h.travelLimitExpiry n
  case holdOffExpiry => exact h.holdOffExpiry
  case pumpFbChange on => exact h.pumpFbChange on
  case feedbackTimerExpiry => exact h.feedbackTimerExpiry
  case stopTimerExpiry => exact h.stopTimerExpiry
  case meterPulse => exact h.meterPulse
  case rateWindow => exact h.rateWindow
  case startLimitExpiry => exact h.startLimitExpiry
  case scanSetStart => exact h.scanSetStart
  case scanReading raw => exact h.scanReading raw
  case allowanceExpiry => exact h.allowanceExpiry
  case relaxExpiry => exact h.relaxExpiry
  case claimWaitExpiry => exact h.claimWaitExpiry
  case settleWindowExpiry => exact h.settleExpiry (.inl rfl)
  case settleLimitExpiry => exact h.settleExpiry (.inr rfl)
  case startUp | resetInOff | setupRead => exact Bool.noConfusion hc
  all_goals exact absurd rfl hl

/-- R106: with the setup frozen, every command but START_UP keeps the levels. -/
theorem HasLevels.exec_frozen (h : HasLevels l s) {c : Instr} (hf : s.sl.step = .frozen) (hn : c ≠ .startUp) :
    AnswersWith (HasLevels l) c s := by
  cases hc : isStartUp c with
  | true => exact ⟨s, execStartUp_frozen hf hc hn, h⟩
  | false => exact h.exec c hc

/-! ## What the levels are used for -/

theorem State.pressureRole_iff (s : State) :
    s.pressureRole = true ↔ s.hasRole .pu = true ∨ s.hasRole .bv = true ∨ s.hasRole .sv = true := by
  unfold State.pressureRole State.hasRole
  cases s.role with
  | none => simp
  | some r => cases r <;> simp [Role.pressure]

/-- At a station with a pressure watch the three facts compare a valid pressure with the levels. -/
theorem State.pressureFacts_valid {p : Nat} (hf : s.hw.chans.n1.fault = false) (hv : s.hw.chans.n1.value = some p)
    (hr : s.pressureRole = true) :
    (s.aboveThreshold = true ↔ s.hw.surgeThreshold < p) ∧ (s.aboveHardLimit = true ↔ s.hw.hardLimit < p)
      ∧ (s.hasRole .pu = true → (s.settleFact = true ↔ p < s.hw.settleLevel)) := by
  have hp : s.pressure = some p := by simp [State.pressure, ScanChannel.valid, hf, hv]
  exact ⟨by simp [State.aboveThreshold, hp, hr], by simp [State.aboveHardLimit, hp, hr],
    fun hpu => by simp [State.settleFact, hp, hpu]⟩

/-- At TW and MN there is no pressure watch, and none of the three facts holds. -/
theorem State.pressureFacts_none (h : s.pressureRole = false) :
    s.aboveThreshold = false ∧ s.aboveHardLimit = false ∧ s.settleFact = false := by
  have hpu : s.hasRole .pu = false := by
    rw [← Bool.not_eq_true] at h ⊢
    exact fun hr => h (s.pressureRole_iff.2 (.inl hr))
  simp [State.aboveThreshold, State.aboveHardLimit, State.settleFact, h, hpu]

theorem State.pressureRole_of_other (h : s.hasRole .tw = true ∨ s.hasRole .mn = true) : s.pressureRole = false := by
  unfold State.pressureRole
  rcases h with h | h <;> rw [(s.hasRole_iff _).1 h] <;> rfl

/-- R111: the surge condition begins above the surge threshold alone. -/
theorem HoseWatch.takePressure_surge {h : HoseWatch} {v : Nat} (hc : (h.takePressure v).surgeCond = true) :
    h.surgeThreshold < v :=
  of_decide_eq_true (Bool.and_eq_true_iff.1 hc).1

theorem State.settleFact_of_proved (h : s.pumpProved = true) : s.settleFact = true := (Bool.and_eq_true_iff.1 h).2

end Sys2Proof.Machine

open Sys2Proof Sys2Proof.Machine

/-- Settles O9: the freeze computes the levels, and command by command nothing else writes them. -/
theorem pressureLevels : Obligations.PressureLevels := by
  refine ⟨fun s image r hs hr hf hrole => ?_, fun s image r hs hr hf hrole => ?_, fun c s t hf hn ht => ?_,
    fun s t hp ht => ?_, fun s p hf hv hr => State.pressureFacts_valid hf hv (s.pressureRole_iff.2 hr),
    fun s v => ⟨rfl, HoseWatch.takePressure_surge, State.settleFact_of_proved⟩,
    fun s hr => State.pressureFacts_none (State.pressureRole_of_other hr)⟩
  · have hpress : r.pressure = true := by rcases hrole with rfl | rfl | rfl <;> rfl
    obtain ⟨hst, hsetup, hlevels⟩ := (s.takeImage image).freeze_spec r (freezeSetup image.toList r)
    obtain ⟨hrated, hcode⟩ := freezeSetup_pressure image.toList hpress
    rw [if_pos hpress, Setup.levels, HoseWatch.levels, Prod.mk.injEq, Prod.mk.injEq] at hlevels
    obtain ⟨hsurge, hhard, hsettle⟩ := hlevels
    refine ⟨_, execSetupRead_accepted hs hr hf, hst, ?_, ?_, ?_, ?_⟩
    · rw [hsurge, hsetup, Setup.surgeThreshold]
    · rw [hhard, hsurge, Setup.hardLimit]
    · rw [hsettle, hsetup, Setup.settleLevel]
    · rw [hsetup, hrated, hcode]
      exact setupFailure_pressure hf hpress
  · have hpress : ¬ r.pressure = true := by rcases hrole with rfl | rfl <;> exact Bool.false_ne_true
    obtain ⟨hst, -, hlevels⟩ := (s.takeImage image).freeze_spec r (freezeSetup image.toList r)
    rw [if_neg hpress, HoseWatch.levels, HoseWatch.levels, Prod.mk.injEq, Prod.mk.injEq] at hlevels
    exact ⟨_, execSetupRead_accepted hs hr hf, hst, hlevels⟩
  · obtain ⟨u, hu, hlevels⟩ := HasLevels.exec_frozen (l := s.hw.levels) (s := s) rfl hf hn
    obtain rfl : u = t := by simpa [hu] using ht
    simpa [HasLevels, HoseWatch.levels] using hlevels
  · have htick : t = s.tick := by simpa [step, hp] using ht.symm
    exact htick ▸ ⟨rfl, rfl, rfl⟩
end

section
/-! SUPPORT and the proof of O51: a completed reading, from the channel that takes it to the next one in the set. -/

namespace Sys2Proof.Machine

/-! ## The channel (R102, R103) -/

section Channel

variable {c : ScanChannel} {raw : Nat} {level : Bool}

theorem ScanChannel.read_good (hf : c.fault = false) (hb : badReading raw = false) :
    c.read raw level
      = ({ c with lastRaw := some raw, badCount := 0, value := some (engineering raw c.span level) },
        .value (engineering raw c.span level)) := by
  simp [ScanChannel.read, hf, hb]

theorem ScanChannel.read_bad (hf : c.fault = false) (hb : badReading raw = true) (hn : c.badCount < 2) :
    c.read raw level = ({ c with lastRaw := some raw, badCount := c.badCount + 1 }, .nothing) := by
  simp [ScanChannel.read, hf, hb, Nat.not_le.2 hn]

theorem ScanChannel.read_faultBegins (hf : c.fault = false) (hb : badReading raw = true) (hn : 2 ≤ c.badCount) :
    c.read raw level
      = ({ c with lastRaw := some raw, fault := true, badCount := 0, goodCount := 0 }, .faultBegins) := by
  simp [ScanChannel.read, hf, hb, hn]

theorem ScanChannel.read_goodInFault (hf : c.fault = true) (hb : badReading raw = false) (hn : c.goodCount < 2) :
    c.read raw level = ({ c with lastRaw := some raw, goodCount := c.goodCount + 1 }, .nothing) := by
  simp [ScanChannel.read, hf, hb, Nat.not_le.2 hn]

theorem ScanChannel.read_faultEnds (hf : c.fault = true) (hb : badReading raw = false) (hn : 2 ≤ c.goodCount) :
    c.read raw level
      = ({ c with lastRaw := some raw, fault := false, badCount := 0, goodCount := 0
                  value := some (engineering raw c.span level) },
        .faultEnds (engineering raw c.span level)) := by
  simp [ScanChannel.read, hf, hb, hn]

theorem ScanChannel.read_badInFault (hf : c.fault = true) (hb : badReading raw = true) :
    c.read raw level = ({ c with lastRaw := some raw, goodCount := 0 }, .nothing) := by
  simp [ScanChannel.read, hf, hb]

theorem ScanChannel.read_lastRaw (c : ScanChannel) (raw : Nat) (level : Bool) :
    (c.read raw level).1.lastRaw = some raw := by
  unfold ScanChannel.read
  split
  · rfl
  · split <;> rfl
  · split <;> rfl
  · rfl

/-- R102: the limits of a bad reading. -/
theorem badReading_eq (raw : Nat) : badReading raw = decide (raw ≤ 40 ∨ 4055 ≤ raw) := (Bool.decide_or _ _).symm

end Channel

/-! ## The scan (R101) -/

/-- The first channel with a property is the one with no lower one. -/
theorem Ch.find_all {p : Ch → Bool} {n : Ch} (hn : p n = true) (hlow : ∀ m : Ch, m.num < n.num → p m = false) :
    Ch.all.find? p = some n := by
  cases n with
  | n1 => simp [Ch.all, hn]
  | n2 => simp [Ch.all, hn, hlow .n1 (by decide)]
  | n3 => simp [Ch.all, hn, hlow .n1 (by decide), hlow .n2 (by decide)]
  | n4 => simp [Ch.all, hn, hlow .n1 (by decide), hlow .n2 (by decide), hlow .n3 (by decide)]

theorem HoseWatch.channelAfter_some {h : HoseWatch} {n m : Ch} (he : (h.chans.get m).enabled = true) (hm : n.num < m.num)
    (hgap : ∀ k : Ch, n.num < k.num → k.num < m.num → (h.chans.get k).enabled = false) :
    h.channelAfter n = some m := by
  refine Ch.find_all (by simp [he, hm]) fun k hk => ?_
  by_cases hnk : n.num < k.num
  · simp [hgap k hnk hk]
  · simp [hnk]

theorem HoseWatch.channelAfter_none {h : HoseWatch} {n : Ch}
    (hrest : ∀ m : Ch, n.num < m.num → (h.chans.get m).enabled = false) : h.channelAfter n = none := by
  refine List.find?_eq_none.2 fun m _ => ?_
  by_cases hm : n.num < m.num
  · simp [hrest m hm]
  · simp [hm]

/-- The set goes on to the next enabled channel. -/
theorem HoseWatch.advance_next {h : HoseWatch} {n m : Ch} (b : Bool) (hc : h.channelAfter n = some m) :
    (h.advance n b).slot = some m := by simp [HoseWatch.advance, hc]

/-- The set ends behind its last channel, and HW waits outside the active phases. -/
theorem HoseWatch.advance_end {h : HoseWatch} {n : Ch} (hc : h.channelAfter n = none) :
    (h.advance n false).slot = none := by simp [HoseWatch.advance, hc]

theorem HoseWatch.startSet_first {h : HoseWatch} {n : Ch} (he : (h.chans.get n).enabled = true)
    (hlow : ∀ m : Ch, m.num < n.num → (h.chans.get m).enabled = false) :
    h.startSet = { h with slot := some n, setTimer := .fromZero } := by
  have hfirst : h.firstChannel = some n := Ch.find_all he hlow
  simp [HoseWatch.startSet, hfirst]

theorem HoseWatch.startSet_none {h : HoseWatch} (hoff : ∀ n : Ch, (h.chans.get n).enabled = false) :
    h.startSet = h := by
  have hfirst : h.firstChannel = none := List.find?_eq_none.2 fun n _ => by simp [hoff n]
  simp [HoseWatch.startSet, hfirst]

variable {s : State} {n : Ch} {raw : BitVec 12}

theorem execScanSetStart_waiting (hl : s.listening = true) (hs : s.hw.slot = none) :
    exec .scanSetStart s = .next { s with hw := s.hw.startSet } :=
  congrArg Host.Outcome.next (if_pos (by simp [hl, hs]))

/-! ## A reading handed on -/

/-- A channel's record replaced. -/
def State.readAt (s : State) (n : Ch) (c : ScanChannel) : State :=
  { s with hw := { s.hw with chans := s.hw.chans.set n c } }

/-- The channel's record taken, what the reading hands on carried out, and the levels watched. -/
def State.readingTaken (s : State) (n : Ch) (r : ScanChannel × Reading) : State :=
  ((s.readAt n r.1).handOn n r.2).watch.puEval

theorem State.readAt_frame (s : State) (n : Ch) (c : ScanChannel) : Frame [.readings] s (s.readAt n c) := by
  intro p hp
  cases p <;> first | exact absurd (by decide) hp | simp [Part.same, State.readAt]

theorem execScanReading_reads (hl : s.listening = true) (hs : s.hw.slot = some n) :
    exec (.scanReading raw) s
      = .next ((s.readingTaken n ((s.hw.chans.get n).read raw.toNat (s.hasRole .tw))).advanceScan n) := by
  change execScanReading raw s = _
  simp only [execScanReading, hl, hs]
  rfl

theorem State.readingTaken_keeps (s : State) (n : Ch) (r : ScanChannel × Reading) :
    Keeps leakParts (s.readAt n r.1) (s.readingTaken n r) :=
  ((State.handOn_keeps _ n r.2).trans ((State.watch_keeps _).mono (by decide))).trans
    ((State.puEval_keeps _).mono (by decide))

theorem State.reading_keeps (s : State) (n : Ch) (r : ScanChannel × Reading) :
    Keeps leakParts (s.readAt n r.1) ((s.readingTaken n r).advanceScan n) :=
  (s.readingTaken_keeps n r).trans ((State.advanceScan_keeps _ n).mono (by decide))

theorem State.reading_frame (s : State) (n : Ch) (r : ScanChannel × Reading) :
    Frame (cascadeParts ++ [.leak, .readings]) s ((s.readingTaken n r).advanceScan n) :=
  ((s.readAt_frame n r.1).mono (by decide)).trans ((s.reading_keeps n r).frame.mono (by decide))

/-- The channel read has the record the reading gives it, and the others stay. -/
theorem State.reading_chans (s : State) (n : Ch) (r : ScanChannel × Reading) :
    ((s.readingTaken n r).advanceScan n).hw.chans = s.hw.chans.set n r.1 :=
  (s.reading_keeps n r).part .readings (by decide)

theorem State.readingTaken_chans (s : State) (n : Ch) (r : ScanChannel × Reading) :
    (s.readingTaken n r).hw.chans = s.hw.chans.set n r.1 := (s.readingTaken_keeps n r).part .readings (by decide)

/-- R101: after the reading the set is at the next enabled channel. -/
theorem State.reading_next {m : Ch} (r : ScanChannel × Reading) (he : (s.hw.chans.get m).enabled = true)
    (hm : n.num < m.num) (hgap : ∀ k : Ch, n.num < k.num → k.num < m.num → (s.hw.chans.get k).enabled = false) :
    ((s.readingTaken n r).advanceScan n).hw.slot = some m := by
  have hget (k : Ch) (hk : n.num < k.num) : (s.readingTaken n r).hw.chans.get k = s.hw.chans.get k := by
    rw [s.readingTaken_chans]
    exact Quad.get_set_of_ne _ (fun h => by simp [h] at hk) _
  exact HoseWatch.advance_next _ (HoseWatch.channelAfter_some (by rw [hget m hm, he]) hm
    fun k hk hkm => by rw [hget k hk, hgap k hk hkm])

/-- R101: after the last channel the set ends, outside the active phases. -/
theorem State.reading_last (r : ScanChannel × Reading)
    (hrest : ∀ m : Ch, n.num < m.num → (s.hw.chans.get m).enabled = false)
    (ht : ((s.readingTaken n r).advanceScan n).running = false
      ∨ ((s.readingTaken n r).advanceScan n).pc.phase.active = false) :
    ((s.readingTaken n r).advanceScan n).hw.slot = none := by
  have hnone : (s.readingTaken n r).hw.channelAfter n = none := by
    refine HoseWatch.channelAfter_none fun m hm => ?_
    rw [s.readingTaken_chans, Quad.get_set_of_ne _ (fun h => by simp [h] at hm), hrest m hm]
  have hwait : ((s.readingTaken n r).running && (s.readingTaken n r).pc.phase.active) = false :=
    Bool.and_eq_false_iff.2 ht
  unfold State.advanceScan
  rw [hwait]
  exact HoseWatch.advance_end hnone

/-! ## The level of a tank (R105, R118) -/

/-- A tank's level, and whether it is valid. -/
def Tank.levelRead (t : Tank) : Option Nat × Bool := (t.level, t.levelValid)

/-- The tank of number `n` has this level. -/
def HasLevel (n : Ch) (l : Option Nat × Bool) (s : State) : Prop := (s.ow.tanks.get n).levelRead = l

section Level

variable {l : Option Nat × Bool}

theorem HasLevel.congr {t : State} (h : HasLevel n l s) (ht : t.ow.tanks = s.ow.tanks) : HasLevel n l t := by
  unfold HasLevel
  rw [ht]
  exact h

theorem HasLevel.keeps {T : List Part} {t : State} (h : HasLevel n l s) (k : Keeps T s t)
    (hT : decide (Part.tanks ∉ T) = true) : HasLevel n l t := h.congr (congrArg OverflowWatch.tanks (k.part .tanks hT))

/-- A tank replaced by one with the same level. -/
theorem HasLevel.putTank {m : Ch} {t : Tank} (h : HasLevel n l s)
    (ht : t.levelRead = (s.ow.tanks.get m).levelRead) : HasLevel n l (s.putTank m t) := by
  change ((s.ow.tanks.set m t).get n).levelRead = l
  by_cases hm : n = m
  · subst hm
    rw [Quad.get_set_self, ht]
    exact h
  · rw [Quad.get_set_of_ne _ hm]
    exact h

theorem HasLevel.ite {t u : State} {c : Prop} [Decidable c] (ht : HasLevel n l t) (hu : HasLevel n l u) :
    HasLevel n l (if c then t else u) := by
  split
  · exact ht
  · exact hu

theorem HasLevel.takeOverfill (h : HasLevel n l s) (m : Ch) : HasLevel n l (s.takeOverfill m) := h.putTank rfl

theorem HasLevel.setTank (h : HasLevel n l s) (m : Ch) (st : TankState) : HasLevel n l (s.setTank m st) :=
  have hput : HasLevel n l (s.putTank m { s.ow.tanks.get m with state := st }) := h.putTank rfl
  .ite h ((hput.keeps (State.askStatus_keeps _) (by decide)).congr rfl)

theorem HasLevel.setReceipt (h : HasLevel n l s) (r : ReceiptState) : HasLevel n l (s.setReceipt r) :=
  have hput : HasLevel n l { s with ow := { s.ow with receipt := r } } := h.congr rfl
  .ite h ((hput.keeps (State.askStatus_keeps _) (by decide)).congr rfl)

theorem HasLevel.startClaim (h : HasLevel n l s) (m : Ch) : HasLevel n l (s.startClaim m) :=
  have hput : HasLevel n l { s with ow := { s.ow with claim := ⟨true, some m, .fromZero⟩ } } := h.congr rfl
  (hput.keeps (State.askStatus_keeps _) (by decide)).congr rfl

/-- R122 to R124, R130: the steps a level takes a tank through leave the level. -/
theorem HasLevel.levelSteps (h : HasLevel n l s) (m : Ch) (v : Nat) : HasLevel n l (s.levelSteps m v) := by
  have htopping : HasLevel n l ((s.stepFilling m v).stepTopping m v) := by
    have hfilling : HasLevel n l (s.stepFilling m v) := .ite (h.setTank _ _) h
    exact .ite (hfilling.setTank _ _) hfilling
  refine .ite ?_ h
  generalize (s.stepFilling m v).stepTopping m v = u at htopping ⊢
  refine .ite (.ite ?full (.ite htopping (.ite (htopping.startClaim _) (htopping.setTank _ _)))) htopping
  exact (htopping.setTank m .full).keeps (State.closeChannel_keeps _ m) (by decide)

theorem HasLevel.settleReading (h : HasLevel n l s) (m : Ch) (v : Nat) (b : Bool) :
    HasLevel n l (s.settleReading m v b) := by
  have hput : HasLevel n l (s.putTank m { s.ow.tanks.get m with reference := v }) := h.putTank rfl
  exact .ite (hput.congr rfl) h

theorem HasLevel.receivedReading (h : HasLevel n l s) (m : Ch) : HasLevel n l (s.receivedReading m) :=
  .ite (.ite h (h.congr rfl)) h

/-- R118: a tank's reading gives it the level, and nothing that follows changes it. -/
theorem State.tankReading_level (s : State) (n : Ch) (v : Nat) : HasLevel n (some v, true) (s.tankReading n v) := by
  have htaken : HasLevel n (some v, true)
      (s.putTank n ((s.ow.tanks.get n).takeLevel v (s.sl.setup.tanks.get n).high s.running)) := by
    simp [HasLevel, State.putTank, Tank.levelRead, Tank.takeLevel]
  have hfacts := (htaken.takeOverfill n).keeps (State.handTankFacts_keeps _ n) (by decide)
  have hfull (u : State) (h : HasLevel n (some v, true) u) : HasLevel n (some v, true) u.judgeAllFull :=
    .ite (h.setReceipt _) h
  have hsteps := hfull _ (hfacts.levelSteps n v)
  exact (((hsteps.receivedReading n).settleReading n v _).keeps (State.takeReceived_keeps _) (by decide)).keeps
    (State.judgeEnds_keeps _) (by decide)

/-- R118: a tank whose channel enters sensor fault has no valid level. -/
theorem State.tankFault_level (s : State) (n : Ch) :
    HasLevel n ((s.ow.tanks.get n).level, false) (s.tankFault n) := by
  have hput : HasLevel n ((s.ow.tanks.get n).level, false)
      (s.putTank n { s.ow.tanks.get n with levelValid := false }) := by
    simp [HasLevel, State.putTank, Tank.levelRead]
  exact .ite ((hput.takeOverfill n).congr rfl) (hput.takeOverfill n)

theorem State.tw_of_tankUsed (h : s.tankUsed n = true) : s.hasRole .tw = true := (Bool.and_eq_true_iff.1 h).1

/-- R7: PC evaluates at PU alone. -/
theorem State.evaluate_tw (h : s.hasRole .tw = true) : s.watch.puEval = s.watch := by
  refine State.puEval_follower ?_
  rw [s.watch_keeps.runningPu (by decide), State.runningPu, State.not_pu_of_role h nofun, Bool.and_false]

/-- R105: a good reading of a tank's channel is the tank's level. -/
theorem State.reading_level {c : ScanChannel} (v : Nat) (hu : s.tankUsed n = true) (hp : s.pressureRole = false) :
    HasLevel n (some v, true) ((s.readingTaken n (c, .value v)).advanceScan n) := by
  have hon : (s.readAt n c).handOn n (.value v) = (s.readAt n c).tankReading n v := by
    have hp' : (s.readAt n c).pressureRole = false := hp
    have hu' : (s.readAt n c).tankUsed n = true := hu
    simp [State.handOn, State.handReading, hp', hu']
  have hrole : ((s.readAt n c).tankReading n v).hasRole .tw = true :=
    ((State.tankReading_keeps _ n v).hasRole (by decide) _).trans (State.tw_of_tankUsed hu)
  have hlevel : HasLevel n (some v, true) (s.readingTaken n (c, .value v)) := by
    unfold State.readingTaken
    dsimp only
    rw [hon, State.evaluate_tw hrole]
    exact ((s.readAt n c).tankReading_level n v).keeps (State.watch_keeps _) (by decide)
  exact hlevel.keeps (State.advanceScan_keeps _ n) (by decide)

end Level

/-! ## Sensor fault (R61, R76, R104) -/

/-- R104: the pressure facts cease, at a station with a pressure watch. -/
def State.pressureLost (s : State) : State := if s.pressureRole then s.ceasePressure else s

theorem State.pressureLost_keeps (s : State) :
    Keeps [.pressure, .leak, .timers, .alarms, .reports] s s.pressureLost := s.ceasePressure_keeps.iteSelf

/-- SENSOR handed, behind the pressure facts that cease. -/
def State.sensorHanded (s : State) (n : Ch) : State := s.pressureLost.handCause .sensor (some n.num)

theorem State.sensorHanded_keeps (s : State) (n : Ch) : Keeps leakParts s (s.sensorHanded n) :=
  (s.pressureLost_keeps.mono (by decide)).trans ((State.handCause_keeps _ _ _).mono (by decide))

theorem State.handFault_eq (s : State) (n : Ch) :
    s.handFault n = if (s.sensorHanded n).tankUsed n then (s.sensorHanded n).tankFault n else s.sensorHanded n := rfl

/-- What follows SENSOR touches the tanks alone. -/
theorem State.handFault_from (s : State) (n : Ch) : Keeps [.tanks] (s.sensorHanded n) (s.handFault n) := by
  rw [s.handFault_eq]
  exact (State.tankFault_keeps _ n).iteSelf

theorem State.handFault_level (h : s.tankUsed n = true) :
    HasLevel n (((s.sensorHanded n).ow.tanks.get n).level, false) (s.handFault n) := by
  rw [s.handFault_eq, if_pos (((s.sensorHanded_keeps n).tankUsed (by decide) n).trans h)]
  exact State.tankFault_level _ n

/-- R118: at fault entry a tank in use loses its valid level. -/
theorem State.fault_level {c : ScanChannel} (hu : s.tankUsed n = true) :
    ((((s.readingTaken n (c, .faultBegins)).advanceScan n).ow.tanks.get n).levelValid) = false := by
  have hrole : ((s.readAt n c).handFault n).hasRole .tw = true :=
    ((State.handFault_keeps _ n).hasRole (by decide) _).trans (State.tw_of_tankUsed hu)
  have hlevel := (State.handFault_level (s := s.readAt n c) hu).keeps (State.watch_keeps _) (by decide)
  rw [← State.evaluate_tw hrole] at hlevel
  exact congrArg Prod.snd (hlevel.keeps (State.advanceScan_keeps _ n) (by decide))

theorem State.readingTaken_fault (s : State) (n : Ch) (c : ScanChannel) :
    s.readingTaken n (c, .faultBegins) = ((s.readAt n c).handFault n).watch.puEval := rfl

/-- R61, R104: SENSOR enabled, in an active phase. -/
theorem State.sensorHanded_latches (hr : s.running = true) (hp : s.pc.phase.active = true)
    (hm : s.tu.mask.sensor = true) (hl : s.hasLatched .sensor = false) :
    (s.sensorHanded n).pc.phase = .tripped ∧ ⟨.sensor, some n.num⟩ ∈ (s.sensorHanded n).tu.latched := by
  have hk := s.pressureLost_keeps
  obtain ⟨hphase, -, -⟩ := hk.part .phase (by decide)
  obtain ⟨-, hlatched, -⟩ := hk.part .tripRecord (by decide)
  have hmask : s.pressureLost.tu.mask = s.tu.mask := hk.part .profile (by decide)
  have hlatch : s.sensorHanded n = s.pressureLost.latch .sensor (some n.num) :=
    State.handCause_latches (c := .sensor) _ ((hk.running (by decide)).trans hr) (by rw [hphase]; exact hp)
      (by rw [hmask]; exact hm)
  have hnew : s.pressureLost.hasLatched .sensor = false := by
    rw [State.hasLatched, hlatched]
    exact hl
  obtain ⟨htripped, hprefix, -⟩ := State.latch_new (some n.num) hnew
  rw [hlatch]
  exact ⟨htripped, hprefix.subset (by simp)⟩

/-- R104: fault entry trips the station, where SENSOR latches. -/
theorem State.fault_trips {c : ScanChannel} (hr : s.running = true) (hp : s.pc.phase.active = true)
    (hm : s.tu.mask.sensor = true) (hl : s.hasLatched .sensor = false) :
    ((s.readingTaken n (c, .faultBegins)).advanceScan n).pc.phase = .tripped
      ∧ ⟨.sensor, some n.num⟩ ∈ ((s.readingTaken n (c, .faultBegins)).advanceScan n).tu.latched := by
  obtain ⟨htripped, hlatched⟩ := State.sensorHanded_latches (s := s.readAt n c) (n := n) hr hp hm hl
  have hk := (s.readAt n c).handFault_from n
  have hphase : ((s.readAt n c).handFault n).pc.phase = .tripped := (hk.part .phase (by decide)).1.trans htripped
  obtain ⟨heval, hstays⟩ := State.evaluate_tripped hphase
  have hscan := (s.readingTaken n (c, .faultBegins)).advanceScan_keeps n
  rw [s.readingTaken_fault] at hscan ⊢
  refine ⟨(hscan.part .phase (by decide)).1.trans hstays, ?_⟩
  rw [(hscan.part .tripRecord (by decide)).2.1, (heval.part .tripRecord (by decide)).2.1,
    (hk.part .tripRecord (by decide)).2.1]
  exact hlatched

/-! ## The SENSOR alarm -/

theorem State.sweepAlarms_set (s : State) (l : List AlarmKey) :
    (s.sweepAlarms l).an.set = (alarmSweep s.alarmCondition l s.an.set).1 := rfl

/-- R75: a sweep leaves the entries of the alarms it does not come to. -/
theorem alarmEntry_sweep_ne {cond : AlarmKey → Bool} {k : AlarmKey} {l : List AlarmKey} (hk : k ∉ l)
    (set : List AlarmEntry) : alarmEntry (alarmSweep cond l set).1 k = alarmEntry set k := by
  induction l generalizing set with
  | nil => rfl
  | cons j l ih =>
    obtain ⟨hj, hl⟩ := not_or.1 (mt List.mem_cons.2 hk)
    exact (ih hl _).trans (alarmEntry_take_ne (Ne.symm hj) _)

/-- The pressure facts that cease leave the SENSOR alarms. -/
theorem State.pressureLost_sensorAlarm (s : State) (n : Ch) :
    alarmEntry s.pressureLost.an.set (.sensor n) = alarmEntry s.an.set (.sensor n) := by
  unfold State.pressureLost
  split
  · exact alarmEntry_sweep_ne (by simp) _
  · rfl

/-- R76: the SENSOR alarm's condition as the levels are watched. -/
theorem State.leveled_sensor (s : State) (n : Ch) :
    s.leveled.alarmCondition (.sensor n) = s.alarmCondition (.sensor n) ∧ .sensor n ∈ s.leveled.alarmKeys := by
  have hk : Keeps [.timers, .flags, .frames] s s.leveled :=
    (s.watchTimers_keeps.mono (by decide)).trans (s.leveled_keeps.mono (by decide))
  have hchans : s.leveled.hw.chans = s.hw.chans := hk.part .readings (by decide)
  have hmask : s.leveled.tu.mask = s.tu.mask := hk.part .profile (by decide)
  refine ⟨?_, by simp [State.alarmKeys, Ch.mem_all]⟩
  simp only [State.alarmCondition, hk.running (by decide), hchans, hmask, (hk.part .phase (by decide)).1]

/-- Outside the active phases PC's evaluation confirms a step at the most. -/
theorem State.puEval_inactive_keeps (h : s.pc.phase.active = false) :
    Keeps [.phase] s s.puEval ∧ s.puEval.pc.phase = s.pc.phase := by
  have hn : NoStepDue s := .inr (.inl (by cases hp : s.pc.phase <;> simp_all [Phase.active]))
  obtain ⟨hk, hphase, -⟩ := State.puEval_noStep_keeps hn
  exact ⟨hk, hphase⟩

/-- R76: outside the active phases fault entry latches nothing, and raises the SENSOR alarm of an enabled channel. -/
theorem State.fault_alarm {c : ScanChannel} (hr : s.running = true) (he : c.enabled = true) (hf : c.fault = true)
    (hp : s.pc.phase.active = false) (ha : alarmEntry s.an.set (.sensor n) = none) :
    ((s.readingTaken n (c, .faultBegins)).advanceScan n).pc.phase = s.pc.phase
      ∧ ((s.readingTaken n (c, .faultBegins)).advanceScan n).tu.latched = s.tu.latched
      ∧ ⟨.sensor n, .activeNew⟩ ∈ ((s.readingTaken n (c, .faultBegins)).advanceScan n).an.set := by
  have hlost := (s.readAt n c).pressureLost_keeps
  have hsensor : (s.readAt n c).sensorHanded n = (s.readAt n c).pressureLost :=
    State.handCause_unlisted (c := .sensor) _ (by rw [(hlost.part .phase (by decide)).1]; exact hp)
  have hfrom := hsensor ▸ (s.readAt n c).handFault_from n
  have hk := (hlost.mono (by decide)).trans (hfrom.mono (by decide : ∀ p ∈ _, p ∈
    [Part.tanks, .pressure, .leak, .timers, .alarms, .reports]))
  obtain ⟨u, hu⟩ : ∃ u, u = (s.readAt n c).handFault n := ⟨_, rfl⟩
  rw [← hu] at hfrom hk
  have hphase : u.pc.phase = s.pc.phase := (hk.part .phase (by decide)).1
  have hchan : u.hw.chans.get n = c := by
    rw [show u.hw.chans = _ from hk.part .readings (by decide)]
    exact Quad.get_set_self _ n c
  have hcond : u.alarmCondition (.sensor n) = true := by
    have hrun : u.running = true := (hk.running (by decide)).trans hr
    simp [State.alarmCondition, hrun, hchan, he, hf, hphase, hp]
  have habsent : alarmEntry u.an.set (.sensor n) = none := by
    rw [show u.an = _ from hfrom.part .alarms (by decide), State.pressureLost_sensorAlarm]
    exact ha
  obtain ⟨hlevel, hkey⟩ := u.leveled_sensor n
  have hraised := State.raised_mem (State.watch_raises hkey (hlevel.trans hcond) (.inl habsent))
  have hwatch := u.watch_keeps
  have hwphase : u.watch.pc.phase = s.pc.phase := (hwatch.part .phase (by decide)).1.trans hphase
  obtain ⟨heval, hstays⟩ := State.puEval_inactive_keeps (s := u.watch) (by rw [hwphase]; exact hp)
  have hscan := u.watch.puEval.advanceScan_keeps n
  rw [s.readingTaken_fault, ← hu]
  refine ⟨(hscan.part .phase (by decide)).1.trans (hstays.trans hwphase), ?_, ?_⟩
  · rw [(hscan.part .tripRecord (by decide)).2.1, (heval.part .tripRecord (by decide)).2.1,
      (hwatch.part .tripRecord (by decide)).2.1, (hk.part .tripRecord (by decide)).2.1]
    rfl
  · rw [show (u.watch.puEval.advanceScan n).an = _ from hscan.part .alarms (by decide),
      show u.watch.puEval.an = _ from heval.part .alarms (by decide)]
    exact hraised

end Sys2Proof.Machine

open Sys2Proof Sys2Proof.Machine

/-- Settles O51: the table of R103 channel by channel, what each reading hands on, and where the set goes next. -/
theorem readingsCompleted : Obligations.ReadingsCompleted := by
  refine ⟨fun s n raw c bad v hl hs hc hbad hv => ?reading, fun s hl hs => ⟨fun n he hlow => ?first, fun hoff => ?none⟩⟩
  case first =>
    exact ⟨_, execScanSetStart_waiting hl hs, by rw [HoseWatch.startSet_first he hlow],
      by rw [HoseWatch.startSet_first he hlow]; rfl, s.startSet_keeps.frame⟩
  case none => rw [execScanSetStart_waiting hl hs, HoseWatch.startSet_none hoff]
  case reading =>
    have hvalue : engineering raw.toNat c.span (s.hasRole .tw) = v := hv.symm
    rw [← badReading_eq] at hbad
    refine ⟨_, execScanReading_reads hl hs, ?_⟩
    rw [State.reading_chans, Quad.get_set_self, ← hc]
    refine ⟨ScanChannel.read_lastRaw _ _ _, fun hf hb => ?_, fun hf hb hn => ?_, fun hf hb hn => ?_,
      fun hf hb hn => ?_, fun hf hb hn => ?_, fun hf hb => ?_, fun m hm => Quad.get_set_of_ne _ hm _,
      fun m he hm hgap => State.reading_next _ he hm hgap, fun hrest ht => State.reading_last _ hrest ht,
      s.reading_frame n _⟩
    · rw [ScanChannel.read_good hf (hbad ▸ hb), hvalue]
      refine ⟨rfl, fun hu hp => ?_⟩
      exact Prod.mk.inj (State.reading_level v hu hp)
    · rw [ScanChannel.read_bad hf (hbad ▸ hb) hn]
    · rw [ScanChannel.read_faultBegins hf (hbad ▸ hb) hn]
      exact ⟨rfl, State.fault_level, State.fault_trips, fun hr he hp ha => State.fault_alarm hr he rfl hp ha⟩
    · rw [ScanChannel.read_goodInFault hf (hbad ▸ hb) hn]
    · rw [ScanChannel.read_faultEnds hf (hbad ▸ hb) hn, hvalue]
    · rw [ScanChannel.read_badInFault hf (hbad ▸ hb)]
end

section
/-! SUPPORT. `PressureStays`: with no valid pressure no movement opens an allowance; and what an automatic step of PU
leaves. -/

namespace Sys2Proof.Machine

/-! ## The pressure watch without a pressure (R109) -/

/-- Without a valid pressure before, there is none after, and the pressure watch is as it was. -/
def PressureStays (s t : State) : Prop := s.pressure = none → t.pressure = none ∧ Part.pressure.same s t

variable {s t u : State}

theorem PressureStays.refl (s : State) : PressureStays s s := fun h => ⟨h, rfl, rfl, rfl, rfl, rfl⟩

theorem PressureStays.trans (h : PressureStays s t) (k : PressureStays t u) : PressureStays s u := fun hs => by
  obtain ⟨ht, hst⟩ := h hs
  obtain ⟨hu, htu⟩ := k ht
  exact ⟨hu, Part.same_trans hst htu⟩

theorem PressureStays.ite {c : Prop} [Decidable c] (h : PressureStays s t) (k : PressureStays s u) :
    PressureStays s (if c then t else u) := by
  split
  · exact h
  · exact k

theorem PressureStays.iteSelf {c : Prop} [Decidable c] (h : PressureStays s t) :
    PressureStays s (if c then t else s) := h.ite (.refl s)

theorem PressureStays.foldl {α : Type} {f : State → α → State} (h : ∀ s a, PressureStays s (f s a)) (l : List α)
    (s : State) : PressureStays s (l.foldl f s) := by
  induction l generalizing s with
  | nil => exact .refl s
  | cons a l ih => exact (h s a).trans (ih (f s a))

/-- A change outside the Hose Watch. -/
theorem PressureStays.of_hw (h : t.hw = s.hw) : PressureStays s t := fun hs =>
  ⟨by rw [State.pressure, h]; exact hs, by simp only [Part.same, h, and_self]⟩

theorem PressureStays.of_keeps {T : List Part} (k : Keeps T s t)
    (hT : decide (Part.readings ∉ T ∧ Part.pressure ∉ T) = true) : PressureStays s t := fun hs => by
  obtain ⟨hreadings, hpressure⟩ := of_decide_eq_true hT
  have hchans : t.hw.chans = s.hw.chans := k.frame .readings hreadings
  exact ⟨by rw [State.pressure, hchans]; exact hs, k.frame .pressure hpressure⟩

/-- R109: a movement opens an allowance at a valid pressure alone. -/
theorem State.movementIf_unread (b : Bool) (h : s.pressure = none) : s.movementIf b = s := by
  have hopen : s.hw.openAllowance = s.hw := by
    have hvalid : s.hw.chans.n1.valid = none := h
    simp [HoseWatch.openAllowance, hvalid]
  simp [State.movementIf, State.movement, hopen]

theorem State.movementIf_stays (s : State) (b : Bool) : PressureStays s (s.movementIf b) := fun h => by
  rw [State.movementIf_unread b h]
  exact PressureStays.refl s h

theorem State.putChannel_stays (s : State) (n : Ch) (c : Channel) : PressureStays s (s.putChannel n c) :=
  (PressureStays.of_hw (t := State.askStatusIf { s with vp := { s.vp with channels := s.vp.channels.set n c } } _)
    (by simp)).trans (State.movementIf_stays _ _)

theorem State.followAll_stays (s : State) : PressureStays s s.followAll :=
  (PressureStays.foldl (fun u n => (u.putChannel_stays n _).iteSelf) _ s).iteSelf

theorem State.putHoldOff_stays (s : State) (h : HoldOff) (x : Timer) :
    PressureStays s { s with vp := { s.vp with holdOff := h, holdOffTimer := x } } := .of_hw rfl

theorem State.releaseAll_stays (s : State) (r : ReleaseReason) : PressureStays s (s.releaseAll r) := by
  exact ((s.putHoldOff_stays .released .stopped).trans (.foldl (fun u n => u.putChannel_stays n _) _ _)).trans
    (.of_hw rfl)

theorem State.leaveHoldOff_stays (s : State) : PressureStays s s.leaveHoldOff :=
  (s.releaseAll_stays .leaving).iteSelf.trans (State.putHoldOff_stays _ _ _)

theorem State.releaseIfStopped_stays (s : State) : PressureStays s s.releaseIfStopped :=
  (s.releaseAll_stays .pumpStopped).iteSelf

theorem State.pendAll_stays (s : State) : PressureStays s s.pendAll :=
  ((PressureStays.foldl (fun u n => u.putChannel_stays n _) _ s).trans (State.putHoldOff_stays _ _ _)).trans
    (State.releaseIfStopped_stays _)

theorem State.putPump_stays (s : State) (v : ValvePump) : PressureStays s (s.putPump v) :=
  .of_hw (by simp [State.putPump])

theorem State.startPump_stays (s : State) : PressureStays s s.startPump :=
  (s.putPump_stays _).trans (State.movementIf_stays _ _)

theorem State.stopPump_stays (s : State) : PressureStays s s.stopPump :=
  (s.putPump_stays _).trans (State.movementIf_stays _ _)

theorem State.setExternalEnd_stays (s : State) : PressureStays s s.setExternalEnd :=
  .of_keeps s.setExternalEnd_keeps (by decide)

/-! ## Phase changes -/

theorem State.leavePhase_stays (s : State) (old : Phase) : PressureStays s (s.leavePhase old) := by
  have hmeter : PressureStays s { s with mr := s.mr.changePhase old s.pc.phase } := .of_hw rfl
  have hleft : PressureStays s (if old = .tripped ∧ s.pc.phase ≠ .tripped
      then State.leaveHoldOff { s with mr := s.mr.changePhase old s.pc.phase }
      else { s with mr := s.mr.changePhase old s.pc.phase }) :=
    .ite (hmeter.trans (State.leaveHoldOff_stays _)) hmeter
  exact .ite hleft (hleft.trans (.of_keeps (State.endClaim_keeps _) (by decide)))

theorem State.tripField_stays (s : State) : PressureStays s s.tripField :=
  .ite s.stopPump_stays s.pendAll_stays.iteSelf

theorem State.tripRecord_stays (s : State) (old : Phase) : PressureStays s (s.tripRecord old) := by
  have hmark : PressureStays s s.markTrip := .of_keeps s.markTrip_keeps (by decide)
  exact .ite (hmark.trans (.of_keeps (State.handEndKind_keeps _ _) (by decide))) hmark

/-- The entry actions, phase by phase. -/
theorem State.entryActions_stays (s : State) (old : Phase) (n r : Nat) : PressureStays s (s.entryActions old n r) := by
  have hclear : PressureStays s s.clearRecord := .of_keeps s.clearRecord_keeps (by decide)
  cases hp : s.pc.phase with
  | idle =>
    rw [State.entryActions_idle hp]
    exact .ite (hclear.trans (.of_keeps (State.excludeTanks_keeps _) (by decide))) hclear
  | lineup =>
    rw [State.entryActions_lineup hp]
    exact .of_keeps (s.openRecord_keeps n r) (by decide)
  | opening =>
    rw [State.entryActions_opening hp]
    have htanks : PressureStays s s.openTanks :=
      (PressureStays.of_keeps s.beginReceipt_keeps (by decide)).trans
        (.foldl (fun u n => u.putChannel_stays n _) _ _)
    exact .ite (.of_keeps s.startCounting_keeps (by decide)) htanks.iteSelf
  | starting =>
    rw [State.entryActions_starting hp]
    have hstart : PressureStays s s.enterStarting :=
      (PressureStays.of_hw (t := { s with mr := s.mr.enterStarting }) rfl).trans (State.startPump_stays _)
    exact hstart.iteSelf
  | pumping =>
    rw [State.entryActions_pumping hp]
    exact (PressureStays.of_keeps (s.setRateLow_keeps _) (by decide)).iteSelf
  | topping =>
    rw [State.entryActions_topping hp]
    exact (PressureStays.of_keeps (s.setRateLow_keeps _) (by decide)).iteSelf
  | paused =>
    rw [State.entryActions_paused hp]
    exact s.stopPump_stays.iteSelf
  | stopping =>
    rw [State.entryActions_stopping hp]
    exact (PressureStays.ite (s.stopPump_stays.trans (State.setExternalEnd_stays _)) s.stopPump_stays).iteSelf
  | closing =>
    rw [State.entryActions_closing hp]
    exact s.setExternalEnd_stays.iteSelf.trans (State.putChannel_stays _ _ _).iteSelf
  | ended =>
    rw [State.entryActions_ended hp]
    exact .of_keeps s.forceSample_keeps (by decide)
  | tripped =>
    rw [State.entryActions_tripped hp]
    exact (s.tripField_stays.trans (State.tripRecord_stays _ old)).trans (State.setExternalEnd_stays _).iteSelf

theorem State.changePhase_stays (s : State) (p : Phase) (n r : Nat) : PressureStays s (s.changePhase p n r) := by
  have hset : PressureStays s (s.setPhase p) := .of_hw rfl
  exact ((hset.trans (State.leavePhase_stays _ _)).trans (State.entryActions_stays _ _ n r)).trans
    (.of_keeps (State.changePhase_from s p n r) (by decide))

/-! ## A latch -/

theorem State.joinSeparation_stays (s : State) : PressureStays s s.joinSeparation :=
  .of_keeps s.joinSeparation_keeps (by decide)

theorem State.afterTrip_stays (s : State) : PressureStays s s.afterTrip := by
  have hfollow := s.followAll_stays
  have hjoin : PressureStays s ((s.followAll.closeChannel .n1).joinSeparation) :=
    (hfollow.trans (State.putChannel_stays _ _ _)).trans (State.joinSeparation_stays _)
  exact (PressureStays.ite hjoin hfollow).trans (.of_keeps (State.confirm_keeps _) (by decide))

theorem State.enterTripped_stays (s : State) : PressureStays s s.enterTripped :=
  .ite (.refl s) (s.changePhase_stays _ _ _)

theorem State.latch_stays (s : State) (c : Cause) (d : Option Nat) : PressureStays s (s.latch c d) := by
  have hannounced := ((PressureStays.of_keeps (s.addCause_keeps c d) (by decide)).trans
    (State.enterTripped_stays _)).trans
      (.of_keeps (State.announce_keeps _ c d s.tu.latched.isEmpty s.tu.firstOut.isNone) (by decide))
  have hwatch (v : State) : PressureStays v v.watch := .of_keeps v.watch_keeps (by decide)
  exact .ite (.refl s) ((PressureStays.ite hannounced (hannounced.trans (State.afterTrip_stays _))).trans (hwatch _))

/-! ## The automatic steps of PU, step by step (R7) -/

/-- A property that a confirmation and an automatic step keep is kept by PC's steps. -/
theorem State.puSteps_induct {P : State → Prop} (hconfirm : ∀ v : State, P v → P v.confirm)
    (hstep : ∀ (v : State) (p : Phase) (k : EndKind), v.runningPu = true → Due v p k → P v → P (v.takeTrigger (p, k)))
    (n : Nat) (hpu : s.runningPu = true) (hs : P s) : P (State.puSteps n s) := by
  induction n generalizing s with
  | zero => exact hs
  | succ n ih =>
    rcases s.puSteps_cases n with ⟨-, he⟩ | ⟨-, -, he⟩ | ⟨hu, p, k, hd, he⟩ <;> rw [he]
    · exact hconfirm s hs
    · exact hconfirm s hs
    · have hpuc : s.confirm.runningPu = true := (s.confirm_keeps.runningPu (by decide)).trans hpu
      have hdc : Due s.confirm p k := by
        rw [State.confirm_eq hu]
        exact (Due.congr rfl rfl rfl rfl rfl rfl rfl p k).2 hd
      exact ih (State.takeTrigger_runningPu (p, k) hpuc) (hstep _ p k hpuc hdc (hconfirm s hs))

/-- A property that a confirmation and an automatic step keep is kept by PC's evaluation. -/
theorem State.puEval_induct {P : State → Prop} (hconfirm : ∀ v : State, P v → P v.confirm)
    (hstep : ∀ (v : State) (p : Phase) (k : EndKind), v.runningPu = true → Due v p k → P v → P (v.takeTrigger (p, k)))
    (hs : P s) : P s.puEval := by
  cases hpu : s.runningPu with
  | true =>
    rw [State.puEval_pu hpu]
    exact State.puSteps_induct hconfirm hstep 8 hpu hs
  | false =>
    rw [State.puEval_follower hpu]
    exact hs

section Step

variable {p : Phase} {k : EndKind}

/-- R7: an automatic step is a phase change, and hands no cause. -/
theorem State.takeTrigger_from (hpu : s.runningPu = true) (hd : Due s p k) :
    Keeps (watchParts ++ [.scan]) ((s.handEndKind k).changePhase p 0 0) (s.takeTrigger (p, k)) := by
  have hk := s.handEndKind_keeps k
  have hphase := (hk.part .phase (by decide)).1
  have hrole := (s.handEndKind k).runningPu_iff.1 ((hk.runningPu (by decide)).trans hpu) |>.2
  exact State.stepTo_pu 0 0 hrole (fun hp => absurd hp hd.not_opening)
    fun ha => absurd hd.active (by rw [hphase] at ha; simp [ha])

/-- The parts an automatic step may touch: those of a cascade, but the trip record. -/
def stepParts : List Part := cascadeParts.erase .tripRecord

theorem State.takeTrigger_stepParts (hpu : s.runningPu = true) (hd : Due s p k) :
    Keeps stepParts s (s.takeTrigger (p, k)) :=
  (((s.handEndKind_keeps k).mono (by decide)).trans ((State.changePhase_keeps _ p 0 0).mono (by decide))).trans
    ((State.takeTrigger_from hpu hd).mono (by decide))

/-- R7: PC's evaluation latches nothing. -/
theorem State.puEval_stepParts (s : State) : Keeps stepParts s s.puEval :=
  State.puEval_induct (P := fun v => Keeps stepParts s v) (fun v h => h.trans (v.confirm_keeps.mono (by decide)))
    (fun _ _ _ hpu hd h => h.trans (State.takeTrigger_stepParts hpu hd)) (.refl _ s)

theorem State.takeTrigger_stays (hpu : s.runningPu = true) (hd : Due s p k) :
    PressureStays s (s.takeTrigger (p, k)) :=
  ((PressureStays.of_keeps (s.handEndKind_keeps k) (by decide)).trans (State.changePhase_stays _ p 0 0)).trans
    (.of_keeps (State.takeTrigger_from hpu hd) (by decide))

end Step

/-! ## A stopped pump in STOPPING -/

/-- A phase change leaves the pump but at PU, and there but in the phases that drive or stop it. -/
theorem State.changePhase_pump {p : Phase} (n r : Nat)
    (h : s.hasRole .pu = true → p.pumpOn = false ∧ p.stopsPump = false) :
    Part.pump.same s (s.changePhase p n r) := by
  have hentry := (s.left p).entryActions_noPump s.pc.phase n r (by rw [s.left_hasRole, s.left_phase]; exact h)
  have hleft : Part.pump.same s (s.left p) := (s.left_from p).part .pump (by decide)
  exact Part.same_trans (Part.same_trans hleft (hentry.part .pump (by decide)))
    ((s.changePhase_from p n r).part .pump (by decide))

/-- The pump is STOPPED, its stop timer too, and the phase is STOPPING or one that follows it. -/
def StoppedWell (s : State) : Prop :=
  s.vp.pump = .stopped ∧ s.vp.stopTimer = ⟨false, 0⟩
    ∧ (s.pc.phase = .stopping ∨ s.pc.phase = .closing ∨ s.pc.phase = .ended)

theorem StoppedWell.keeps {T : List Part} (h : StoppedWell s) (k : Keeps T s t)
    (hT : decide (Part.pump ∉ T) = true) (hphase : t.pc.phase = s.pc.phase) : StoppedWell t := by
  obtain ⟨hpump, -, htimer, -, -⟩ := k.part .pump hT
  unfold StoppedWell
  rw [hpump, htimer, hphase]
  exact h

/-- R7: from STOPPING the steps lead to CLOSING and ENDED, which leave the pump. -/
theorem StoppedWell.takeTrigger {p : Phase} {k : EndKind} (h : StoppedWell s) (hpu : s.runningPu = true)
    (hd : Due s p k) : StoppedWell (s.takeTrigger (p, k)) := by
  obtain ⟨hpump, htimer, hphase⟩ := h
  have hnext : p = .closing ∨ p = .ended := by
    have hrow := hd.step
    rcases hphase with hphase | hphase | hphase <;> rw [hphase] at hrow <;> revert hrow <;> cases p <;> decide
  have hkind := (s.handEndKind_keeps k).part .pump (by decide)
  have hchange : Part.pump.same (s.handEndKind k) ((s.handEndKind k).changePhase p 0 0) :=
    State.changePhase_pump 0 0 fun _ => by rcases hnext with rfl | rfl <;> exact ⟨rfl, rfl⟩
  obtain ⟨h1, -, h3, -, -⟩ := Part.same_trans (Part.same_trans hkind hchange)
    ((State.takeTrigger_from hpu hd).part .pump (by decide))
  refine ⟨h1.trans hpump, h3.trans htimer, .inr ?_⟩
  rw [(State.takeTrigger_pu hpu hd).1]
  exact hnext

theorem StoppedWell.puEval (h : StoppedWell s) : StoppedWell s.puEval :=
  State.puEval_induct (fun v hv => hv.keeps v.confirm_keeps (by decide) v.confirm_phase.1)
    (fun _ _ _ hpu hd hv => hv.takeTrigger hpu hd) h

end Sys2Proof.Machine
end

section
/-! SUPPORT. AN1's entry into sensor fault: the pressure facts are gone, and nothing that follows brings them back. -/

namespace Sys2Proof.Machine

variable {s t : State}

/-! ## The pressure facts gone (R104, R107, R110, R111, R113) -/

/-- AN1 in sensor fault, the count 0, no excursion, and neither the surge nor the leak condition. -/
structure PressureGone (s : State) : Prop where
  fault : s.hw.chans.n1.fault = true
  hardCount : s.hw.hardCount = 0
  excursion : s.hw.excursion = .none
  allowance : s.hw.allowance = ⟨false, 0⟩
  relax : s.hw.relax = ⟨false, 0⟩
  surgeCond : s.hw.surgeCond = false
  leakCond : s.hw.leakCond = false

theorem State.pressure_fault (h : s.hw.chans.n1.fault = true) : s.pressure = none := by
  simp [State.pressure, ScanChannel.valid, h]

theorem PressureGone.pressure (h : PressureGone s) : s.pressure = none := State.pressure_fault h.fault

theorem PressureGone.aboveThreshold (h : PressureGone s) : s.aboveThreshold = false := by
  simp [State.aboveThreshold, h.pressure]

/-- The facts stay gone where the channels and the leak condition stay, and the pressure watch stays without a pressure. -/
theorem PressureGone.stays (h : PressureGone s) (k : PressureStays s t) (hchans : t.hw.chans = s.hw.chans)
    (hleak : t.hw.leakCond = s.hw.leakCond) : PressureGone t := by
  obtain ⟨-, h1, h2, h3, h4, h5⟩ := k h.pressure
  exact ⟨by rw [hchans, h.fault], h1.trans h.hardCount, h2.trans h.excursion, h3.trans h.allowance, h4.trans h.relax,
    h5.trans h.surgeCond, hleak.trans h.leakCond⟩

theorem PressureGone.keeps {T : List Part} (h : PressureGone s) (k : Keeps T s t)
    (hT : decide (Part.readings ∉ T ∧ Part.pressure ∉ T ∧ Part.leak ∉ T) = true) : PressureGone t := by
  obtain ⟨hreadings, hpressure, hleak⟩ := of_decide_eq_true hT
  exact h.stays (.of_keeps k (decide_eq_true ⟨hreadings, hpressure⟩)) (k.frame .readings hreadings)
    (k.frame .leak hleak)

/-- Watching the levels leaves the facts of the pressure watch as they were. -/
theorem PressureGone.of_watch (h : PressureGone s.watch) : PressureGone s := by
  have hk := s.watch_keeps
  obtain ⟨h1, h2, h3, h4, h5⟩ := hk.part .pressure (by decide)
  have hchans : s.watch.hw.chans = s.hw.chans := hk.part .readings (by decide)
  have hleak : s.watch.hw.leakCond = s.hw.leakCond := hk.part .leak (by decide)
  exact ⟨hchans ▸ h.fault, h1 ▸ h.hardCount, h2 ▸ h.excursion, h3 ▸ h.allowance, h4 ▸ h.relax, h5 ▸ h.surgeCond,
    hleak ▸ h.leakCond⟩

/-- R104: the loss of the pressure takes every fact of the pressure watch and the leak condition with it. -/
theorem State.ceasePressure_gone (h : s.hw.chans.n1.fault = true) : PressureGone s.ceasePressure := by
  have hnow : State.leakNow { s with hw := s.hw.losePressure } = false := by
    have hp : State.pressure { s with hw := s.hw.losePressure } = none := State.pressure_fault h
    simp [State.leakNow, hp]
  have hlost : PressureGone (State.watchLeak { s with hw := s.hw.losePressure }) :=
    ⟨h, rfl, rfl, rfl, rfl, rfl, hnow⟩
  exact (hlost.keeps (State.watchTimers_keeps _) (by decide)).keeps (State.sweepAlarms_keeps _ _) (by decide)

/-! ## Timers and alarms (R62, R75, R76) -/

/-- An alarm, if it has an entry, is CLEAR-NEW. -/
def AlarmRests (set : List AlarmEntry) (k : AlarmKey) : Prop :=
  ∀ a, alarmEntry set k = some a → a.state = .clearNew

theorem alarmEntry_drop_same (set : List AlarmEntry) (k : AlarmKey) : alarmEntry (alarmDrop set k) k = none := by
  refine List.find?_eq_none.2 fun a ha => ?_
  simpa [alarmDrop] using (List.mem_filter.1 ha).2

/-- An entry of an alarm whose state was set. -/
theorem alarmEntry_set_state {set : List AlarmEntry} {k : AlarmKey} {st : AlarmState} {a : AlarmEntry}
    (h : alarmEntry (alarmSet set k st) k = some a) : a.state = st := by
  have hkey : a.key = k := by simpa using List.find?_some h
  obtain ⟨b, -, hb⟩ := List.mem_map.1 (List.mem_of_find?_eq_some h)
  subst hb
  by_cases hk : (b.key == k) = true
  · simp [hk]
  · rw [if_neg hk] at hkey
    exact absurd (beq_iff_eq.2 hkey) hk

/-- R75: an alarm whose condition is taken as gone rests. -/
theorem AlarmRests.take_gone (set : List AlarmEntry) (k : AlarmKey) : AlarmRests (alarmTake set k false).1 k := by
  intro a ha
  cases hs : alarmEntry set k with
  | none => simp [alarmTake, hs] at ha
  | some b =>
    cases hb : b.state with
    | activeNew =>
      simp only [alarmTake, hs, hb, Option.map_some] at ha
      exact alarmEntry_set_state ha
    | activeAcked => simp [alarmTake, hs, hb, alarmEntry_drop_same] at ha
    | clearNew =>
      simp only [alarmTake, hs, hb, Option.map_some, Option.some.injEq] at ha
      exact ha ▸ hb

/-- R75: after a sweep an alarm whose condition is gone rests, if the sweep comes to it or it rested before. -/
theorem AlarmRests.sweep {cond : AlarmKey → Bool} {k : AlarmKey} (hc : cond k = false) {l : List AlarmKey}
    {set : List AlarmEntry} (h : k ∈ l ∨ AlarmRests set k) : AlarmRests (alarmSweep cond l set).1 k := by
  induction l generalizing set with
  | nil => exact h.resolve_left List.not_mem_nil
  | cons j l ih =>
    by_cases hj : j = k
    · refine ih (.inr ?_)
      rw [hj, hc]
      exact .take_gone set k
    · refine ih (h.imp (fun hm => (List.mem_cons.1 hm).resolve_left (Ne.symm hj)) fun hr => ?_)
      unfold AlarmRests
      rwa [alarmEntry_take_ne hj]

/-- No qualification timer of SURGE or LEAK runs, and neither alarm stands active. -/
structure PressureSilent (s : State) : Prop where
  surgeTimer : s.tu.surge.timer = ⟨false, 0⟩
  leakTimer : s.tu.leak.timer = ⟨false, 0⟩
  surgeAlarm : AlarmRests s.an.set .surge
  leakAlarm : AlarmRests s.an.set .leak

theorem PressureSilent.keeps {T : List Part} (h : PressureSilent s) (k : Keeps T s t)
    (hT : decide (Part.timers ∉ T ∧ Part.alarms ∉ T) = true) : PressureSilent t := by
  obtain ⟨htimers, halarms⟩ := of_decide_eq_true hT
  obtain ⟨-, hsurge, hleak, -, -⟩ := k.frame .timers htimers
  have halarm : t.an = s.an := k.frame .alarms halarms
  exact ⟨hsurge ▸ h.surgeTimer, hleak ▸ h.leakTimer, halarm ▸ h.surgeAlarm, halarm ▸ h.leakAlarm⟩

/-- R62: without the conditions the timers stop. -/
theorem PressureGone.timers (h : PressureGone s) :
    s.watchTimers.tu.surge.timer = ⟨false, 0⟩ ∧ s.watchTimers.tu.leak.timer = ⟨false, 0⟩ := by
  simp [State.watchTimers, State.surgePresent, State.leakPresent, h.surgeCond, h.leakCond, QualTimer.take,
    QualTimer.start, Timer.stopped]

/-- R76: the SURGE and LEAK alarms have no condition. -/
theorem PressureGone.alarmCondition (h : PressureGone s) :
    s.alarmCondition .surge = false ∧ s.alarmCondition .leak = false := by
  simp [State.alarmCondition, h.aboveThreshold, h.leakCond]

/-- R62, R76: with the pressure facts gone the levels watched show nothing of SURGE and LEAK. -/
theorem PressureGone.silent (h : PressureGone s) : PressureSilent s.watch := by
  have htimers : Keeps [.flags, .frames, .alarms, .reports] s.watchTimers s.watch :=
    (s.leveled_keeps.mono (by decide)).trans ((State.watchAlarms_keeps _).mono (by decide))
  obtain ⟨-, hsurge, hleak, -, -⟩ := htimers.part .timers (by decide)
  have hleveled : PressureGone s.leveled := (h.keeps s.watchTimers_keeps (by decide)).keeps s.leveled_keeps (by decide)
  obtain ⟨csurge, cleak⟩ := hleveled.alarmCondition
  exact ⟨hsurge ▸ h.timers.1, hleak ▸ h.timers.2, .sweep csurge (.inl (by simp [State.alarmKeys])),
    .sweep cleak (.inl (by simp [State.alarmKeys]))⟩

/-- The pressure facts are gone, and nothing of SURGE and LEAK shows. -/
def PressureOut (s : State) : Prop := PressureGone s ∧ PressureSilent s

theorem PressureGone.out (h : PressureGone s) : PressureOut s.watch := ⟨h.keeps s.watch_keeps (by decide), h.silent⟩

theorem PressureOut.keeps {T : List Part} (h : PressureOut s) (k : Keeps T s t)
    (hT : decide (Part.readings ∉ T ∧ Part.pressure ∉ T ∧ Part.leak ∉ T ∧ Part.timers ∉ T ∧ Part.alarms ∉ T) = true) :
    PressureOut t := by
  obtain ⟨h1, h2, h3, h4, h5⟩ := of_decide_eq_true hT
  exact ⟨h.1.keeps k (decide_eq_true ⟨h1, h2, h3⟩), h.2.keeps k (decide_eq_true ⟨h4, h5⟩)⟩

/-- An automatic step ends with the levels watched. -/
theorem PressureOut.takeTrigger {p : Phase} {k : EndKind} (h : PressureOut s) (hpu : s.runningPu = true)
    (hd : Due s p k) : PressureOut (s.takeTrigger (p, k)) := by
  have hk := State.takeTrigger_stepParts hpu hd
  have hgone : PressureGone (s.takeTrigger (p, k)) :=
    h.1.stays (State.takeTrigger_stays hpu hd) (hk.part .readings (by decide)) (hk.part .leak (by decide))
  exact ⟨hgone, (PressureGone.of_watch hgone).silent⟩

theorem PressureOut.puEval (h : PressureOut s) : PressureOut s.puEval :=
  State.puEval_induct (fun v hv => hv.keeps v.confirm_keeps (by decide)) (fun _ _ _ hpu hd hv => hv.takeTrigger hpu hd) h

/-! ## What SENSOR latches -/

theorem Keeps.hasLatched {T : List Part} (k : Keeps T s t) (hT : decide (Part.tripRecord ∉ T) = true) (x : Cause) :
    t.hasLatched x = s.hasLatched x := by
  obtain ⟨-, hlatched, -⟩ := k.part .tripRecord hT
  simp only [State.hasLatched, hlatched]

theorem State.addCause_hasLatched {c x : Cause} (d : Option Nat) (hx : x ≠ c) :
    (s.addCause c d).hasLatched x = s.hasLatched x := by
  simp [State.hasLatched, (s.addCause_trip c d).1, Ne.symm hx]

theorem State.announce_hasLatched (s : State) (c x : Cause) (d : Option Nat) (b f : Bool) :
    (s.announce c d b f).hasLatched x = s.hasLatched x := (s.announce_keeps c d b f).hasLatched (by decide) x

theorem State.joinSeparation_hasLatched {x : Cause} (hx : x ≠ .separation) :
    s.joinSeparation.hasLatched x = s.hasLatched x := by
  unfold State.joinSeparation
  split
  · rfl
  · rw [State.announce_hasLatched, State.addCause_hasLatched none hx]

theorem State.afterTrip_hasLatched {x : Cause} (hx : x ≠ .separation) : s.afterTrip.hasLatched x = s.hasLatched x := by
  have hfollow := s.followAll_keeps.hasLatched (by decide) x
  have hclose (v : State) := (v.closeChannel_keeps .n1).hasLatched (by decide) x
  unfold State.afterTrip
  rw [(State.confirm_keeps _).hasLatched (by decide)]
  split
  · rw [State.joinSeparation_hasLatched hx, hclose, hfollow]
  · exact hfollow

/-- R65, R66: a latch adds its cause and, where it joins, SEPARATION. -/
theorem State.latch_hasLatched {c x : Cause} (d : Option Nat) (hc : x ≠ c) (hx : x ≠ .separation) :
    (s.latch c d).hasLatched x = s.hasLatched x := by
  have hentered : ((s.addCause c d).enterTripped.announce c d s.tu.latched.isEmpty s.tu.firstOut.isNone).hasLatched x
      = s.hasLatched x := by
    rw [State.announce_hasLatched, (State.enterTripped_keeps _).hasLatched (by decide), State.addCause_hasLatched d hc]
  unfold State.latch
  split
  · rfl
  · rw [(State.watch_keeps _).hasLatched (by decide)]
    split
    · exact hentered
    · rw [State.afterTrip_hasLatched hx, hentered]

/-- R61: a cause without an alarm of its own latches, or nothing comes of it. -/
theorem State.handCause_cases {c : Cause} (d : Option Nat) (hc : s.alarmInstead c = s) :
    s.handCause c d = s ∨ s.handCause c d = s.latch c d := by
  unfold State.handCause State.hand
  split
  · split
    · exact .inr rfl
    · exact .inl hc
  · exact .inl rfl

/-! ## AN1's fault entry -/

/-- R104: AN1's fault entry handed on leaves the pressure facts gone, and latches SENSOR alone beside what joins. -/
theorem State.handFault_pressure (hp : s.pressureRole = true) (hf : s.hw.chans.n1.fault = true) :
    PressureGone (s.handFault .n1)
      ∧ ∀ x, x ≠ .sensor → x ≠ .separation → (s.handFault .n1).hasLatched x = s.hasLatched x := by
  have hgone := State.ceasePressure_gone hf
  have hlost : s.pressureLost = s.ceasePressure := if_pos hp
  have hlatched (x : Cause) := s.ceasePressure_keeps.hasLatched (by decide) x
  have hfrom := s.handFault_from .n1
  have hsensor : PressureGone (s.sensorHanded .n1)
      ∧ ∀ x, x ≠ .sensor → x ≠ .separation → (s.sensorHanded .n1).hasLatched x = s.hasLatched x := by
    unfold State.sensorHanded
    rw [hlost]
    rcases State.handCause_cases (s := s.ceasePressure) (c := .sensor) (some Ch.n1.num) rfl with h | h <;> rw [h]
    · exact ⟨hgone, fun x _ _ => hlatched x⟩
    · have hk := s.ceasePressure.latch_keeps .sensor (some Ch.n1.num)
      exact ⟨hgone.stays (State.latch_stays _ _ _) (hk.part .readings (by decide)) (hk.part .leak (by decide)),
        fun x hx hs => (State.latch_hasLatched _ hx hs).trans (hlatched x)⟩
  exact ⟨hsensor.1.keeps hfrom (by decide), fun x hx hs => (hfrom.hasLatched (by decide) x).trans (hsensor.2 x hx hs)⟩

/-- R104: after the reading that puts AN1 into fault the pressure facts are gone, and only SENSOR and SEPARATION can have
latched. -/
theorem State.fault_pressure {c : ScanChannel} (hp : s.pressureRole = true) (hf : c.fault = true) :
    PressureOut ((s.readingTaken .n1 (c, .faultBegins)).advanceScan .n1)
      ∧ ∀ x, x ≠ .sensor → x ≠ .separation →
        ((s.readingTaken .n1 (c, .faultBegins)).advanceScan .n1).hasLatched x = s.hasLatched x := by
  obtain ⟨hgone, hlatched⟩ := State.handFault_pressure (s := s.readAt .n1 c) hp hf
  have hscan := (s.readingTaken .n1 (c, .faultBegins)).advanceScan_keeps .n1
  rw [s.readingTaken_fault] at hscan ⊢
  refine ⟨hgone.out.puEval.keeps hscan (by decide), fun x hx hs => ?_⟩
  rw [hscan.hasLatched (by decide), (State.puEval_stepParts _).hasLatched (by decide),
    (State.watch_keeps _).hasLatched (by decide), hlatched x hx hs]
  rfl

end Sys2Proof.Machine
end

section
/-! SUPPORT and the proof of O52: a good reading of the pressure, and the timers of the excursion allowance. -/

namespace Sys2Proof.Machine

variable {s : State} {v : Nat} {c : ScanChannel}

/-! ## A good reading of AN1 (R107, R110, R111, R113, R96) -/

/-- The pressure watch and the leak check of a reading. -/
def State.pressureTaken (s : State) (v : Nat) : State := State.watchLeak { s with hw := s.hw.takePressure v }

theorem State.pressureReading_eq (s : State) (v : Nat) :
    s.pressureReading v = (s.pressureTaken v).handHardLimit.proveStop := rfl

/-- A reading of AN1 handed on at a station with a pressure watch. -/
theorem State.readingTaken_pressure (c : ScanChannel) (v : Nat) (hp : s.pressureRole = true) :
    s.readingTaken .n1 (c, .value v) = ((s.readAt .n1 c).pressureReading v).watch.puEval := by
  have hon : (s.readAt .n1 c).handOn .n1 (.value v) = (s.readAt .n1 c).pressureReading v := if_pos hp
  rw [State.readingTaken, hon]

/-- The state the reading of AN1 leaves before its causes are handed and the stop proof is judged. -/
def State.pressureSeen (s : State) (c : ScanChannel) (v : Nat) : State := (s.readAt .n1 c).pressureTaken v

theorem State.pressureSeen_frame (s : State) (c : ScanChannel) (v : Nat) :
    Frame [.readings, .pressure, .leak] s (s.pressureSeen c v) := by
  intro p hp
  cases p <;> first | exact absurd (by decide) hp | simp [Part.same, State.pressureSeen, State.pressureTaken,
    State.watchLeak, State.readAt, HoseWatch.takePressure]

section Handed

variable (hp : s.pressureRole = true)
include hp

theorem State.readingTaken_seen :
    s.readingTaken .n1 (c, .value v) = ((s.pressureSeen c v).handHardLimit.proveStop).watch.puEval :=
  State.readingTaken_pressure c v hp

/-- R107: nothing but the reading itself moves the hard limit count. -/
theorem State.reading_hardCount :
    ((s.readingTaken .n1 (c, .value v)).advanceScan .n1).hw.hardCount
      = if s.hw.hardLimit < v then min 2 (s.hw.hardCount + 1) else 0 := by
  have hhard : (s.pressureSeen c v).handHardLimit.hw.hardCount = (s.pressureSeen c v).hw.hardCount :=
    (Onward.iteSelf (State.handCause_onward _ _ _)).hardCount
  rw [((State.advanceScan_keeps _ .n1).part .pressure (by decide)).1, State.readingTaken_seen hp,
    (State.puEval_onward _).hardCount, (State.watch_onward _).hardCount,
    ((State.proveStop_keeps _).part .pressure (by decide)).1, hhard]
  rfl

/-- R113: a good reading leaves the leak condition as the rule asks. -/
theorem State.reading_leakCond :
    ((s.readingTaken .n1 (c, .value v)).advanceScan .n1).hw.leakCond = true
      ↔ LeakFacts ((s.readingTaken .n1 (c, .value v)).advanceScan .n1) := by
  have hafter : Keeps cascadeParts ((s.readAt .n1 c).pressureReading v)
      ((s.readingTaken .n1 (c, .value v)).advanceScan .n1) := by
    rw [State.readingTaken_pressure c v hp]
    exact (((State.watch_keeps _).mono (by decide)).trans (State.puEval_keeps _)).trans
      ((State.advanceScan_keeps _ .n1).mono (by decide))
  have hnow := (s.reading_keeps .n1 (c, .value v)).frame.leakNow (by decide)
  have hcond : ((s.readingTaken .n1 (c, .value v)).advanceScan .n1).hw.leakCond = _ := hafter.part .leak (by decide)
  rw [← State.leakNow_iff, hnow, hcond, State.pressureReading_leakCond]

end Handed

/-! ## HARDLIMIT (R107) -/

/-- R107: at a RUNNING station HARDLIMIT handed latches, or changes nothing. -/
theorem State.handHardLimit_cases (s : State) :
    s.handHardLimit = s
      ∨ (s.hasLatched .hardlimit = false ∧ s.handHardLimit = s.latch .hardlimit none) := by
  unfold State.handHardLimit
  split
  · rcases State.handCause_cases (s := s) (c := .hardlimit) none rfl with h | h <;> rw [h]
    · exact .inl rfl
    · cases hl : s.hasLatched .hardlimit with
      | true => exact .inl (State.latch_again hl)
      | false => exact .inr ⟨rfl, rfl⟩
  · exact .inl rfl

/-- R107: with the count at 2 HARDLIMIT latches in the active phases and in TRIPPED. -/
theorem State.handHardLimit_latches (hr : s.running = true) (h2 : s.hw.hardCount = 2)
    (hphase : s.pc.phase.active = true ∨ s.pc.phase = .tripped) : s.handHardLimit = s.latch .hardlimit none := by
  have hlists : Cause.hardlimit.latchesIn s.pc.phase = true := by
    rcases hphase with h | h <;> simp [Cause.latchesIn, h]
  rw [State.handHardLimit, if_pos h2]
  exact State.handCause_latches none hr hlists rfl

/-- R107: the second reading above the hard limit trips the station. -/
theorem State.reading_hardLimit (hr : s.running = true) (hp : s.pressureRole = true) (hv : s.hw.hardLimit < v)
    (hn : 1 ≤ s.hw.hardCount) (hphase : s.pc.phase.active = true ∨ s.pc.phase = .tripped)
    (hl : s.hasLatched .hardlimit = false) :
    ((s.readingTaken .n1 (c, .value v)).advanceScan .n1).pc.phase = .tripped
      ∧ ⟨.hardlimit, none⟩ ∈ ((s.readingTaken .n1 (c, .value v)).advanceScan .n1).tu.latched := by
  have hcount : (s.pressureSeen c v).hw.hardCount = 2 := by
    have : (s.pressureSeen c v).hw.hardCount = s.hw.hardAfter v := rfl
    rw [this, HoseWatch.hardAfter, if_pos hv]
    omega
  obtain ⟨htripped, hprefix, -⟩ := State.latch_new (s := s.pressureSeen c v) none hl
  have hproof := ((s.pressureSeen c v).latch .hardlimit none).proveStop_keeps
  obtain ⟨heval, hstays⟩ := State.evaluate_tripped ((hproof.part .phase (by decide)).1.trans htripped)
  have hscan := (s.readingTaken .n1 (c, .value v)).advanceScan_keeps .n1
  rw [State.readingTaken_seen hp, State.handHardLimit_latches (s := s.pressureSeen c v) hr hcount hphase] at hscan ⊢
  refine ⟨(hscan.part .phase (by decide)).1.trans hstays, ?_⟩
  rw [(hscan.part .tripRecord (by decide)).2.1, (heval.part .tripRecord (by decide)).2.1,
    (hproof.part .tripRecord (by decide)).2.1]
  exact hprefix.subset (by simp)

/-! ## The stop proof (R96) -/

/-- The state with the pump as the reading leaves it: STOPPED where the stop is proved. -/
def State.pumpAfter (s : State) (v : Nat) : State :=
  if s.vp.pump = .stopping ∧ s.inputs.pumpFb = false ∧ v < s.hw.settleLevel then
    { s with vp := { s.vp with pump := .stopped } }
  else s

theorem State.pressureSeen_pressure (hf : c.fault = false) (hval : c.value = some v) :
    (s.pressureSeen c v).pressure = some v := by
  have hn1 : (s.pressureSeen c v).hw.chans.n1 = c := rfl
  simp [State.pressure, hn1, ScanChannel.valid, hf, hval]

/-- R7: what PC evaluates after the reading is the state with the pump as the reading leaves it. -/
theorem State.proveStop_noStep (hf : c.fault = false) (hval : c.value = some v)
    (h : s.valveRole = true ∨ NoStepDue (s.pumpAfter v)) : NoStepDue (s.pressureSeen c v).proveStop := by
  have hproof := (s.pressureSeen c v).proveStop_keeps
  cases hpu : s.runningPu with
  | false => exact .inl ((hproof.runningPu (by decide)).trans hpu)
  | true =>
    have hrole := (s.runningPu_iff.1 hpu).2
    have hn : NoStepDue (s.pumpAfter v) :=
      h.resolve_left fun hv => Bool.noConfusion ((State.valveRole_pu hrole).symm.trans hv)
    unfold State.pumpAfter at hn
    split at hn
    · rename_i hproved
      obtain ⟨hp, hfb, hs⟩ := hproved
      have hstop : (s.pressureSeen c v).pumpProved = true :=
        State.pumpProved_of (s := s.pressureSeen c v) hrole hp hfb (State.pressureSeen_pressure hf hval) hs
      exact State.proveStop_noStepDue hstop hn
    · rename_i hunproved
      have hstop : (s.pressureSeen c v).pumpProved = false := by
        by_contra hstop
        simp only [Bool.not_eq_false, State.pumpProved, State.settleFact, State.pressureSeen_pressure hf hval,
          Option.any_some, Bool.and_eq_true, decide_eq_true_eq, beq_iff_eq, Bool.not_eq_true'] at hstop
        obtain ⟨⟨⟨-, hp⟩, hfb⟩, -, hs⟩ := hstop
        exact hunproved ⟨hp, hfb, hs⟩
      rw [State.proveStop_unproved hstop]
      exact hn

/-- With no step due, watching the levels and PC's evaluation leave the phase. -/
theorem State.evaluate_still (hn : NoStepDue s) :
    Frame (watchParts ++ [.phase]) s s.watch.puEval ∧ s.watch.puEval.pc.phase = s.pc.phase := by
  have hsettled := State.evaluate_settled (T := []) (.refl [] s) List.not_mem_nil hn
  exact ⟨hsettled.frame, hsettled.phase⟩

/-- R107, R110, R111: a reading up to the hard limit, where no step of PU is due. -/
theorem State.reading_soft (hp : s.pressureRole = true) (hf : c.fault = false) (hval : c.value = some v)
    (h : s.valveRole = true ∨ NoStepDue (s.pumpAfter v)) (hv : v ≤ s.hw.hardLimit) :
    Frame (watchParts ++ proofParts ++ [.phase, .scan]) (s.pressureSeen c v)
        ((s.readingTaken .n1 (c, .value v)).advanceScan .n1)
      ∧ ((s.readingTaken .n1 (c, .value v)).advanceScan .n1).pc.phase = s.pc.phase := by
  have hcount : (s.pressureSeen c v).hw.hardCount ≠ 2 := by
    have : (s.pressureSeen c v).hw.hardCount = s.hw.hardAfter v := rfl
    rw [this, HoseWatch.hardAfter, if_neg (Nat.not_lt.2 hv)]
    decide
  have hproof := (s.pressureSeen c v).proveStop_keeps
  obtain ⟨heval, hstays⟩ := State.evaluate_still (State.proveStop_noStep hf hval h)
  have hscan := (s.readingTaken .n1 (c, .value v)).advanceScan_keeps .n1
  rw [State.readingTaken_seen hp, State.handHardLimit, if_neg hcount] at hscan ⊢
  exact ⟨((hproof.frame.mono (by decide)).trans (heval.mono (by decide))).trans (hscan.frame.mono (by decide)),
    (hscan.part .phase (by decide)).1.trans (hstays.trans (hproof.part .phase (by decide)).1)⟩

/-! ## The excursion allowance (R110) -/

/-- R110: a reading below the threshold in EXCURSION begins the relaxation. -/
theorem HoseWatch.takePressure_relaxes {h : HoseWatch} (he : h.excursion = .excursion) (hv : v ≤ h.surgeThreshold) :
    (h.takePressure v).allowance = ⟨false, 0⟩ ∧ (h.takePressure v).relax = ⟨true, 0⟩ := by
  simp [HoseWatch.takePressure, HoseWatch.excursionAfter, he, Nat.not_lt.2 hv, Timer.stopped, Timer.fromZero]

/-- R110: any other reading leaves both timers. -/
theorem HoseWatch.takePressure_timers {h : HoseWatch} (hn : h.excursion ≠ .excursion ∨ h.surgeThreshold < v) :
    (h.takePressure v).allowance = h.allowance ∧ (h.takePressure v).relax = h.relax := by
  have hnot : ¬ (h.excursion = .excursion ∧ h.excursionAfter v = .relax) := by
    rintro ⟨he, ha⟩
    have hlt := hn.resolve_left (absurd he)
    simp [HoseWatch.excursionAfter, he, hlt] at ha
  simp [HoseWatch.takePressure, hnot]

/-- R111: the surge condition is judged in the excursion state before the reading, for no reading leads into NONE, and
into RELAX none above the threshold. -/
theorem HoseWatch.takePressure_surgeCond (h : HoseWatch) :
    (h.takePressure v).surgeCond = true
      ↔ h.surgeThreshold < v ∧ (h.excursion = .none ∨ h.excursion = .relax) := by
  by_cases hv : h.surgeThreshold < v
  · cases he : h.excursion <;> simp [HoseWatch.takePressure, HoseWatch.surgeAt, HoseWatch.excursionAfter, he, hv]
  · simp [HoseWatch.takePressure, HoseWatch.surgeAt, hv]

/-! ## The pump proved stopped -/

/-- A latch leaves a STOPPING pump STOPPING. -/
theorem State.latch_stopping {k : Cause} (hpu : s.hasRole .pu = true) (hl : s.hasLatched k = false)
    (hp : s.vp.pump = .stopping) : (s.latch k none).vp.pump = .stopping := by
  by_cases ht : s.pc.phase = .tripped
  · exact ((State.latch_tripped_keeps k none ht).part .pump (by decide)).1.trans hp
  · exact (State.latch_pump none hpu hl ht).1.trans (ValvePump.stopPump_stopping hp).1

/-- R96: whatever HARDLIMIT does, a STOPPING pump with its feedback off is proved stopped below the settle level. -/
theorem State.hardLimit_proved (hpu : s.hasRole .pu = true) (hp : s.vp.pump = .stopping)
    (hfb : s.inputs.pumpFb = false) (hval : s.pressure = some v) (hs : v < s.hw.settleLevel) :
    s.handHardLimit.pumpProved = true := by
  have hk := s.handHardLimit_keeps
  have hpump : s.handHardLimit.vp.pump = .stopping := by
    rcases s.handHardLimit_cases with h | ⟨hl, h⟩ <;> rw [h]
    · exact hp
    · exact State.latch_stopping hpu hl hp
  have hinputs : s.handHardLimit.inputs = s.inputs := hk.part .inputs (by decide)
  have hchans : s.handHardLimit.hw.chans = s.hw.chans := hk.part .readings (by decide)
  obtain ⟨-, -, hlevel⟩ := hk.part .levels (by decide)
  exact State.pumpProved_of ((hk.hasRole (by decide) _).trans hpu) hpump (by rw [hinputs]; exact hfb)
    (by rw [State.pressure, hchans]; exact hval) (hlevel ▸ hs)

/-- A pump that is STOPPED stays so where no step is due. -/
theorem State.evaluate_stopped (hn : NoStepDue s) (hs : s.vp.pump = .stopped ∧ s.vp.stopTimer = ⟨false, 0⟩) :
    s.watch.puEval.vp.pump = .stopped ∧ s.watch.puEval.vp.stopTimer = ⟨false, 0⟩ := by
  obtain ⟨hpump, -, htimer, -, -⟩ := (State.evaluate_still hn).1.part .pump (by decide)
  exact ⟨hpump.trans hs.1, htimer.trans hs.2⟩

/-- A pump that is STOPPED in STOPPING stays so through the steps that follow. -/
theorem StoppedWell.evaluate (h : StoppedWell s) :
    s.watch.puEval.vp.pump = .stopped ∧ s.watch.puEval.vp.stopTimer = ⟨false, 0⟩ := by
  have hwatch := s.watch_keeps
  obtain ⟨hpump, htimer, -⟩ := (h.keeps hwatch (by decide) (hwatch.part .phase (by decide)).1).puEval
  exact ⟨hpump, htimer⟩

/-- R96: a reading below the settle level proves a STOPPING pump with its feedback off STOPPED. -/
theorem State.reading_proves (hpress : s.pressureRole = true) (hf : c.fault = false) (hval : c.value = some v)
    (hpu : s.hasRole .pu = true) (h : s.pc.phase = .stopping ∨ NoStepDue (s.pumpAfter v)) (hp : s.vp.pump = .stopping)
    (hfb : s.inputs.pumpFb = false) (hs : v < s.hw.settleLevel) :
    ((s.readingTaken .n1 (c, .value v)).advanceScan .n1).vp.pump = .stopped
      ∧ ((s.readingTaken .n1 (c, .value v)).advanceScan .n1).vp.stopTimer = ⟨false, 0⟩ := by
  have hproved := State.hardLimit_proved (s := s.pressureSeen c v) hpu hp hfb (State.pressureSeen_pressure hf hval) hs
  have hphase := (State.proveStop_keeps (s.pressureSeen c v).handHardLimit).part .phase (by decide)
  have hvp := State.proveStop_vp hproved
  have hstopped : (s.pressureSeen c v).handHardLimit.proveStop.vp.pump = .stopped
      ∧ (s.pressureSeen c v).handHardLimit.proveStop.vp.stopTimer = ⟨false, 0⟩ := by rw [hvp]; exact ⟨rfl, rfl⟩
  have heval : (s.readingTaken .n1 (c, .value v)).vp.pump = .stopped
      ∧ (s.readingTaken .n1 (c, .value v)).vp.stopTimer = ⟨false, 0⟩ := by
    rw [State.readingTaken_seen hpress]
    rcases (s.pressureSeen c v).handHardLimit_cases with hsame | ⟨hl, hlatch⟩
    · rw [hsame] at hstopped hphase ⊢
      rcases h with hstopping | hn
      · exact StoppedWell.evaluate ⟨hstopped.1, hstopped.2, .inl (hphase.1.trans hstopping)⟩
      · exact State.evaluate_stopped (State.proveStop_noStep hf hval (.inr hn)) hstopped
    · have htripped := (State.latch_new (s := s.pressureSeen c v) none hl).1
      refine State.evaluate_stopped (.inr (.inl ?_)) hstopped
      rw [hphase.1, hlatch, htripped]
      decide
  have hscan := (s.readingTaken .n1 (c, .value v)).advanceScan_keeps .n1
  obtain ⟨hpump, -, htimer, -, -⟩ := hscan.part .pump (by decide)
  exact ⟨hpump.trans heval.1, htimer.trans heval.2⟩

/-! ## The commands -/

theorem State.hasRole_tw_pressure (hp : s.pressureRole = true) : s.hasRole .tw = false := by
  by_contra h
  have hno := State.pressureRole_of_other (.inl (Bool.of_not_eq_false h))
  exact Bool.noConfusion (hp.symm.trans hno)

/-- R102, R103: a good reading of AN1 out of fault. -/
theorem execScanReading_good {raw : BitVec 12} (hl : s.listening = true) (hp : s.pressureRole = true)
    (hs : s.hw.slot = some .n1) (hf : s.hw.chans.n1.fault = false) (hlow : 40 < raw.toNat) (hhigh : raw.toNat < 4055)
    (hv : v = raw.toNat * s.hw.chans.n1.span / 4095) :
    exec (.scanReading raw) s = .next ((s.readingTaken .n1
      ({ s.hw.chans.n1 with lastRaw := some raw.toNat, badCount := 0, value := some v }, .value v)).advanceScan .n1) := by
  have hgood : badReading raw.toNat = false := by
    rw [badReading_eq]
    exact decide_eq_false (by omega)
  have hvalue : engineering raw.toNat s.hw.chans.n1.span (s.hasRole .tw) = v := by
    rw [State.hasRole_tw_pressure hp, hv]
    rfl
  have hread := ScanChannel.read_good (c := s.hw.chans.n1) (level := s.hasRole .tw) hf hgood
  rw [hvalue] at hread
  rw [execScanReading_reads hl hs]
  exact congrArg (fun r => Host.Outcome.next ((s.readingTaken .n1 r).advanceScan .n1)) hread

/-- R103: the third bad reading of AN1 in turn. -/
theorem execScanReading_lost {raw : BitVec 12} (hl : s.listening = true) (hs : s.hw.slot = some .n1)
    (hf : s.hw.chans.n1.fault = false) (hbad : raw.toNat ≤ 40 ∨ 4055 ≤ raw.toNat) (hn : 2 ≤ s.hw.chans.n1.badCount) :
    exec (.scanReading raw) s = .next ((s.readingTaken .n1
      ({ s.hw.chans.n1 with lastRaw := some raw.toNat, fault := true, badCount := 0, goodCount := 0 },
        .faultBegins)).advanceScan .n1) := by
  have hb : badReading raw.toNat = true := by
    rw [badReading_eq]
    exact decide_eq_true hbad
  rw [execScanReading_reads hl hs]
  exact congrArg (fun r => Host.Outcome.next ((s.readingTaken .n1 r).advanceScan .n1))
    (ScanChannel.read_faultBegins (c := s.hw.chans.n1) hf hb hn)

/-! ## The allowance and the relaxation run out (R110) -/

/-- The allowance at its end. -/
def State.allowanceEnded (s : State) : State := { s with hw := s.hw.endAllowance }

theorem State.allowanceEnded_keeps (s : State) : Keeps [.pressure] s s.allowanceEnded :=
  s.putPressure_keeps _ (by exact ⟨rfl, rfl, rfl, rfl, rfl, rfl, rfl⟩)

theorem execAllowanceExpiry_runs (h : s.hw.allowance.running = true) :
    exec .allowanceExpiry s = .next ((if s.hw.excursion = .excursion then s.handCause .surge none
      else s).allowanceEnded.watch.puEval) := congrArg Host.Outcome.next (if_pos h)

/-- R110: an allowance that runs out in EXCURSION latches SURGE. -/
theorem allowance_latches (h : s.hw.allowance.running = true) (hr : s.running = true)
    (he : s.hw.excursion = .excursion) (hm : s.tu.mask.surge = true)
    (hphase : s.pc.phase.active = true ∨ s.pc.phase = .tripped) (hl : s.hasLatched .surge = false) :
    ∃ t, exec .allowanceExpiry s = .next t ∧ t.pc.phase = .tripped ∧ ⟨.surge, none⟩ ∈ t.tu.latched
      ∧ t.hw.excursion = .none ∧ t.hw.allowance = ⟨false, 0⟩ ∧ t.hw.relax = ⟨false, 0⟩ ∧ Frame cascadeParts s t := by
  have hlists : Cause.surge.latchesIn s.pc.phase = true := by
    rcases hphase with h | h <;> simp [Cause.latchesIn, h]
  have hlatch : s.handCause .surge none = s.latch .surge none := State.handCause_latches none hr hlists hm
  obtain ⟨htripped, hprefix, -⟩ := State.latch_new none hl
  have hended := (s.latch .surge none).allowanceEnded_keeps
  obtain ⟨heval, hstays⟩ := State.evaluate_tripped ((hended.part .phase (by decide)).1.trans htripped)
  obtain ⟨-, hexcursion, hallowance, hrelax, -⟩ := heval.part .pressure (by decide)
  refine ⟨_, execAllowanceExpiry_runs h, ?_⟩
  rw [if_pos he, hlatch]
  refine ⟨hstays, ?_, hexcursion, hallowance, hrelax, ?_⟩
  · rw [(heval.part .tripRecord (by decide)).2.1, (hended.part .tripRecord (by decide)).2.1]
    exact hprefix.subset (by simp)
  · exact (((s.latch_keeps .surge none).frame.mono (by decide)).trans (hended.frame.mono (by decide))).trans
      (heval.frame.mono (by decide))

/-- R110: an allowance that runs out in another state ends, and no more. -/
theorem allowance_ends (h : s.hw.allowance.running = true) (he : s.hw.excursion ≠ .excursion) (hn : NoStepDue s) :
    ∃ t, exec .allowanceExpiry s = .next t ∧ t.hw.excursion = .none ∧ t.hw.allowance = ⟨false, 0⟩
      ∧ t.hw.relax = ⟨false, 0⟩ ∧ t.hw.hardCount = s.hw.hardCount ∧ t.hw.surgeCond = s.hw.surgeCond
      ∧ t.pc.phase = s.pc.phase ∧ Frame (watchParts ++ [.pressure, .phase]) s t := by
  obtain ⟨hframe, hphase⟩ := State.evaluate_still (s := s.allowanceEnded) hn
  obtain ⟨hcount, hexcursion, hallowance, hrelax, hsurge⟩ := hframe.part .pressure (by decide)
  refine ⟨_, execAllowanceExpiry_runs h, ?_⟩
  rw [if_neg he]
  exact ⟨hexcursion, hallowance, hrelax, hcount, hsurge, hphase,
    (s.allowanceEnded_keeps.frame.mono (by decide)).trans (hframe.mono (by decide))⟩

/-- The relaxation at its end. -/
def State.relaxEnded (s : State) : State := { s with hw := { s.hw with excursion := .none, relax := .stopped } }

theorem State.relaxEnded_keeps (s : State) : Keeps [.pressure] s s.relaxEnded :=
  s.putPressure_keeps _ (by exact ⟨rfl, rfl, rfl, rfl, rfl, rfl, rfl⟩)

/-- R110: the relaxation that runs out ends. -/
theorem relax_ends (h : s.hw.relax.running = true) :
    ∃ t, exec .relaxExpiry s = .next t ∧ t.hw.excursion = .none ∧ t.hw.relax = ⟨false, 0⟩
      ∧ t.hw.allowance = s.hw.allowance ∧ t.hw.hardCount = s.hw.hardCount ∧ t.hw.surgeCond = s.hw.surgeCond
      ∧ Frame (watchParts ++ [.pressure]) s t := by
  have hwatch := s.relaxEnded.watch_keeps
  obtain ⟨hcount, hexcursion, hallowance, hrelax, hsurge⟩ := hwatch.part .pressure (by decide)
  exact ⟨s.relaxEnded.watch, congrArg Host.Outcome.next (if_pos h), hexcursion, hrelax, hallowance, hcount, hsurge,
    (s.relaxEnded_keeps.frame.mono (by decide)).trans (hwatch.frame.mono (by decide))⟩

end Sys2Proof.Machine

open Sys2Proof Sys2Proof.Machine

/-- Settles O52: the pressure watch takes the reading, HARDLIMIT is handed before the stop proof, and at AN1's fault entry
the facts of the pressure go and no movement brings them back. -/
theorem pressureWatched : Obligations.PressureWatched := by
  refine ⟨fun s u raw v hr hp hs hf hlow hhigh hv hu => ?good, fun s raw hl hp hs hf hbad hn => ?lost,
    fun s raw hl hp hs hf hlow hhigh => ⟨_, execScanReading_good hl hp hs hf hlow hhigh rfl, State.reading_leakCond hp⟩,
    fun s h => ⟨fun hr he hm hphase hl => allowance_latches h hr he hm hphase hl, fun he hn => allowance_ends h he hn⟩,
    fun s h => relax_ends h, fun s h => ?_, fun s h => ?_⟩
  case good =>
    obtain rfl : u = s.pumpAfter v := hu
    have hl : s.listening = true := by simp [State.listening, State.running_station hr]
    refine ⟨_, execScanReading_good hl hp hs hf hlow hhigh hv, State.reading_hardCount hp,
      fun hlimit hn hphase hlatched => State.reading_hardLimit hr hp hlimit hn hphase hlatched, fun h hsoft => ?_,
      fun hpu h hpump hfb hsettle => State.reading_proves hp hf rfl hpu h hpump hfb hsettle, s.reading_frame .n1 _⟩
    obtain ⟨hframe, hphase⟩ := State.reading_soft (c := { s.hw.chans.n1 with
      lastRaw := some raw.toNat, badCount := 0, value := some v }) hp hf rfl h hsoft
    obtain ⟨-, hexcursion, hallowance, hrelax, hsurge⟩ := hframe.part .pressure (by decide)
    obtain ⟨-, hlatched, -⟩ := hframe.part .tripRecord (by decide)
    refine ⟨hexcursion, fun he hle => ?_, fun hn => ?_, ?_, hphase, hlatched⟩
    · obtain ⟨h1, h2⟩ := HoseWatch.takePressure_relaxes he hle
      exact ⟨hallowance.trans h1, hrelax.trans h2⟩
    · obtain ⟨h1, h2⟩ := HoseWatch.takePressure_timers hn
      exact ⟨hallowance.trans h1, hrelax.trans h2⟩
    · rw [hsurge]
      exact s.hw.takePressure_surgeCond
  case lost =>
    obtain ⟨⟨hgone, hsilent⟩, hlatched⟩ := State.fault_pressure (c := { s.hw.chans.n1 with
      lastRaw := some raw.toNat, fault := true, badCount := 0, goodCount := 0 }) hp rfl
    exact ⟨_, execScanReading_lost hl hs hf hbad hn, hgone.fault, hgone.hardCount, hgone.excursion, hgone.allowance,
      hgone.relax, hgone.surgeCond, hgone.leakCond, hsilent.surgeTimer, hsilent.leakTimer, hlatched _ nofun nofun,
      hlatched _ nofun nofun, hlatched _ nofun nofun, hsilent.surgeAlarm, hsilent.leakAlarm, s.reading_frame .n1 _⟩
  · exact congrArg Host.Outcome.next (if_neg (by simp [h]))
  · exact congrArg Host.Outcome.next (if_neg (by simp [h]))
end

section
/-! SUPPORT and the proof of O37: ASSIGN and UNASSIGN (R119, R120, R198). -/

namespace Sys2Proof.Machine

variable {s : State} {n : Ch} {w : CommandWord} {check : Ch → Option RefuseReason} {st : TankState}

/-! ## A tank's state changed (R117) -/

/-- R117: a tank takes a state, and nothing else of it changes. -/
theorem State.setTank_tank (s : State) (n : Ch) (st : TankState) :
    (s.setTank n st).ow.tanks.get n = { s.ow.tanks.get n with state := st } := by
  rw [s.setTank_tanks]
  split
  · rename_i h
    rw [← h]
  · exact Quad.get_set_self _ _ _

theorem State.setTank_others (s : State) (st : TankState) {m : Ch} (hm : m ≠ n) :
    (s.setTank n st).ow.tanks.get m = s.ow.tanks.get m := by
  rw [s.setTank_tanks]
  split
  · rfl
  · exact Quad.get_set_of_ne _ hm _

/-! ## The checks (R119, R120) -/

theorem State.tankUsed_iff (s : State) (n : Ch) :
    s.tankUsed n = true ↔ s.hasRole .tw = true ∧ n.num ≤ s.sl.setup.tankCount := by
  simp [State.tankUsed]

theorem State.tankCommandCheck_role (h : s.hasRole .tw = false) : s.tankCommandCheck n = some .role :=
  if_pos (by simp [h])

section Tw

variable (htw : s.hasRole .tw = true)
include htw

theorem State.tankCommandCheck_phase (h1 : s.pc.phase ≠ .idle) (h2 : s.pc.phase ≠ .lineup) :
    s.tankCommandCheck n = some .phase :=
  (if_neg (by simp [htw])).trans (if_pos ⟨h1, h2⟩)

variable (hp : s.pc.phase = .idle ∨ s.pc.phase = .lineup)
include hp

/-- R119: past the role and the phase the tank itself is checked. -/
theorem State.tankCommandCheck_tank :
    s.tankCommandCheck n
      = if !s.tankUsed n then some .tank
        else if (s.ow.tanks.get n).state ≠ .excluded ∧ (s.ow.tanks.get n).state ≠ .assigned then some .tank
        else none :=
  (if_neg (by simp [htw])).trans (if_neg fun h => hp.elim h.1 h.2)

theorem State.tankCommandCheck_badTank (h : s.sl.setup.tankCount < n.num
      ∨ ((s.ow.tanks.get n).state ≠ .excluded ∧ (s.ow.tanks.get n).state ≠ .assigned)) :
    s.tankCommandCheck n = some .tank := by
  rw [State.tankCommandCheck_tank htw hp]
  rcases h with h | h
  · exact if_pos (by simp [State.tankUsed, h])
  · rw [if_pos h, ite_self]

theorem State.tankCommandCheck_passes (hu : n.num ≤ s.sl.setup.tankCount)
    (h : (s.ow.tanks.get n).state = .excluded ∨ (s.ow.tanks.get n).state = .assigned) :
    s.tankCommandCheck n = none := by
  rw [State.tankCommandCheck_tank htw hp, if_neg (by simp [(s.tankUsed_iff n).2 ⟨htw, hu⟩])]
  exact if_neg fun hn => h.elim hn.1 hn.2

end Tw

theorem State.assignCheck_shared {r : RefuseReason} (h : s.tankCommandCheck n = some r) : s.assignCheck n = some r := by
  simp only [State.assignCheck, h]

section Assign

variable (h : s.tankCommandCheck n = none)
include h

theorem State.assignCheck_valve (hv : (s.vp.channels.get n).state ≠ .shut) : s.assignCheck n = some .valve := by
  simp only [State.assignCheck, h]
  exact if_pos hv

variable (hv : (s.vp.channels.get n).state = .shut)
include hv

theorem State.assignCheck_level (hl : (s.ow.tanks.get n).levelValid = false
      ∨ ∃ v, (s.ow.tanks.get n).level = some v ∧ (s.sl.setup.tanks.get n).topping ≤ v) :
    s.assignCheck n = some .level := by
  simp only [State.assignCheck, h, hv, ne_eq, not_true_eq_false, if_false]
  refine if_neg ?_
  rcases hl with hl | ⟨v, hl, hle⟩
  · simp [hl]
  · simp [hl, hle]

theorem State.assignCheck_passes {v : Nat} (hl : (s.ow.tanks.get n).levelValid = true)
    (hlevel : (s.ow.tanks.get n).level = some v) (hlt : v < (s.sl.setup.tanks.get n).topping) :
    s.assignCheck n = none := by
  simp only [State.assignCheck, h, hv, ne_eq, not_true_eq_false, if_false]
  exact if_pos (by simp [hl, hlevel, hlt])

end Assign

/-! ## The line (R198) -/

theorem Ch.ofNum_num (n : Ch) : Ch.ofNum n.num = some n := by cases n <;> rfl

theorem execAssign_fits (hl : s.lineFits = true) :
    exec (.assign n.num) s = .next (s.tankLine .assign n.num s.assignCheck .assigned) :=
  congrArg Host.Outcome.next (if_pos hl)

theorem execUnassign_fits (hl : s.lineFits = true) :
    exec (.unassign n.num) s = .next (s.tankLine .unassign n.num s.tankCommandCheck .excluded) :=
  congrArg Host.Outcome.next (if_pos hl)

theorem State.tankLine_stopped (hr : s.running = false) : s.tankLine w n.num check st = s.refuse w .state := by
  simp [State.tankLine, Ch.ofNum_num, hr]

theorem State.tankLine_refuses {r : RefuseReason} (hr : s.running = true) (h : check n = some r) :
    s.tankLine w n.num check st = s.refuse w r := by
  simp [State.tankLine, Ch.ofNum_num, hr, h]

theorem State.tankLine_takes (hr : s.running = true) (h : check n = none) :
    s.tankLine w n.num check st = (s.chooseTank n st).answerTaken w := by
  simp [State.tankLine, Ch.ofNum_num, hr, h]

/-! ## The command taken (R119, R120, R137) -/

/-- A tank has been given a state from `s` to `t`: READY and CLOSED are right where that changed it. -/
structure TankChosen (s t : State) (n : Ch) (st : TankState) : Prop where
  tank : t.ow.tanks.get n = { s.ow.tanks.get n with state := st }
  others : ∀ m, m ≠ n → t.ow.tanks.get m = s.ow.tanks.get m
  changed : (s.ow.tanks.get n).state ≠ st → FlagsRight t
  unchanged : (s.ow.tanks.get n).state = st → t.pc = s.pc
  frame : Frame (watchParts ++ [.tanks]) s t

theorem State.chooseTank_keeps (s : State) (n : Ch) (st : TankState) :
    Keeps (watchParts ++ [.tanks]) s (s.chooseTank n st) :=
  Keeps.ite ((s.emit_keeps _).mono (by decide))
    (((s.setTank_keeps n st).mono (by decide)).trans ((State.watch_keeps _).mono (by decide)))

theorem State.chooseTank_onward (s : State) (n : Ch) (st : TankState) : Onward s (s.chooseTank n st) :=
  (s.emit_onward _).ite ((s.setTank_onward n st).trans (State.watch_onward _))

theorem State.chooseTank_chosen (s : State) (n : Ch) (st : TankState) : TankChosen s (s.chooseTank n st) n st := by
  have hframe := (s.chooseTank_keeps n st).frame
  unfold State.chooseTank at hframe ⊢
  by_cases h : (s.ow.tanks.get n).state = st
  · rw [if_pos h] at hframe ⊢
    exact ⟨by rw [← h]; rfl, fun _ _ => rfl, fun hn => absurd h hn, fun _ => rfl, hframe⟩
  · rw [if_neg h] at hframe ⊢
    have htanks : (s.setTank n st).watch.ow = (s.setTank n st).ow := (State.watch_keeps _).part .tanks (by decide)
    refine ⟨?_, fun m hm => ?_, fun _ => State.watch_flagsRight _, fun hs => absurd hs h, hframe⟩
    · rw [htanks, s.setTank_tank]
    · rw [htanks, s.setTank_others st hm]

/-- A report changes nothing the command does. -/
theorem TankChosen.report {t : State} (h : TankChosen s t n st) (r : Report) : TankChosen s (t.report r) n st where
  tank := h.tank
  others := h.others
  changed hn := (h.changed hn).congr ⟨rfl, rfl, rfl, rfl, rfl, rfl, rfl, rfl, rfl⟩ rfl rfl
  unchanged := h.unchanged
  frame := h.frame.trans ((t.report_frame r).mono (by decide))

/-- R119, R120, R198: a command whose checks pass gives the tank its state and is answered TAKEN. -/
theorem State.tankLine_chosen (hl : s.lineFits = true) (hq : s.pp.queue.length ≤ 8) (hr : s.running = true)
    (h : check n = none) :
    TankChosen s (s.tankLine w n.num check st) n st
      ∧ NewestReport (s.tankLine w n.num check st) (.answer (some w) none (.decided .taken) .none) := by
  rw [State.tankLine_takes hr h]
  exact ⟨(s.chooseTank_chosen n st).report _, (State.report_newest (.answer (some w) none (.decided .taken) .none) nofun hl
    (s.chooseTank_keeps n st).events ((s.chooseTank_onward n st).queue hq)).1⟩

/-- R198, R199: a command refused gives its ANSWER and nothing else. -/
theorem State.refuse_answers (hl : s.lineFits = true) (hq : s.pp.queue.length ≤ 8) (w : CommandWord) (r : RefuseReason) :
    NewestReport (s.refuse w r) (.answer (some w) none .refused (.reason r)) ∧ Frame [.reports] s (s.refuse w r) :=
  State.report_read _ nofun hl hq

/-- R119: a further check of ASSIGN that fails. -/
theorem assign_refused {r : RefuseReason} (hl : s.lineFits = true) (hq : s.pp.queue.length ≤ 8) (hr : s.running = true)
    (h : s.assignCheck n = some r) :
    ∃ t, exec (.assign n.num) s = .next t ∧ NewestReport t (.answer (some .assign) none .refused (.reason r))
      ∧ Frame [.reports] s t :=
  ⟨_, (execAssign_fits hl).trans (congrArg _ (State.tankLine_refuses hr h)), State.refuse_answers hl hq _ _⟩

/-- R119, R120: a check that ASSIGN and UNASSIGN share fails for both. -/
theorem tankCommand_refused {c : Instr} {r : RefuseReason}
    (hc : c = .assign n.num ∧ w = .assign ∨ c = .unassign n.num ∧ w = .unassign) (hl : s.lineFits = true)
    (hq : s.pp.queue.length ≤ 8) (hr : s.running = true) (h : s.tankCommandCheck n = some r) :
    ∃ t, exec c s = .next t ∧ NewestReport t (.answer (some w) none .refused (.reason r)) ∧ Frame [.reports] s t := by
  rcases hc with ⟨rfl, rfl⟩ | ⟨rfl, rfl⟩
  · exact assign_refused hl hq hr (State.assignCheck_shared h)
  · exact ⟨_, (execUnassign_fits hl).trans (congrArg _ (State.tankLine_refuses hr h)), State.refuse_answers hl hq _ _⟩

/-- R198: outside RUNNING neither command is handed on. -/
theorem tankCommand_stopped {c : Instr}
    (hc : c = .assign n.num ∧ w = .assign ∨ c = .unassign n.num ∧ w = .unassign) (hl : s.lineFits = true)
    (hq : s.pp.queue.length ≤ 8) (hr : s.running = false) :
    ∃ t, exec c s = .next t ∧ NewestReport t (.answer (some w) none .refused (.reason .state))
      ∧ Frame [.reports] s t := by
  rcases hc with ⟨rfl, rfl⟩ | ⟨rfl, rfl⟩
  · exact ⟨_, (execAssign_fits hl).trans (congrArg _ (State.tankLine_stopped hr)), State.refuse_answers hl hq _ _⟩
  · exact ⟨_, (execUnassign_fits hl).trans (congrArg _ (State.tankLine_stopped hr)), State.refuse_answers hl hq _ _⟩

end Sys2Proof.Machine

open Sys2Proof Sys2Proof.Machine

/-- Settles O37: the shared checks in their order, those of ASSIGN behind them, and the one way in which a command that
passes them gives the tank its state. -/
theorem tankCommands : Obligations.TankCommands := by
  intro s n hl hq
  refine ⟨fun hr htw hp hu hstate => ?passed, fun c w hc => ⟨fun hr htw => ?_, fun hr => ?_, fun hr htw h1 h2 => ?_,
    fun hr htw hp h => ?_⟩⟩
  case passed =>
    have hshared := State.tankCommandCheck_passes htw hp hu hstate
    refine ⟨?_, fun v hv hvalid hlevel hlt => ?_, fun hv => ?_, fun hv hlevel => ?_⟩
    · obtain ⟨h, hnew⟩ := State.tankLine_chosen (w := .unassign) (st := .excluded) hl hq hr hshared
      exact ⟨_, execUnassign_fits hl, h.tank, h.others, hnew, fun ha => h.changed (by simp [ha]), h.unchanged, h.frame⟩
    · obtain ⟨h, hnew⟩ := State.tankLine_chosen (w := .assign) (st := .assigned) hl hq hr
        (State.assignCheck_passes hshared hv hvalid hlevel hlt)
      exact ⟨_, execAssign_fits hl, h.tank, h.others, hnew, fun he => h.changed (by simp [he]), h.unchanged, h.frame⟩
    · exact assign_refused hl hq hr (State.assignCheck_valve hshared hv)
    · exact assign_refused hl hq hr (State.assignCheck_level hshared hv hlevel)
  · exact tankCommand_refused hc hl hq hr (State.tankCommandCheck_role htw)
  · exact tankCommand_stopped hc hl hq hr
  · exact tankCommand_refused hc hl hq hr (State.tankCommandCheck_phase htw h1 h2)
  · exact tankCommand_refused hc hl hq hr (State.tankCommandCheck_badTank htw hp h)
end

section
/-! SUPPORT and the proof of O55: the ends of the record at TW, and the end of settling (R135, R151, R153). -/

namespace Sys2Proof.Machine

variable {s : State}

/-! ## The outcome (R153) -/

section Outcome

variable (r : Record) (quantityTol mismatchTol : Nat)

theorem Record.judge_short :
    (r.judge quantityTol mismatchTol).short = true ↔ r.delivered + quantityTol < r.nomination := by
  simp only [Record.judge, decide_eq_true_eq]
  omega

theorem Record.judge_exceeds :
    (r.judge quantityTol mismatchTol).exceeds = true ↔ r.nomination + quantityTol < r.delivered := by
  simp only [Record.judge, decide_eq_true_eq]

theorem Record.judge_mismatch :
    (r.judge quantityTol mismatchTol).mismatch = true
      ↔ r.received + mismatchTol < r.delivered ∨ r.delivered + mismatchTol < r.received := by
  simp only [Record.judge, decide_eq_true_eq]
  omega

end Outcome

/-! ## The sample (R151) -/

/-- R151: a TW whose receipt is COMPLETE waits for the protected TW entries alone. -/
theorem State.allComplete_tw (htw : s.hasRole .tw = true) (hr : s.ow.receipt = .complete)
    (hpeers : ∀ e ∈ s.sr.entries, e.protected' = true → e.role = some .tw →
      Showing s e fun st => st.body.receipt = .complete) : s.allComplete = true := by
  have htest : Tests (fun st => st.body.receipt == .complete) fun st => st.body.receipt = .complete :=
    fun _ => beq_iff_eq
  have hall : ∀ e ∈ s.sr.guardedTw, e.shows s.pc.gen (fun st => st.body.receipt == .complete) = true := by
    intro e he
    simp only [Roster.guardedTw, Roster.guarded, List.mem_filter, Entry.hasRole, beq_iff_eq] at he
    exact (Entry.shows_iff htest).2 (hpeers e he.1.1 he.1.2 he.2)
  simp only [State.allComplete, htw, hr, if_true, beq_self_eq_true, Bool.true_and, List.all_eq_true]
  exact hall

/-- R151: an OPEN record with both its ends is sampled as soon as all is complete. -/
theorem State.judgeEnds_due (ho : s.mr.record.state = .opened) (he : s.mr.record.externalEnd = true)
    (hi : s.mr.record.internalEnd = true) (hc : s.allComplete = true) : s.judgeEnds = s.sample .normal := by
  have hinternal : s.judgeInternalEnd = s := if_neg (by simp [hi])
  rw [State.judgeEnds, hinternal]
  exact if_pos (by simp [s.recordOpen_iff.2 ho, he, hi, hc])

/-- R151: without its external end a record stays in the state it has. -/
theorem State.judgeEnds_open (he : s.mr.record.externalEnd = false) :
    s.judgeEnds.mr.record.state = s.mr.record.state := by
  have hinternal : s.judgeInternalEnd.mr.record.state = s.mr.record.state
      ∧ s.judgeInternalEnd.mr.record.externalEnd = s.mr.record.externalEnd := by
    unfold State.judgeInternalEnd
    split
    · exact ⟨rfl, rfl⟩
    · exact ⟨rfl, rfl⟩
  have hsample : s.judgeEnds = s.judgeInternalEnd := if_neg (by simp [hinternal.2, he])
  rw [hsample, hinternal.1]

/-! ## Settling ends (R135) -/

/-- R135: the receipt COMPLETE and both settle timers stopped. -/
def State.receiptComplete (s : State) : State :=
  ({ s with ow := { s.ow with settleWindow := .stopped, settleLimit := .stopped } } : State).setReceipt .complete

theorem State.completeSettling_eq (s : State) : s.completeSettling = s.receiptComplete.judgeEnds.watch := rfl

theorem State.receiptComplete_keeps (s : State) : Keeps tankParts s s.receiptComplete :=
  ((s.putTanks_keeps _).mono (by decide)).trans (State.setReceipt_keeps _ _)

theorem State.receiptComplete_ow (s : State) :
    s.receiptComplete.ow = { s.ow with receipt := .complete, settleWindow := ⟨false, 0⟩, settleLimit := ⟨false, 0⟩ } :=
  State.setReceipt_ow _ _

theorem State.receiptComplete_record (s : State) : s.receiptComplete.mr.record = s.mr.record :=
  s.receiptComplete_keeps.part .record (by decide)

theorem State.completeSettling_ow (s : State) : s.completeSettling.ow = s.receiptComplete.ow := by
  rw [s.completeSettling_eq]
  exact ((State.watch_keeps _).part .tanks (by decide) : _ = _).trans ((State.judgeEnds_keeps _).part .tanks (by decide))

theorem State.completeSettling_record (s : State) :
    s.completeSettling.mr.record = s.receiptComplete.judgeEnds.mr.record := by
  rw [s.completeSettling_eq]
  exact (State.watch_keeps _).part .record (by decide)

/-- R151: what the record of a TW waits for, its own receipt apart. -/
structure AwaitsReceipt (s : State) : Prop where
  opened : s.mr.record.state = .opened
  externalEnd : s.mr.record.externalEnd = true
  internalEnd : s.mr.record.internalEnd = true
  peers : ∀ e ∈ s.sr.entries, e.protected' = true → e.role = some .tw →
    Showing s e fun st => st.body.receipt = .complete

/-- R151, R153: the end of settling samples a record that waits for the own receipt alone. -/
theorem State.completeSettling_samples (htw : s.hasRole .tw = true) (h : AwaitsReceipt s) :
    s.completeSettling.mr.record
      = s.mr.record.sample .normal s.sl.setup.quantityTol s.sl.setup.mismatchTol := by
  have hk := s.receiptComplete_keeps
  have hrecord := s.receiptComplete_record
  have hsl : s.receiptComplete.sl = s.sl := hk.part .setup (by decide)
  have hsr : s.receiptComplete.sr = s.sr := hk.part .roster (by decide)
  have hgen : s.receiptComplete.pc.gen = s.pc.gen := hk.part .generation (by decide)
  have hcomplete : s.receiptComplete.allComplete = true := by
    refine State.allComplete_tw ((hk.hasRole (by decide) _).trans htw) (by rw [s.receiptComplete_ow]) ?_
    rw [hsr]
    exact fun e he hp hr => (Showing.congr hgen _ _).2 (h.peers e he hp hr)
  rw [s.completeSettling_record, State.judgeEnds_due (by rw [hrecord, h.opened]) (by rw [hrecord, h.externalEnd])
    (by rw [hrecord, h.internalEnd]) hcomplete]
  change s.receiptComplete.mr.record.sample .normal s.receiptComplete.sl.setup.quantityTol
    s.receiptComplete.sl.setup.mismatchTol = _
  rw [hrecord, hsl]

/-- R135, R151: before its external end the record waits on. -/
theorem State.completeSettling_open (he : s.mr.record.externalEnd = false) :
    s.completeSettling.mr.record.state = s.mr.record.state := by
  rw [s.completeSettling_record, State.judgeEnds_open (by rw [s.receiptComplete_record, he]), s.receiptComplete_record]

/-- R135: either timer, running out in SETTLING, ends it. -/
theorem exec_settleExpiry {c : Instr} (h : c = .settleWindowExpiry ∧ s.ow.settleWindow.running = true
      ∨ c = .settleLimitExpiry ∧ s.ow.settleLimit.running = true) (hr : s.ow.receipt = .settling) :
    exec c s = .next s.completeSettling := by
  rcases h with ⟨rfl, ht⟩ | ⟨rfl, ht⟩
  · exact congrArg Host.Outcome.next (if_pos ⟨hr, ht⟩)
  · exact congrArg Host.Outcome.next (if_pos ⟨hr, ht⟩)

/-- Log 5: outside SETTLING neither timer can run out. -/
theorem exec_settleExpiry_kept {c : Instr} (h : c = .settleWindowExpiry ∨ c = .settleLimitExpiry)
    (hr : s.ow.receipt ≠ .settling) : exec c s = .next s := by
  rcases h with rfl | rfl
  · exact congrArg Host.Outcome.next (if_neg fun hn => hr hn.1)
  · exact congrArg Host.Outcome.next (if_neg fun hn => hr hn.1)

end Sys2Proof.Machine

open Sys2Proof Sys2Proof.Machine

/-- Settles O55: both timers come to the one end of settling, and the record is judged after it. -/
theorem settlingEnds : Obligations.SettlingEnds := by
  intro s c h
  refine ⟨fun hr => ⟨_, exec_settleExpiry h hr, s.completeSettling_ow.trans s.receiptComplete_ow, ?sampled,
    State.completeSettling_open, s.completeSettling_keeps.frame⟩,
    exec_settleExpiry_kept (h.imp And.left And.left)⟩
  intro htw ho he hi hpeers
  exact ⟨_, State.completeSettling_samples htw ⟨ho, he, hi, hpeers⟩, Record.judge_short _ _ _, Record.judge_exceeds _ _ _,
    Record.judge_mismatch _ _ _, rfl⟩
end

section
/-! SUPPORT and the proof of O53: a claim decided (R130, R131), and what the tanks of a TW are judged by (R134). -/

namespace Sys2Proof.Machine

variable {s t : State} {n : Ch}

/-! ## The claim and the receipt state -/

theorem State.setClaim_ow (s : State) (c : Claim) (n : Ch) (e : ClaimEvent) :
    (s.setClaim c n e).ow = { s.ow with claim := c } :=
  ((State.emit_keeps _ _).part .tanks (by decide) : _ = _).trans ((State.askStatus_keeps _).part .tanks (by decide))

/-- R134: every tank taking part is FULL or HELD, and there is one. -/
def AllFull (q : Quad Tank) : Prop :=
  (∃ m, (q.get m).takingPart = true)
    ∧ ∀ m, (q.get m).takingPart = true → (q.get m).state = .full ∨ (q.get m).state = .held

/-- R134: what becomes of a receipt state as the tanks are judged. -/
structure FullJudged (q : Quad Tank) (before after : ReceiptState) : Prop where
  kept : before ≠ .receiving → after = before
  full : before = .receiving → AllFull q → after = .allfull
  filling : before = .receiving → ¬ AllFull q → after = .receiving

/-- R134: RECEIVING becomes ALLFULL where all are full, and nothing else of the Overflow Watch changes. -/
theorem State.judgeAllFull_ow (s : State) :
    ∃ r, s.judgeAllFull.ow = { s.ow with receipt := r } ∧ FullJudged s.ow.tanks s.ow.receipt r := by
  have hcond : (s.ow.receipt == .receiving && (Ch.all.any fun n => (s.ow.tanks.get n).takingPart)
      && (Ch.all.all fun n => !(s.ow.tanks.get n).takingPart || (s.ow.tanks.get n).state.fullOrHeld)) = true
        ↔ s.ow.receipt = .receiving ∧ AllFull s.ow.tanks := by
    simp [AllFull, Ch.mem_all, TankState.fullOrHeld_iff, and_assoc, ← Bool.not_eq_true, imp_iff_not_or]
  unfold State.judgeAllFull
  by_cases h : s.ow.receipt = .receiving ∧ AllFull s.ow.tanks
  · rw [if_pos (hcond.2 h)]
    exact ⟨_, s.setReceipt_ow _, fun hn => absurd h.1 hn, fun _ _ => rfl, fun _ hn => absurd h.2 hn⟩
  · rw [if_neg fun hc => h (hcond.1 hc)]
    exact ⟨_, rfl, fun _ => rfl, fun hr ha => absurd ⟨hr, ha⟩ h, fun hr _ => hr⟩

/-- R42: an open route at a peer is read from the setup, the table and the generation. -/
theorem Keeps.peerRoute {T : List Part} (h : Keeps T s t)
    (hT : decide (Part.setup ∉ T ∧ Part.roster ∉ T ∧ Part.generation ∉ T) = true) : t.peerRoute = s.peerRoute := by
  obtain ⟨h1, h2, h3⟩ := of_decide_eq_true hT
  have hsl : t.sl = s.sl := h.frame .setup h1
  have hsr : t.sr = s.sr := h.frame .roster h2
  have hgen : t.pc.gen = s.pc.gen := h.frame .generation h3
  simp only [State.peerRoute, hsl, hsr, hgen]

theorem State.closeChannel_others (s : State) {m : Ch} (hm : m ≠ n) :
    (s.closeChannel n).vp.channels.get m = s.vp.channels.get m := by
  rw [State.closeChannel, State.putChannel_get, if_neg hm]

/-! ## The claim won and lost (R131) -/

theorem State.winClaim_ow (s : State) (n : Ch) :
    (s.winClaim n).ow = { (s.setTank n .full).ow with claim := .start } := by
  have hclosed : ((s.setTank n .full).closeChannel n).ow = (s.setTank n .full).ow :=
    (State.closeChannel_keeps _ n).part .tanks (by decide)
  rw [State.winClaim, State.setClaim_ow, hclosed]

/-- R131: the channel of the tank that won closes, and no other. -/
theorem State.winClaim_channels (s : State) (n : Ch) :
    ((s.winClaim n).vp.channels.get n).Closes
      ∧ ∀ m, m ≠ n → (s.winClaim n).vp.channels.get m = s.vp.channels.get m := by
  obtain ⟨hclaim, -, -⟩ := (State.setClaim_keeps ((s.setTank n .full).closeChannel n) .start n .won).part .channels
    (by decide)
  obtain ⟨hfull, -, -⟩ := (s.setTank_keeps n .full).part .channels (by decide)
  unfold State.winClaim
  rw [hclaim]
  refine ⟨State.closeChannel_closes _ n, fun m hm => ?_⟩
  rw [State.closeChannel_others _ hm, hfull]

/-- R131: the tank of a lost claim is HELD and the claim is over. -/
def State.claimLost (s : State) (n : Ch) : State := (s.setTank n .held).setClaim .start n .lost

theorem State.claimLost_ow (s : State) (n : Ch) :
    (s.claimLost n).ow = { (s.setTank n .held).ow with claim := .start } := State.setClaim_ow _ _ _ _

theorem State.claimLost_keeps (s : State) (n : Ch) : Keeps tankParts s (s.claimLost n) :=
  (s.setTank_keeps _ _).trans (State.setClaim_keeps _ _ _ _)

/-- R130: the claim lost begins anew for the HELD tank that may retry. -/
theorem State.loseClaim_ow (s : State) (n : Ch) :
    (s.loseClaim n).ow
      = { (s.setTank n .held).ow with
          claim := match (s.claimLost n).retryTank with
            | some m => ⟨true, some m, .fromZero⟩
            | none => .start } := by
  change (match (s.claimLost n).retryTank with
    | some m => (s.claimLost n).startClaim m
    | none => s.claimLost n).ow = _
  cases (s.claimLost n).retryTank with
  | none => exact s.claimLost_ow n
  | some m =>
    dsimp only
    rw [State.startClaim, State.setClaim_ow, s.claimLost_ow]

/-- R130: without an open route no retry begins. -/
theorem State.claimLost_noRetry (h : s.peerRoute = false) : (s.claimLost n).retryTank = none := by
  have hroute := ((s.claimLost_keeps n).peerRoute (by decide)).trans h
  simp [State.retryTank, hroute]

/-- R129: the only HELD tank in use is the HELD tank. -/
theorem State.heldTank_only (hu : s.tankUsed n = true) (hn : (s.ow.tanks.get n).state = .held)
    (ho : ∀ m, m ≠ n → (s.ow.tanks.get m).state ≠ .held) : s.heldTank = some n := by
  rw [State.heldTank, State.tanksUsed, List.find?_filter]
  refine Ch.find_all (by simp [hu, hn]) fun m hm => ?_
  simp [ho m fun h => by simp [h] at hm]

/-- R130: with a route still open the tank that lost retries, where no other is HELD. -/
theorem State.claimLost_retries (h : s.peerRoute = true) (htw : s.runningTw = true) (hp : s.pc.phase.active = true)
    (hu : s.tankUsed n = true) (ho : ∀ m, m ≠ n → (s.ow.tanks.get m).state ≠ .held) :
    (s.claimLost n).retryTank = some n := by
  have hk := s.claimLost_keeps n
  have hroute := (hk.peerRoute (by decide)).trans h
  have hrunning : (s.claimLost n).runningTw = true := by
    rw [State.runningTw, hk.running (by decide), hk.hasRole (by decide)]
    exact htw
  have hactive : (s.claimLost n).pc.phase.active = true := by rw [(hk.part .phase (by decide)).1, hp]
  have hidle : (s.claimLost n).ow.claim.waiting = false := by rw [s.claimLost_ow]; rfl
  have hheld : (s.claimLost n).heldTank = some n := by
    refine State.heldTank_only ((hk.tankUsed (by decide) n).trans hu) ?_ fun m hm => ?_
    · rw [s.claimLost_ow]
      simp [State.setTank_tank]
    · rw [s.claimLost_ow]
      simp only [s.setTank_others .held hm]
      exact ho m hm
  simp [State.retryTank, hrunning, hactive, hidle, hroute, hheld]

/-! ## The decision -/

/-- What follows a claim's decision: ALLFULL, the ends of the record and the levels watched. -/
def State.claimDecided (s : State) : State := s.judgeAllFull.judgeEnds.watch

theorem State.claimDecided_keeps (s : State) : Keeps (watchParts ++ [.tanks, .record]) s s.claimDecided :=
  ((s.judgeAllFull_keeps.mono (by decide)).trans ((State.judgeEnds_keeps _).mono (by decide))).trans
    ((State.watch_keeps _).mono (by decide))

/-- R134: no more than the receipt state of the Overflow Watch changes after the decision. -/
theorem State.claimDecided_ow (s : State) :
    s.claimDecided.ow.tanks = s.ow.tanks ∧ s.claimDecided.ow.claim = s.ow.claim := by
  obtain ⟨r, hr, -⟩ := s.judgeAllFull_ow
  have hrest : s.claimDecided.ow = s.judgeAllFull.ow :=
    ((State.watch_keeps _).part .tanks (by decide) : _ = _).trans ((State.judgeEnds_keeps _).part .tanks (by decide))
  rw [hrest, hr]
  exact ⟨rfl, rfl⟩

theorem execClaimWaitExpiry_won (hw : s.ow.claim.waiting = true) (ht : s.ow.claim.tank = some n)
    (hb : s.peerClaimBelow = false) (hr : s.peerRoute = true) :
    exec .claimWaitExpiry s = .next (s.winClaim n).claimDecided := by
  change execClaimWaitExpiry s = _
  simp only [execClaimWaitExpiry, hw, ht, hb, hr]
  rfl

theorem execClaimWaitExpiry_lost (hw : s.ow.claim.waiting = true) (ht : s.ow.claim.tank = some n)
    (h : s.peerClaimBelow = true ∨ s.peerRoute = false) :
    exec .claimWaitExpiry s = .next (s.loseClaim n).claimDecided := by
  have hlost : ¬ (!s.peerClaimBelow && s.peerRoute) = true := by
    rcases h with h | h
    · simp [h]
    · simp [h]
  change execClaimWaitExpiry s = _
  simp only [execClaimWaitExpiry, hw, ht]
  rw [if_neg hlost]
  rfl

end Sys2Proof.Machine

open Sys2Proof Sys2Proof.Machine

/-- Settles O53: the claim won closes its channel; the claim lost holds the tank, and retries where a route is open. -/
theorem claimDecided : Obligations.ClaimDecided := by
  intro s n hw ht
  refine ⟨fun hb hr => ?won, fun h => ?lost⟩
  case won =>
    have hk := (s.winClaim n).claimDecided_keeps
    obtain ⟨htanks, hclaim⟩ := (s.winClaim n).claimDecided_ow
    obtain ⟨hchannels, -⟩ := hk.part .channels (by decide)
    obtain ⟨⟨hstate, hpending⟩, hothers⟩ := s.winClaim_channels n
    rw [s.winClaim_ow] at htanks hclaim
    rw [← hchannels] at hstate hpending hothers
    refine ⟨_, execClaimWaitExpiry_won hw ht hb hr, ?_, fun m hm => ?_, hclaim, hstate, hpending, hothers, ?_⟩
    · rw [htanks, s.setTank_tank]
    · rw [htanks, s.setTank_others .full hm]
    · exact ((s.winClaim_keeps n).frame.mono (by decide)).trans (hk.frame.mono (by decide))
  case lost =>
    have hk := (s.loseClaim n).claimDecided_keeps
    obtain ⟨htanks, hclaim⟩ := (s.loseClaim n).claimDecided_ow
    rw [s.loseClaim_ow] at htanks hclaim
    refine ⟨_, execClaimWaitExpiry_lost hw ht h, ?_, fun m hm => ?_, fun hr => ?_, fun hr htw hp hu ho => ?_, ?_⟩
    · rw [htanks, s.setTank_tank]
    · rw [htanks, s.setTank_others .held hm]
    · rw [hclaim, State.claimLost_noRetry hr]
      rfl
    · rw [hclaim, State.claimLost_retries hr htw hp hu ho]
      rfl
    · exact ((s.loseClaim_keeps n).frame.mono (by decide)).trans (hk.frame.mono (by decide))
end

section
/-! SUPPORT. The level steps of a tank at a TW: the state it comes to, the claim, and the channel (R122 to R124, R130). -/

namespace Sys2Proof.Machine

variable {s t u : State} {n : Ch} {v : Nat} {st : TankState}

/-! ## What the steps come to -/

/-- What a level makes of a tank in an active phase: its state, the claim, and whether its channel closes. -/
structure LevelOutcome where
  state : TankState
  claim : Claim
  closes : Bool

/-- R122: the state an open tank has reached below its target. -/
def Tank.reached (a : Tank) (topping v : Nat) : TankState :=
  if (a.state = .opened ∨ a.state = .filling) ∧ topping ≤ v then .topping
  else if a.state = .opened ∧ a.startLevel + 10 ≤ v then .filling else a.state

/-- R123, R124: what the target level makes of a tank in a state. -/
def State.targetOutcome (s : State) (n : Ch) (v : Nat) (st : TankState) : LevelOutcome :=
  if st.isOpen ∧ (s.sl.setup.tanks.get n).target ≤ v then
    (if s.otherOpen n then ⟨.full, s.ow.claim, true⟩
     else if s.ow.claim.waiting then ⟨st, s.ow.claim, false⟩
     else if s.peerRoute then ⟨st, ⟨true, some n, .fromZero⟩, false⟩
     else ⟨.held, s.ow.claim, false⟩)
  else ⟨st, s.ow.claim, false⟩

/-- R122 to R124: what a level makes of a tank. -/
def State.levelOutcome (s : State) (n : Ch) (v : Nat) : LevelOutcome :=
  if s.running && s.pc.phase.active then
    s.targetOutcome n v ((s.ow.tanks.get n).reached (s.sl.setup.tanks.get n).topping v)
  else ⟨(s.ow.tanks.get n).state, s.ow.claim, false⟩

/-- From `s` to `t` a tank comes to an outcome, and no more of the Overflow Watch and of the channels changes. -/
structure ComesTo (s t : State) (n : Ch) (o : LevelOutcome) : Prop where
  ow : t.ow = { s.ow with
    tanks := s.ow.tanks.set n { s.ow.tanks.get n with state := o.state }, claim := o.claim }
  stays : o.closes = false → t.vp.channels = s.vp.channels
  closes : o.closes = true →
    (t.vp.channels.get n).Closes ∧ ∀ m, m ≠ n → t.vp.channels.get m = s.vp.channels.get m
  asks : s.running = true → o.state ≠ (s.ow.tanks.get n).state → t.lc.status.isSome = true
  onward : Onward s t

theorem ComesTo.tank {o : LevelOutcome} (h : ComesTo s t n o) :
    t.ow.tanks.get n = { s.ow.tanks.get n with state := o.state } := by
  rw [h.ow]
  exact Quad.get_set_self _ _ _

theorem ComesTo.others {o : LevelOutcome} (h : ComesTo s t n o) {m : Ch} (hm : m ≠ n) :
    t.ow.tanks.get m = s.ow.tanks.get m := by
  rw [h.ow]
  exact Quad.get_set_of_ne _ hm _

theorem ComesTo.claim {o : LevelOutcome} (h : ComesTo s t n o) : t.ow.claim = o.claim := congrArg OverflowWatch.claim h.ow

theorem Quad.set_set {α : Type} (q : Quad α) (n : Ch) (x y : α) : (q.set n x).set n y = q.set n y := by cases n <;> rfl

theorem Quad.set_state_self (q : Quad Tank) (n : Ch) : q.set n { q.get n with state := (q.get n).state } = q :=
  Quad.set_get_self q n

/-- A tank that comes to a state, and from there to an outcome. -/
theorem ComesTo.trans {o : LevelOutcome} (h : ComesTo s t n ⟨st, s.ow.claim, false⟩) (k : ComesTo t u n o)
    (hr : t.running = s.running) : ComesTo s u n o where
  ow := by
    rw [k.ow, h.tank, h.ow]
    simp only [Quad.set_set]
  stays ho := (k.stays ho).trans (h.stays rfl)
  closes ho := by
    rw [← h.stays rfl]
    exact k.closes ho
  asks hrun ho := by
    by_cases hst : o.state = st
    · exact k.onward.status (h.asks hrun fun hs => ho (hst.trans hs))
    · exact k.asks (hr.trans hrun) (by rw [h.tank]; exact hst)
  onward := h.onward.trans k.onward

theorem ComesTo.refl (s : State) (n : Ch) : ComesTo s s n ⟨(s.ow.tanks.get n).state, s.ow.claim, false⟩ where
  ow := by rw [Quad.set_state_self]
  stays _ := rfl
  closes := nofun
  asks _ ho := absurd rfl ho
  onward := .refl s

theorem ComesTo.ite {o p : LevelOutcome} {c : Prop} [Decidable c] (h : ComesTo s t n o) (k : ComesTo s u n p) :
    ComesTo s (if c then t else u) n (if c then o else p) := by
  split
  · exact h
  · exact k

/-! ## The single steps -/

theorem State.setTank_ow (s : State) (n : Ch) (st : TankState) :
    (s.setTank n st).ow = { s.ow with tanks := s.ow.tanks.set n { s.ow.tanks.get n with state := st } } := by
  rw [s.setTank_tanks]
  split
  · rename_i h
    rw [← h, Quad.set_state_self]
  · rfl

/-- R137: a tank's state that changes asks for a STATUS. -/
theorem State.setTank_asks (hr : s.running = true) (h : st ≠ (s.ow.tanks.get n).state) :
    (s.setTank n st).lc.status.isSome = true := by
  have hput : (s.putTank n { s.ow.tanks.get n with state := st }).running = true := hr
  unfold State.setTank
  rw [if_neg (Ne.symm h)]
  exact State.askStatus_placed hput

theorem State.setTank_comesTo (s : State) (n : Ch) (st : TankState) :
    ComesTo s (s.setTank n st) n ⟨st, s.ow.claim, false⟩ where
  ow := s.setTank_ow n st
  stays _ := ((s.setTank_keeps n st).part .channels (by decide)).1
  closes := nofun
  asks := State.setTank_asks
  onward := s.setTank_onward n st

/-- R130: a claim begun. -/
theorem State.startClaim_comesTo (s : State) (n : Ch) :
    ComesTo s (s.startClaim n) n ⟨(s.ow.tanks.get n).state, ⟨true, some n, .fromZero⟩, false⟩ where
  ow := by
    rw [State.startClaim, State.setClaim_ow, Quad.set_state_self]
  stays _ := ((s.startClaim_keeps n).part .channels (by decide)).1
  closes := nofun
  asks _ ho := absurd rfl ho
  onward := s.setClaim_onward _ _ _

/-- R123: a full tank closes its channel. -/
theorem State.fullClosed_comesTo (s : State) (n : Ch) :
    ComesTo s ((s.setTank n .full).closeChannel n) n ⟨.full, s.ow.claim, true⟩ where
  ow := ((State.closeChannel_keeps _ n).part .tanks (by decide) : _ = _).trans (s.setTank_ow n .full)
  stays := nofun
  closes _ := ⟨State.closeChannel_closes _ n, fun m hm => by
    rw [State.closeChannel_others _ hm, ((s.setTank_keeps n .full).part .channels (by decide)).1]⟩
  asks hr ho := (State.putChannel_onward _ n _).status (State.setTank_asks hr ho)
  onward := (s.setTank_onward n .full).trans (State.putChannel_onward _ n _)

theorem State.stepFilling_comesTo (s : State) (n : Ch) (v : Nat) :
    ComesTo s (s.stepFilling n v) n
      (if (s.ow.tanks.get n).state = .opened ∧ (s.ow.tanks.get n).startLevel + 10 ≤ v then
        ⟨.filling, s.ow.claim, false⟩ else ⟨(s.ow.tanks.get n).state, s.ow.claim, false⟩) :=
  (s.setTank_comesTo n .filling).ite (.refl s n)

theorem State.stepTopping_comesTo (s : State) (n : Ch) (v : Nat) :
    ComesTo s (s.stepTopping n v) n
      (if ((s.ow.tanks.get n).state = .opened ∨ (s.ow.tanks.get n).state = .filling)
          ∧ (s.sl.setup.tanks.get n).topping ≤ v then ⟨.topping, s.ow.claim, false⟩
        else ⟨(s.ow.tanks.get n).state, s.ow.claim, false⟩) :=
  (s.setTank_comesTo n .topping).ite (.refl s n)

theorem State.stepTarget_comesTo (s : State) (n : Ch) (v : Nat) :
    ComesTo s (s.stepTarget n v) n (s.targetOutcome n v (s.ow.tanks.get n).state) :=
  .ite (.ite (s.fullClosed_comesTo n) (.ite (.refl s n) (.ite (s.startClaim_comesTo n) (s.setTank_comesTo n .held))))
    (.refl s n)

/-! ## The steps together -/

/-- The tank has taken the steps below its target. -/
def State.raisedTo (s : State) (n : Ch) (v : Nat) : State := (s.stepFilling n v).stepTopping n v

theorem State.raisedTo_keeps (s : State) (n : Ch) (v : Nat) : Keeps tankParts s (s.raisedTo n v) :=
  (s.stepFilling_keeps n v).trans (State.stepTopping_keeps _ n v)

theorem State.raisedTo_comesTo (s : State) (n : Ch) (v : Nat) :
    ComesTo s (s.raisedTo n v) n
      ⟨(s.ow.tanks.get n).reached (s.sl.setup.tanks.get n).topping v, s.ow.claim, false⟩ := by
  have hk := s.stepFilling_keeps n v
  have hsl : (s.stepFilling n v).sl = s.sl := hk.part .setup (by decide)
  have hfilling := s.stepFilling_comesTo n v
  have htopping := (s.stepFilling n v).stepTopping_comesTo n v
  rw [hsl] at htopping
  unfold State.raisedTo
  by_cases h : (s.ow.tanks.get n).state = .opened ∧ (s.ow.tanks.get n).startLevel + 10 ≤ v
  · rw [if_pos h] at hfilling
    rw [hfilling.tank, hfilling.claim] at htopping
    convert hfilling.trans htopping (hk.running (by decide)) using 1
    unfold Tank.reached
    rw [if_pos h]
    simp only [h.1, reduceCtorEq, or_true, true_or]
    split
    · rfl
    · rfl
  · rw [if_neg h] at hfilling
    rw [hfilling.tank, hfilling.claim] at htopping
    convert hfilling.trans htopping (hk.running (by decide)) using 1
    unfold Tank.reached
    rw [if_neg h]
    split
    · rfl
    · rfl

theorem State.otherOpen_iff (s : State) (n : Ch) :
    s.otherOpen n = true ↔ ∃ m, m ≠ n ∧ s.tankUsed m = true ∧ (s.ow.tanks.get m).state.isOpen = true := by
  rw [State.otherOpen, s.tanksUsed_any]
  simp only [Bool.and_eq_true, bne_iff_ne]
  exact exists_congr fun m => and_left_comm

theorem TankState.isOpen_iff (x : TankState) : x.isOpen = true ↔ x = .opened ∨ x = .filling ∨ x = .topping := by
  cases x <;> simp [TankState.isOpen]

/-- R123, R124: what the target level asks of the other tanks, the claim and the table. -/
theorem Keeps.targetOutcome {T : List Part} (k : Keeps T s t)
    (hT : decide (Part.setup ∉ T ∧ Part.roster ∉ T ∧ Part.generation ∉ T) = true) (hclaim : t.ow.claim = s.ow.claim)
    (hothers : ∀ m, m ≠ n → (t.ow.tanks.get m).state = (s.ow.tanks.get m).state) (v : Nat) (st : TankState) :
    t.targetOutcome n v st = s.targetOutcome n v st := by
  obtain ⟨hsetup, -⟩ := of_decide_eq_true hT
  have hsl : t.sl = s.sl := k.frame .setup hsetup
  have hopen : t.otherOpen n = s.otherOpen n := by
    rw [Bool.eq_iff_iff, State.otherOpen_iff, State.otherOpen_iff]
    refine exists_congr fun m => and_congr_right fun hm => ?_
    rw [k.tankUsed (decide_eq_true hsetup), hothers m hm]
  simp only [State.targetOutcome, hsl, hopen, hclaim, k.peerRoute hT]

/-- R122 to R124: the level steps bring the tank to its outcome. -/
theorem State.levelSteps_comesTo (s : State) (n : Ch) (v : Nat) :
    ComesTo s (s.levelSteps n v) n (s.levelOutcome n v) := by
  have hraised := s.raisedTo_comesTo n v
  have hk := s.raisedTo_keeps n v
  have htarget := (s.raisedTo n v).stepTarget_comesTo n v
  rw [hraised.tank, hk.targetOutcome (by decide) hraised.claim fun m hm => by rw [hraised.others hm]] at htarget
  exact .ite (hraised.trans htarget (hk.running (by decide))) (.refl s n)

/-- What the outcome of a level reads of the tank that has it. -/
theorem Keeps.levelOutcome {T : List Part} (k : Keeps T s t)
    (hT : decide (Part.setup ∉ T ∧ Part.roster ∉ T ∧ Part.generation ∉ T ∧ Part.station ∉ T ∧ Part.phase ∉ T) = true)
    (hclaim : t.ow.claim = s.ow.claim) (hothers : ∀ m, m ≠ n → t.ow.tanks.get m = s.ow.tanks.get m)
    (hstate : (t.ow.tanks.get n).state = (s.ow.tanks.get n).state)
    (hstart : (t.ow.tanks.get n).startLevel = (s.ow.tanks.get n).startLevel) (v : Nat) :
    t.levelOutcome n v = s.levelOutcome n v := by
  obtain ⟨hsetup, hroster, hgen, hstation, hphase⟩ := of_decide_eq_true hT
  have hsl : t.sl = s.sl := k.frame .setup hsetup
  obtain ⟨hp, -, -⟩ := k.frame .phase hphase
  have htarget := k.targetOutcome (n := n) (decide_eq_true ⟨hsetup, hroster, hgen⟩) hclaim
    (fun m hm => by rw [hothers m hm]) v
  simp only [State.levelOutcome, Tank.reached, k.running (decide_eq_true hstation), hp, hsl, hclaim, hstate, hstart,
    htarget]

/-! ## The outcomes, case by case -/

section Outcomes

/-- R122: outside the active phases a level does nothing. -/
theorem State.levelOutcome_inactive (h : s.pc.phase.active = false) :
    s.levelOutcome n v = ⟨(s.ow.tanks.get n).state, s.ow.claim, false⟩ := if_neg (by simp [h])

/-- R122: a level does nothing to a tank that is not open. -/
theorem State.levelOutcome_shut (h : (s.ow.tanks.get n).state.isOpen = false) :
    s.levelOutcome n v = ⟨(s.ow.tanks.get n).state, s.ow.claim, false⟩ := by
  have hreached : (s.ow.tanks.get n).reached (s.sl.setup.tanks.get n).topping v = (s.ow.tanks.get n).state := by
    unfold Tank.reached
    cases hst : (s.ow.tanks.get n).state <;> simp_all [TankState.isOpen]
  have htarget : s.targetOutcome n v (s.ow.tanks.get n).state = ⟨(s.ow.tanks.get n).state, s.ow.claim, false⟩ :=
    if_neg (by simp [h])
  rw [State.levelOutcome, hreached, htarget, ite_self]

/-- R122: the steps below the target leave an open tank open. -/
theorem Tank.reached_isOpen {a : Tank} {topping : Nat} (h : a.state.isOpen = true) :
    (a.reached topping v).isOpen = true := by
  unfold Tank.reached
  split
  · rfl
  · split
    · rfl
    · exact h

variable (hr : s.running = true) (hp : s.pc.phase.active = true)
include hr hp

theorem State.levelOutcome_active :
    s.levelOutcome n v = s.targetOutcome n v ((s.ow.tanks.get n).reached (s.sl.setup.tanks.get n).topping v) :=
  if_pos (by simp [hr, hp])

/-- R122: below its target a tank takes the state it has reached. -/
theorem State.levelOutcome_below (hv : v < (s.sl.setup.tanks.get n).target) :
    s.levelOutcome n v
      = ⟨(s.ow.tanks.get n).reached (s.sl.setup.tanks.get n).topping v, s.ow.claim, false⟩ :=
  (State.levelOutcome_active hr hp).trans (if_neg fun h => Nat.not_le.2 hv h.2)

variable (ho : (s.ow.tanks.get n).state.isOpen = true) (hv : (s.sl.setup.tanks.get n).target ≤ v)
include ho hv

/-- R123, R124: at its target an open tank is full, or its claim is looked at. -/
theorem State.levelOutcome_target :
    s.levelOutcome n v
      = if s.otherOpen n then ⟨.full, s.ow.claim, true⟩
        else if s.ow.claim.waiting then
          ⟨(s.ow.tanks.get n).reached (s.sl.setup.tanks.get n).topping v, s.ow.claim, false⟩
        else if s.peerRoute then
          ⟨(s.ow.tanks.get n).reached (s.sl.setup.tanks.get n).topping v, ⟨true, some n, .fromZero⟩, false⟩
        else ⟨.held, s.ow.claim, false⟩ :=
  (State.levelOutcome_active hr hp).trans (if_pos ⟨Tank.reached_isOpen ho, hv⟩)

/-- R123: where another tank is open, the tank is FULL. -/
theorem State.levelOutcome_full (h : s.otherOpen n = true) : s.levelOutcome n v = ⟨.full, s.ow.claim, true⟩ :=
  (State.levelOutcome_target hr hp ho hv).trans (if_pos h)

variable (hlast : s.otherOpen n = false)
include hlast

/-- R124: the channel of the last open tank stays. -/
theorem State.levelOutcome_stays : (s.levelOutcome n v).closes = false := by
  rw [State.levelOutcome_target hr hp ho hv, if_neg (by simp [hlast])]
  split
  · rfl
  · split
    · rfl
    · rfl

/-- R124: the last open tank waits for the claim under way. -/
theorem State.levelOutcome_waits (hw : s.ow.claim.waiting = true) :
    s.levelOutcome n v
      = ⟨(s.ow.tanks.get n).reached (s.sl.setup.tanks.get n).topping v, s.ow.claim, false⟩ := by
  rw [State.levelOutcome_target hr hp ho hv, if_neg (by simp [hlast]), if_pos hw]

variable (hw : s.ow.claim.waiting = false)
include hw

/-- R124, R130: the last open tank claims where a peer's route is open. -/
theorem State.levelOutcome_claims (hroute : s.peerRoute = true) :
    s.levelOutcome n v
      = ⟨(s.ow.tanks.get n).reached (s.sl.setup.tanks.get n).topping v, ⟨true, some n, .fromZero⟩, false⟩ := by
  rw [State.levelOutcome_target hr hp ho hv, if_neg (by simp [hlast]), if_neg (by simp [hw]), if_pos hroute]

/-- R124: with no route open the last open tank is HELD. -/
theorem State.levelOutcome_holds (hroute : s.peerRoute = false) :
    s.levelOutcome n v = ⟨.held, s.ow.claim, false⟩ := by
  rw [State.levelOutcome_target hr hp ho hv, if_neg (by simp [hlast]), if_neg (by simp [hw]), if_neg (by simp [hroute])]

end Outcomes

/-! ## The parts touched at TW -/

/-- R109: at a station without hose valves no drive is told to HW. -/
theorem State.putChannel_plain (hv : s.valveRole = false) (c : Channel) :
    s.putChannel n c = ({ s with vp := { s.vp with channels := s.vp.channels.set n c } } : State).askStatusIf
      (s.channelUsed n && (s.vp.channels.get n).state != c.state) := if_neg (by simp [hv])

theorem State.valveRole_tw (htw : s.hasRole .tw = true) : s.valveRole = false := by
  rw [State.hasRole_iff] at htw
  simp [State.valveRole, State.hasRole, htw]

theorem State.closeChannel_tw_keeps (n : Ch) (htw : s.hasRole .tw = true) :
    Keeps [.channels, .frames] s (s.closeChannel n) := by
  have hk := s.closeChannel_keeps n
  refine ⟨?_, hk.sound, hk.events, hk.quiet⟩
  rw [State.closeChannel, State.putChannel_plain (State.valveRole_tw htw)]
  exact ((s.putChannels_frame _).mono (by decide)).trans ((State.askStatusIf_keeps _ _).frame.mono (by decide))

/-- The parts the level steps may touch at TW. -/
def levelParts : List Part := [.tanks, .channels, .frames, .reports]

theorem State.levelSteps_tw_keeps (n : Ch) (v : Nat) (htw : s.hasRole .tw = true) :
    Keeps levelParts s (s.levelSteps n v) := by
  have hraised := s.raisedTo_keeps n v
  have htarget : Keeps levelParts (s.raisedTo n v) ((s.raisedTo n v).stepTarget n v) := by
    refine Keeps.iteSelf (Keeps.ite ?_ (Keeps.ite (.refl _ _) (Keeps.ite ?_ ?_)))
    · have hset := (s.raisedTo n v).setTank_keeps n .full
      exact (hset.mono (by decide)).trans ((State.closeChannel_tw_keeps n
        (((hraised.trans hset).hasRole (by decide) _).trans htw)).mono (by decide))
    · exact (State.startClaim_keeps _ _).mono (by decide)
    · exact (State.setTank_keeps _ _ _).mono (by decide)
  exact Keeps.iteSelf ((hraised.mono (by decide)).trans htarget)

end Sys2Proof.Machine
end

section
/-! SUPPORT. A good level reading at a TW: the level taken and what it hands on (R118, R126, R127), and what judges it (R134
to R136). -/

namespace Sys2Proof.Machine

variable {s t : State} {n : Ch} {v : Nat} {first : Bool}

/-! ## The level taken (R118, R126, R127) -/

/-- R118, R126, R127: a tank with a level measured in RUNNING. -/
def Tank.measured (a : Tank) (c : TankSetup) (hh : Bool) (v : Nat) : Tank :=
  { a with
    level := some v, levelValid := true, highAlarm := a.highAlarmAfter v c.high
    overfill := hh || decide (c.highHigh ≤ v) }

/-- R118, R127: a tank takes a level, and its overfill condition is evaluated. -/
def State.levelTaken (s : State) (n : Ch) (v : Nat) : State :=
  (s.putTank n ((s.ow.tanks.get n).takeLevel v (s.sl.setup.tanks.get n).high s.running)).takeOverfill n

theorem State.levelTaken_keeps (s : State) (n : Ch) (v : Nat) : Keeps [.tanks] s (s.levelTaken n v) :=
  (s.putTank_keeps _ _).trans (State.takeOverfill_keeps _ n)

/-- The tank of number `n` measured at a level. -/
def State.measuredTank (s : State) (n : Ch) (v : Nat) : Tank :=
  (s.ow.tanks.get n).measured (s.sl.setup.tanks.get n) (s.inputs.hh.get n) v

theorem State.levelTaken_ow (hr : s.running = true) (hu : s.tankUsed n = true) :
    (s.levelTaken n v).ow = { s.ow with tanks := s.ow.tanks.set n (s.measuredTank n v) } := by
  have hused (a : Tank) : (s.putTank n a).tankUsed n = true := hu
  have hget (a : Tank) : (s.putTank n a).ow.tanks.get n = a := Quad.get_set_self _ _ _
  rw [State.levelTaken, State.takeOverfill, hused, hget, hr]
  simp [State.putTank, Quad.set_set, Tank.takeLevel, Tank.overfillNow, State.measuredTank, Tank.measured]

/-- R126: the high alarm with its band of 50 mm. -/
theorem Tank.highAlarmAfter_on {a : Tank} {high : Nat} (h : high ≤ v) : a.highAlarmAfter v high = true := if_pos h

theorem Tank.highAlarmAfter_off {a : Tank} {high : Nat} (h : v + 50 < high) : a.highAlarmAfter v high = false :=
  (if_neg (by omega)).trans (if_pos (by omega))

theorem Tank.highAlarmAfter_kept {a : Tank} {high : Nat} (h : v < high) (hband : high ≤ v + 50) :
    a.highAlarmAfter v high = a.highAlarm := (if_neg (by omega)).trans (if_neg (by omega))

/-! ## What the level hands on (R118) -/

/-- R118: the high alarm and the overfill condition are handed on before the level steps. -/
def State.levelHanded (s : State) (n : Ch) (v : Nat) : State := (s.levelTaken n v).handTankFacts n

theorem State.levelHanded_keeps (s : State) (n : Ch) (v : Nat) :
    Keeps [.tanks, .alarms, .reports, .timers] s (s.levelHanded n v) :=
  ((s.levelTaken_keeps n v).mono (by decide)).trans ((State.handTankFacts_keeps _ n).mono (by decide))

theorem State.levelHanded_ow (s : State) (n : Ch) (v : Nat) : (s.levelHanded n v).ow = (s.levelTaken n v).ow :=
  (State.handTankFacts_keeps _ n).part .tanks (by decide)

/-- R62: the OVERFILL timers take the conditions as they stand. -/
theorem State.handTankFacts_overfill (s : State) (n m : Ch) :
    (s.handTankFacts n).tu.overfill.get m = (s.tu.overfill.get m).take (s.overfillPresent m) := by
  cases m <;> rfl

/-- R76: the HIGHLEVEL alarm of a tank reads the station state, the tanks in use and the tank. -/
theorem Keeps.highLevel {T : List Part} (k : Keeps T s t)
    (hT : decide (Part.station ∉ T ∧ Part.setup ∉ T ∧ Part.tanks ∉ T) = true) :
    t.alarmCondition (.highlevel n) = s.alarmCondition (.highlevel n) := by
  obtain ⟨hstation, hsetup, htanks⟩ := of_decide_eq_true hT
  have how : t.ow = s.ow := k.frame .tanks htanks
  simp only [State.alarmCondition, k.running (decide_eq_true hstation), k.tankUsed (decide_eq_true hsetup), how]

/-- R126: a high alarm without an entry is raised as it is handed on. -/
theorem State.handTankFacts_raises (hc : s.alarmCondition (.highlevel n) = true)
    (h : alarmEntry s.an.set (.highlevel n) = none) : (s.handTankFacts n).raised (.highlevel n) :=
  alarmSweep_raises (l := [.highlevel n]) hc List.mem_cons_self h

/-- R126: an alarm raised stays raised as the levels are watched. -/
theorem State.watch_highLevel (hc : s.alarmCondition (.highlevel n) = true) (h : s.raised (.highlevel n)) :
    s.watch.raised (.highlevel n) := by
  refine State.watch_raises ?_ ?_ (.inr h)
  · simp [State.alarmKeys, Ch.mem_all]
  · rw [s.leveled_keeps.highLevel (by decide), s.watchTimers_keeps.highLevel (by decide), hc]

theorem QualTimer.take_take (q : QualTimer) (b : Bool) : (q.take b).take b = q.take b := by
  unfold QualTimer.take
  cases b with
  | false => rfl
  | true =>
    cases hq : q.armed with
    | false => rfl
    | true => simp [hq]

/-! ## The level steps at a reading -/

/-- The tank has taken its level and its level steps. -/
def State.levelStepped (s : State) (n : Ch) (v : Nat) : State := (s.levelHanded n v).levelSteps n v

/-- The parts a reading may touch before the record is judged. -/
def readingParts : List Part := [.tanks, .alarms, .timers, .channels, .frames, .reports]

theorem State.levelStepped_keeps (n : Ch) (v : Nat) (htw : s.hasRole .tw = true) :
    Keeps readingParts s (s.levelStepped n v) := by
  have hhanded := s.levelHanded_keeps n v
  exact (hhanded.mono (by decide)).trans
    ((State.levelSteps_tw_keeps n v ((hhanded.hasRole (by decide) _).trans htw)).mono (by decide))

section Stepped

variable (hr : s.running = true) (hu : s.tankUsed n = true)
include hr hu

/-- The facts handed on leave what the level steps read. -/
theorem State.levelHanded_outcome : (s.levelHanded n v).levelOutcome n v = s.levelOutcome n v := by
  have how := (s.levelHanded_ow n v).trans (State.levelTaken_ow hr hu)
  have htank : (s.levelHanded n v).ow.tanks.get n = s.measuredTank n v := by rw [how]; exact Quad.get_set_self _ _ _
  refine (s.levelHanded_keeps n v).levelOutcome (by decide) (by rw [how]) (fun m hm => ?_) ?_ ?_ v
  · rw [how]
    exact Quad.get_set_of_ne _ hm _
  · rw [htank]
    rfl
  · rw [htank]
    rfl

theorem State.levelStepped_comesTo :
    ComesTo (s.levelHanded n v) (s.levelStepped n v) n (s.levelOutcome n v) := by
  rw [← State.levelHanded_outcome hr hu]
  exact (s.levelHanded n v).levelSteps_comesTo n v

/-- R118 to R124: the Overflow Watch after the level steps of a reading. -/
theorem State.levelStepped_ow :
    (s.levelStepped n v).ow
      = { s.ow with
          tanks := s.ow.tanks.set n { s.measuredTank n v with state := (s.levelOutcome n v).state }
          claim := (s.levelOutcome n v).claim } := by
  have how := (s.levelHanded_ow n v).trans (State.levelTaken_ow (v := v) hr hu)
  rw [(State.levelStepped_comesTo hr hu).ow, how]
  simp only [Quad.set_set, Quad.get_set_self]

end Stepped

/-! ## What a reading is judged by (R134 to R136) -/

/-- R135: a reading restarts the settle window. -/
def State.Resettles (s : State) (n : Ch) (v : Nat) (first : Bool) : Prop :=
  s.ow.receipt = .settling ∧ (s.ow.tanks.get n).takingPart = true
    ∧ (first = true ∨ movedFrom (s.ow.tanks.get n).reference v = true)

/-- R134 to R136: ALLFULL, the received quantity and the settle window. -/
def State.levelJudged (s : State) (n : Ch) (v : Nat) (first : Bool) : State :=
  (s.judgeAllFull.receivedReading n).settleReading n v first

theorem State.receivedReading_keeps (s : State) (n : Ch) : Keeps [.tanks] s (s.receivedReading n) :=
  s.takeOwnReceived_keeps.iteSelf

theorem State.levelJudged_keeps (s : State) (n : Ch) (v : Nat) (first : Bool) :
    Keeps tankParts s (s.levelJudged n v first) :=
  (s.judgeAllFull_keeps.trans ((State.receivedReading_keeps _ n).mono (by decide))).trans
    ((State.settleReading_keeps _ n v first).mono (by decide))

theorem State.levelJudged_onward (s : State) (n : Ch) (v : Nat) (first : Bool) : Onward s (s.levelJudged n v first) := by
  have hfull : Onward s s.judgeAllFull := (s.setReceipt_onward _).iteSelf
  have hown (u : State) : Onward u u.takeOwnReceived := (Onward.refl u).ite (u.putTanks_onward _)
  have hsettle (u : State) : Onward u (u.settleReading n v first) := Onward.iteSelf (u.putTanks_onward _)
  exact (hfull.trans (hown _).iteSelf).trans (hsettle _)

/-- R136: a reading of a tank taking part recomputes the received quantity. -/
theorem State.receivedReading_counts (hp : (s.ow.tanks.get n).takingPart = true) (hn : s.ow.receipt ≠ .none) :
    (s.receivedReading n).ow = { s.ow with received := s.ownReceived } := by
  rw [State.receivedReading, if_pos hp, State.takeOwnReceived, if_neg hn]

theorem State.receivedReading_leaves (h : (s.ow.tanks.get n).takingPart = false ∨ s.ow.receipt = .none) :
    s.receivedReading n = s := by
  unfold State.receivedReading
  rcases h with h | h
  · exact if_neg (by simp [h])
  · rw [State.takeOwnReceived, if_pos h, ite_self]

theorem Timer.held_eq (b : Bool) : (if b then Timer.stopped else Timer.fromZero) = ⟨!b, 0⟩ := by cases b <;> rfl

/-- The Overflow Watch with a level as a tank's reference. -/
def OverflowWatch.referTo (o : OverflowWatch) (n : Ch) (v : Nat) : OverflowWatch :=
  { o with tanks := o.tanks.set n { o.tanks.get n with reference := v } }

/-- R135: a reading that restarts the settle window becomes the reference. -/
theorem State.settleReading_restarts (h : s.Resettles n v first) :
    (s.settleReading n v first).ow
      = { s.ow.referTo n v with settleWindow := ⟨!(s.ow.referTo n v).windowHeld, 0⟩ } := by
  refine (congrArg State.ow (if_pos h)).trans ?_
  rw [← Timer.held_eq]
  rfl

/-- R135: any other reading leaves the settle window and the reference. -/
theorem State.settleReading_leaves (h : ¬ s.Resettles n v first) : s.settleReading n v first = s := if_neg h

/-- What judges a tank leaves of it, apart from its reference. -/
theorem State.settleReading_tanks (s : State) (n m : Ch) (v : Nat) (first : Bool) :
    ∃ x, (s.settleReading n v first).ow.tanks.get m = { s.ow.tanks.get m with reference := x } := by
  by_cases h : s.Resettles n v first
  · rw [State.settleReading_restarts h]
    by_cases hm : m = n
    · subst hm
      exact ⟨v, Quad.get_set_self _ _ _⟩
    · exact ⟨_, Quad.get_set_of_ne _ hm _⟩
  · rw [State.settleReading_leaves h]
    exact ⟨_, rfl⟩

end Sys2Proof.Machine
end

section
/-! SUPPORT and the proof of O54: what judges a tank's level, and the whole of a good reading at TW (R105, R134 to R136). -/

namespace Sys2Proof.Machine

variable {s t : State} {n : Ch} {v : Nat} {first : Bool}

/-! ## The tanks, their references apart -/

/-- The tanks are the same, their references apart. -/
def SameTanks (q q' : Quad Tank) : Prop := ∀ m, ∃ x, q'.get m = { q.get m with reference := x }

/-- R134: ALLFULL reads no reference. -/
theorem SameTanks.allFull {q q' : Quad Tank} (h : SameTanks q q') : AllFull q' ↔ AllFull q := by
  have hsame (m : Ch) : (q'.get m).takingPart = (q.get m).takingPart ∧ (q'.get m).state = (q.get m).state := by
    obtain ⟨x, hx⟩ := h m
    rw [hx]
    exact ⟨rfl, rfl⟩
  simp only [AllFull, fun m => (hsame m).1, fun m => (hsame m).2]

theorem FullJudged.tanks {q q' : Quad Tank} {before after : ReceiptState} (h : FullJudged q before after)
    (hq : SameTanks q q') : FullJudged q' before after :=
  ⟨h.kept, fun hr ha => h.full hr (hq.allFull.1 ha), fun hr ha => h.filling hr fun hn => ha (hq.allFull.2 hn)⟩

/-- R134: the judgement leaves and enters no receipt state but RECEIVING and ALLFULL. -/
theorem FullJudged.eq_iff {q : Quad Tank} {before after r : ReceiptState} (h : FullJudged q before after)
    (hr : r ≠ .receiving) (ha : r ≠ .allfull) : after = r ↔ before = r := by
  by_cases hb : before = .receiving
  · by_cases hq : AllFull q
    · simp [h.full hb hq, hb, Ne.symm hr, Ne.symm ha]
    · simp [h.filling hb hq, hb]
  · rw [h.kept hb]

/-- R136: the received quantity reads no reference. -/
theorem SameTanks.ownReceived (h : SameTanks s.ow.tanks t.ow.tanks) (hsl : t.sl = s.sl) :
    t.ownReceived = s.ownReceived := by
  have hlitres (m : Ch) : (t.ow.tanks.get m).receivedLitres (t.sl.setup.tanks.get m).litresPerMm
      = (s.ow.tanks.get m).receivedLitres (s.sl.setup.tanks.get m).litresPerMm := by
    obtain ⟨x, hx⟩ := h m
    rw [hx, hsl]
    rfl
  simp only [State.ownReceived, hlitres]

/-! ## The judgement -/

/-- The judgement of a tank's reading from `s` to `t` leaves the tanks, its own reference apart, and the claim. -/
structure TanksJudged (s t : State) (n : Ch) : Prop where
  tanks : SameTanks s.ow.tanks t.ow.tanks
  others : ∀ m, m ≠ n → t.ow.tanks.get m = s.ow.tanks.get m
  claim : t.ow.claim = s.ow.claim

/-- What ALLFULL, the received quantity and the settle window come to from `s` to `t`, at a reading of one tank. -/
structure ReceiptJudged (s t : State) (n : Ch) (v : Nat) (first : Bool) : Prop where
  full : FullJudged t.ow.tanks s.ow.receipt t.ow.receipt
  counts : (s.ow.tanks.get n).takingPart = true → s.ow.receipt ≠ .none → t.ow.received = t.ownReceived
  uncounted : (s.ow.tanks.get n).takingPart = false ∨ s.ow.receipt = .none → t.ow.received = s.ow.received
  restarts : s.Resettles n v first →
    (t.ow.tanks.get n).reference = v ∧ t.ow.settleWindow = ⟨!t.ow.windowHeld, 0⟩
  settles : ¬ s.Resettles n v first →
    (t.ow.tanks.get n).reference = (s.ow.tanks.get n).reference ∧ t.ow.settleWindow = s.ow.settleWindow
  limit : t.ow.settleLimit = s.ow.settleLimit

/-- R135: the settle window is looked at in SETTLING, which ALLFULL does not touch. -/
theorem State.resettles_congr (htanks : t.ow.tanks = s.ow.tanks)
    (hr : t.ow.receipt = .settling ↔ s.ow.receipt = .settling) : t.Resettles n v first ↔ s.Resettles n v first := by
  simp only [State.Resettles, htanks, hr]

/-- R135: the settle window judged alone. -/
theorem State.settleReading_judged (s : State) (n : Ch) (v : Nat) (first : Bool) :
    (s.Resettles n v first → ((s.settleReading n v first).ow.tanks.get n).reference = v
        ∧ (s.settleReading n v first).ow.settleWindow = ⟨!(s.settleReading n v first).ow.windowHeld, 0⟩)
      ∧ (¬ s.Resettles n v first → s.settleReading n v first = s)
      ∧ (∀ m, m ≠ n → (s.settleReading n v first).ow.tanks.get m = s.ow.tanks.get m)
      ∧ ∃ q x, (s.settleReading n v first).ow = { s.ow with tanks := q, settleWindow := x } := by
  by_cases h : s.Resettles n v first
  · rw [State.settleReading_restarts h]
    exact ⟨fun _ => ⟨congrArg Tank.reference (Quad.get_set_self _ _ _), rfl⟩, fun hn => absurd h hn,
      fun m hm => Quad.get_set_of_ne _ hm _, _, _, rfl⟩
  · rw [State.settleReading_leaves h]
    exact ⟨fun hn => absurd hn h, fun _ => rfl, fun _ _ => rfl, _, _, rfl⟩

/-- R134, R136: ALLFULL and the received quantity together. -/
theorem State.receivedFull_ow (s : State) (n : Ch) :
    ∃ r x, (s.judgeAllFull.receivedReading n).ow = { s.ow with receipt := r, received := x }
      ∧ FullJudged s.ow.tanks s.ow.receipt r
      ∧ ((s.ow.tanks.get n).takingPart = true → s.ow.receipt ≠ .none → x = s.ownReceived)
      ∧ ((s.ow.tanks.get n).takingPart = false ∨ s.ow.receipt = .none → x = s.ow.received) := by
  obtain ⟨r, hr, hfull⟩ := s.judgeAllFull_ow
  have htanks : s.judgeAllFull.ow.tanks = s.ow.tanks := by rw [hr]
  have hreceipt : s.judgeAllFull.ow.receipt = r := by rw [hr]
  have hnone : r = .none ↔ s.ow.receipt = .none := hfull.eq_iff nofun nofun
  have hown : s.judgeAllFull.ownReceived = s.ownReceived :=
    SameTanks.ownReceived (fun m => ⟨_, by rw [htanks]⟩) (s.judgeAllFull_keeps.part .setup (by decide))
  by_cases hc : (s.ow.tanks.get n).takingPart = true ∧ s.ow.receipt ≠ .none
  · have hcounts := State.receivedReading_counts (s := s.judgeAllFull) (n := n) (by rw [htanks]; exact hc.1)
      (by rw [hreceipt, ne_eq, hnone]; exact hc.2)
    rw [hown, hr] at hcounts
    refine ⟨r, s.ownReceived, hcounts, hfull, fun _ _ => rfl, fun hn => ?_⟩
    exact hn.elim (fun hn => by simp [hn] at hc) fun hn => absurd hn hc.2
  · have hidle : (s.ow.tanks.get n).takingPart = false ∨ s.ow.receipt = .none := by
      by_contra hn
      simp only [not_or, Bool.not_eq_false] at hn
      exact hc hn
    rw [State.receivedReading_leaves (by rw [htanks, hreceipt, hnone]; exact hidle)]
    exact ⟨r, s.ow.received, hr, hfull, fun hp hn => absurd ⟨hp, hn⟩ hc, fun _ => rfl⟩

/-- R134 to R136: the judgement of a reading. -/
theorem State.levelJudged_judged (s : State) (n : Ch) (v : Nat) (first : Bool) :
    TanksJudged s (s.levelJudged n v first) n ∧ ReceiptJudged s (s.levelJudged n v first) n v first := by
  obtain ⟨r, x, how, hfull, hcounts, huncounted⟩ := s.receivedFull_ow n
  have hk := (s.judgeAllFull_keeps.trans ((State.receivedReading_keeps _ n).mono (by decide)))
  have hsl : (s.judgeAllFull.receivedReading n).sl = s.sl := hk.part .setup (by decide)
  have hsettling : (s.judgeAllFull.receivedReading n).Resettles n v first ↔ s.Resettles n v first := by
    refine State.resettles_congr (by rw [how]) ?_
    rw [how]
    exact hfull.eq_iff nofun nofun
  obtain ⟨hrestarts, hsettles, hothers, q, w, hz⟩ := (s.judgeAllFull.receivedReading n).settleReading_judged n v first
  have hsame : SameTanks s.ow.tanks (s.levelJudged n v first).ow.tanks := by
    have h := (s.judgeAllFull.receivedReading n).settleReading_tanks n (v := v) (first := first)
    rw [how] at h
    exact h
  have hown : (s.levelJudged n v first).ownReceived = s.ownReceived :=
    hsame.ownReceived (((State.settleReading_keeps _ n v first).part .setup (by decide) : _ = _).trans hsl)
  rw [hsettling] at hrestarts hsettles
  unfold State.levelJudged at hsame hown ⊢
  refine ⟨⟨hsame, fun m hm => ?_, ?_⟩, ?_, fun hp hn => ?_, fun h => ?_, hrestarts, fun h => ?_, ?_⟩
  · rw [hothers m hm, how]
  · rw [hz, how]
  · have hreceipt : ((s.judgeAllFull.receivedReading n).settleReading n v first).ow.receipt = r := by rw [hz, how]
    rw [hreceipt]
    exact hfull.tanks hsame
  · refine Eq.trans ?_ hown.symm
    rw [hz, how]
    exact hcounts hp hn
  · rw [hz, how]
    exact huncounted h
  · rw [hsettles h, how]
    exact ⟨rfl, rfl⟩
  · rw [hz, how]

/-- What a judgement reads, before it and after it. -/
theorem ReceiptJudged.congr {s' t' : State} (h : ReceiptJudged s t n v first) (hreceipt : s'.ow.receipt = s.ow.receipt)
    (hreceived : s'.ow.received = s.ow.received) (hwindow : s'.ow.settleWindow = s.ow.settleWindow)
    (hlimit : s'.ow.settleLimit = s.ow.settleLimit)
    (hpart : (s'.ow.tanks.get n).takingPart = (s.ow.tanks.get n).takingPart)
    (href : (s'.ow.tanks.get n).reference = (s.ow.tanks.get n).reference) (how : t'.ow = t.ow) (hsl : t'.sl = t.sl) :
    ReceiptJudged s' t' n v first := by
  have hresettles : s'.Resettles n v first ↔ s.Resettles n v first := by
    simp only [State.Resettles, hreceipt, hpart, href]
  have hown : t'.ownReceived = t.ownReceived := SameTanks.ownReceived (fun m => ⟨_, by rw [how]⟩) hsl
  constructor
  all_goals simp only [hreceipt, hreceived, hwindow, hlimit, hpart, href, how, hresettles, hown]
  · exact h.full
  · exact h.counts
  · exact h.uncounted
  · exact h.restarts
  · exact h.settles
  · exact h.limit

/-! ## The reading as a whole (R105, R118) -/

/-- A tank's reading, its level judged and not yet the record. -/
def State.tankRead (s : State) (n : Ch) (v : Nat) : State :=
  (s.levelStepped n v).levelJudged n v (!(s.ow.tanks.get n).levelValid)

theorem State.tankReading_eq (s : State) (n : Ch) (v : Nat) :
    s.tankReading n v = (s.tankRead n v).takeReceived.judgeEnds := rfl

/-- A tank's reading from its level to the next channel of the scan. -/
def State.tankScanned (s : State) (n : Ch) (v : Nat) : State := (s.tankReading n v).watch.advanceScan n

/-- The record judged, the levels watched and the scan moved on. -/
theorem State.tankScanned_from (s : State) (n : Ch) (v : Nat) :
    Keeps (watchParts ++ [.record, .scan]) (s.tankRead n v) (s.tankScanned n v) :=
  ((((State.takeReceived_keeps _).mono (by decide)).trans ((State.judgeEnds_keeps _).mono (by decide))).trans
    ((State.watch_keeps _).mono (by decide))).trans ((State.advanceScan_keeps _ n).mono (by decide))

theorem State.tankScanned_ow (s : State) (n : Ch) (v : Nat) : (s.tankScanned n v).ow = (s.tankRead n v).ow :=
  (s.tankScanned_from n v).part .tanks (by decide)

/-- R101: the scan that moves on leaves all but itself. -/
theorem State.tankScanned_watched (s : State) (n : Ch) (v : Nat) :
    (s.tankScanned n v).tu = (s.tankReading n v).watch.tu ∧ (s.tankScanned n v).an = (s.tankReading n v).watch.an
      ∧ (s.tankScanned n v).ow = (s.tankReading n v).watch.ow ∧ (s.tankScanned n v).lc = (s.tankReading n v).watch.lc :=
  ⟨rfl, rfl, rfl, rfl⟩

theorem State.tankScanned_reading (s : State) (n : Ch) (v : Nat) : (s.tankScanned n v).ow = (s.tankReading n v).ow := by
  rw [(s.tankScanned_watched n v).2.2.1]
  exact (s.tankReading n v).watch_keeps.part .tanks (by decide)

/-- The timers and the alarms stay from the facts handed on to the watching of the levels. -/
theorem State.tankReading_from (n : Ch) (v : Nat) (htw : s.hasRole .tw = true) :
    Keeps [.tanks, .channels, .frames, .reports, .record] (s.levelHanded n v) (s.tankReading n v) := by
  have hrole := ((s.levelHanded_keeps n v).hasRole (by decide) .tw).trans htw
  rw [s.tankReading_eq]
  exact ((((State.levelSteps_tw_keeps n v hrole).mono (by decide)).trans
    ((State.levelJudged_keeps _ n v _).mono (by decide))).trans ((State.takeReceived_keeps _).mono (by decide))).trans
    ((State.judgeEnds_keeps _).mono (by decide))

theorem State.tankScanned_frame (n : Ch) (v : Nat) (htw : s.hasRole .tw = true) :
    Frame (watchParts ++ [.tanks, .channels, .record, .scan]) s (s.tankScanned n v) := by
  have hread : Keeps readingParts s (s.tankRead n v) :=
    (State.levelStepped_keeps n v htw).trans ((State.levelJudged_keeps _ n v _).mono (by decide))
  exact (hread.frame.mono (by decide)).trans ((s.tankScanned_from n v).frame.mono (by decide))

/-- R105: a good reading of a tank's channel handed on. -/
theorem State.readingTaken_level (c : ScanChannel) (hu : s.tankUsed n = true) :
    s.readingTaken n (c, .value v) = ((s.readAt n c).tankReading n v).watch := by
  have htw := State.tw_of_tankUsed hu
  have hpressure : (s.readAt n c).pressureRole = false := State.pressureRole_of_other (.inl htw)
  have hused : (s.readAt n c).tankUsed n = true := hu
  have hon : (s.readAt n c).handOn n (.value v) = (s.readAt n c).tankReading n v := by
    simp [State.handOn, State.handReading, hpressure, hused]
  have hrole : ((s.readAt n c).tankReading n v).hasRole .tw = true :=
    ((State.tankReading_keeps _ n v).hasRole (by decide) _).trans htw
  rw [State.readingTaken, hon, State.evaluate_tw hrole]

/-- R102, R105: a good reading of a tank's channel out of fault. -/
theorem execScanReading_level {raw : BitVec 12} (hr : s.running = true) (hu : s.tankUsed n = true)
    (hs : s.hw.slot = some n) (hf : (s.hw.chans.get n).fault = false) (hlow : 40 < raw.toNat) (hhigh : raw.toNat < 4055)
    (hv : v = min 30000 (raw.toNat * (s.hw.chans.get n).span / 4095)) :
    ∃ c, exec (.scanReading raw) s = .next ((s.readAt n c).tankScanned n v) := by
  have hl : s.listening = true := by simp [State.listening, State.running_station hr]
  have hgood : badReading raw.toNat = false := by
    rw [badReading_eq]
    exact decide_eq_false (by omega)
  have hvalue : engineering raw.toNat (s.hw.chans.get n).span (s.hasRole .tw) = v := by
    rw [State.tw_of_tankUsed hu, hv]
    rfl
  have hread := ScanChannel.read_good (c := s.hw.chans.get n) (level := s.hasRole .tw) hf hgood
  rw [hvalue] at hread
  refine ⟨{ s.hw.chans.get n with lastRaw := some raw.toNat, badCount := 0, value := some v }, ?_⟩
  rw [execScanReading_reads hl hs, hread, State.readingTaken_level _ hu]
  rfl

/-- R62, R127: a tank in use reports its overfill condition. -/
theorem State.overfillPresent_used (hr : s.running = true) (hu : s.tankUsed n = true) :
    s.overfillPresent n = (s.ow.tanks.get n).overfill := by simp [State.overfillPresent, hr, hu]

/-- R76, R126: the HIGHLEVEL alarm of a tank in use stands with its high alarm. -/
theorem State.highLevel_used (hr : s.running = true) (hu : s.tankUsed n = true) :
    s.alarmCondition (.highlevel n) = (s.ow.tanks.get n).highAlarm := by simp [State.alarmCondition, hr, hu]

section Scanned

variable (hr : s.running = true) (hu : s.tankUsed n = true)
include hr hu

theorem State.levelStepped_tank :
    (s.levelStepped n v).ow.tanks.get n = { s.measuredTank n v with state := (s.levelOutcome n v).state } := by
  rw [State.levelStepped_ow hr hu]
  exact Quad.get_set_self _ _ _

theorem State.levelStepped_others {m : Ch} (hm : m ≠ n) :
    (s.levelStepped n v).ow.tanks.get m = s.ow.tanks.get m := by
  rw [State.levelStepped_ow hr hu]
  exact Quad.get_set_of_ne _ hm _

/-- R118 to R127: the tank after its reading, its reference apart. -/
theorem State.tankScanned_tank :
    ∃ x, (s.tankScanned n v).ow.tanks.get n
      = { s.measuredTank n v with state := (s.levelOutcome n v).state, reference := x } := by
  obtain ⟨x, hx⟩ := ((s.levelStepped n v).levelJudged_judged n v (!(s.ow.tanks.get n).levelValid)).1.tanks n
  rw [State.levelStepped_tank hr hu] at hx
  exact ⟨x, by rw [s.tankScanned_ow]; exact hx⟩

theorem State.tankScanned_others {m : Ch} (hm : m ≠ n) :
    (s.tankScanned n v).ow.tanks.get m = s.ow.tanks.get m := by
  rw [s.tankScanned_ow]
  exact (((s.levelStepped n v).levelJudged_judged n v _).1.others m hm).trans (State.levelStepped_others hr hu hm)

/-- R122 to R124, R130: the state, the claim and the channel an outcome of the level steps gives. -/
theorem State.tankScanned_outcome {o : LevelOutcome} (ho : s.levelOutcome n v = o) :
    ((s.tankScanned n v).ow.tanks.get n).state = o.state ∧ (s.tankScanned n v).ow.claim = o.claim
      ∧ (o.closes = false → (s.tankScanned n v).vp.channels = s.vp.channels)
      ∧ (o.closes = true → ((s.tankScanned n v).vp.channels.get n).Closes
        ∧ ∀ m, m ≠ n → (s.tankScanned n v).vp.channels.get m = s.vp.channels.get m) := by
  obtain ⟨x, hx⟩ := State.tankScanned_tank hr hu (v := v)
  have hcomes := State.levelStepped_comesTo hr hu (v := v)
  obtain ⟨hjudged, -⟩ := (s.levelStepped n v).levelJudged_judged n v (!(s.ow.tanks.get n).levelValid)
  obtain ⟨hbefore, -, -⟩ := (s.levelHanded_keeps n v).part .channels (by decide)
  obtain ⟨hafter, -, -⟩ := ((State.levelJudged_keeps (s.levelStepped n v) n v (!(s.ow.tanks.get n).levelValid)).mono
    (U := watchParts ++ [.tanks, .record, .scan]) (by decide)).trans ((s.tankScanned_from n v).mono (by decide))
      |>.part .channels (by decide)
  rw [ho] at hcomes hx
  rw [hafter, ← hbefore]
  refine ⟨by rw [hx], ?_, hcomes.stays, hcomes.closes⟩
  rw [s.tankScanned_ow]
  exact hjudged.claim.trans hcomes.claim

/-- R134 to R136: the receipt judged at a reading. -/
theorem State.tankScanned_receipt :
    ReceiptJudged s (s.tankScanned n v) n v (!(s.ow.tanks.get n).levelValid) := by
  have hstepped := State.levelStepped_ow hr hu (v := v)
  obtain ⟨-, hjudged⟩ := (s.levelStepped n v).levelJudged_judged n v (!(s.ow.tanks.get n).levelValid)
  refine hjudged.congr ?_ ?_ ?_ ?_ ?_ ?_ (s.tankScanned_ow n v) ((s.tankScanned_from n v).part .setup (by decide))
  · rw [hstepped]
  · rw [hstepped]
  · rw [hstepped]
  · rw [hstepped]
  · rw [State.levelStepped_tank hr hu]
    rfl
  · rw [State.levelStepped_tank hr hu]
    rfl

/-- R137: a changed tank asks for a STATUS. -/
theorem State.tankScanned_asks
    (h : ((s.tankScanned n v).ow.tanks.get n).state ≠ (s.ow.tanks.get n).state) :
    (s.tankScanned n v).lc.status.isSome = true := by
  obtain ⟨x, hx⟩ := State.tankScanned_tank hr hu (v := v)
  have hk := s.levelHanded_keeps n v
  have hstate : ((s.levelHanded n v).ow.tanks.get n).state = (s.ow.tanks.get n).state := by
    rw [s.levelHanded_ow, State.levelTaken_ow hr hu, Quad.get_set_self]
    rfl
  have hasked := (State.levelStepped_comesTo hr hu (v := v)).asks ((hk.running (by decide)).trans hr)
    (by rw [hstate]; exact fun ho => h (by rw [hx]; exact ho))
  rw [(s.tankScanned_watched n v).2.2.2]
  exact ((((State.levelJudged_onward _ n v _).trans (State.takeReceived_onward _)).trans
    (State.judgeEnds_onward _)).trans (State.watch_onward _)).status hasked

/-- R62, R127: the OVERFILL timer takes the overfill condition of the reading. -/
theorem State.tankScanned_timer :
    (s.tankScanned n v).tu.overfill.get n = (s.tu.overfill.get n).take (s.measuredTank n v).overfill := by
  have htw := State.tw_of_tankUsed hu
  have htaken := s.levelTaken_keeps n v
  have hreading := s.tankReading_keeps n v
  have htimers : (s.tankReading n v).tu.overfill = (s.levelHanded n v).tu.overfill :=
    ((State.tankReading_from n v htw).part .timers (by decide)).1
  have hbefore : (s.levelTaken n v).tu.overfill = s.tu.overfill := (htaken.part .timers (by decide)).1
  have hpresent : (s.levelTaken n v).overfillPresent n = (s.measuredTank n v).overfill := by
    rw [State.overfillPresent_used ((htaken.running (by decide)).trans hr) ((htaken.tankUsed (by decide) n).trans hu),
      State.levelTaken_ow hr hu, Quad.get_set_self]
  have hstill : (s.tankReading n v).overfillPresent n = (s.measuredTank n v).overfill := by
    obtain ⟨x, hx⟩ := State.tankScanned_tank hr hu (v := v)
    rw [State.overfillPresent_used ((hreading.running (by decide)).trans hr)
      ((hreading.tankUsed (by decide) n).trans hu), ← s.tankScanned_reading, hx]
  calc (s.tankScanned n v).tu.overfill.get n
      = (s.tankReading n v).watch.tu.overfill.get n := by rw [(s.tankScanned_watched n v).1]
    _ = ((s.levelHanded n v).tu.overfill.get n).take (s.measuredTank n v).overfill := by
      rw [State.watch_overfill, htimers, hstill]
    _ = ((s.tu.overfill.get n).take (s.measuredTank n v).overfill).take (s.measuredTank n v).overfill := by
      rw [State.levelHanded, State.handTankFacts_overfill, hbefore, hpresent]
    _ = (s.tu.overfill.get n).take (s.measuredTank n v).overfill := QualTimer.take_take _ _

/-- R126: a high alarm without an entry is raised. -/
theorem State.tankScanned_alarm (hh : (s.measuredTank n v).highAlarm = true)
    (h : alarmEntry s.an.set (.highlevel n) = none) : (s.tankScanned n v).raised (.highlevel n) := by
  have htaken := s.levelTaken_keeps n v
  have hreading := s.tankReading_keeps n v
  have hentry : alarmEntry (s.levelTaken n v).an.set (.highlevel n) = none := h
  have hraised : (s.levelHanded n v).raised (.highlevel n) := by
    refine State.handTankFacts_raises ?_ hentry
    rw [State.highLevel_used ((htaken.running (by decide)).trans hr) ((htaken.tankUsed (by decide) n).trans hu),
      State.levelTaken_ow hr hu, Quad.get_set_self, hh]
  have halarms : (s.tankReading n v).an = (s.levelHanded n v).an :=
    (State.tankReading_from n v (State.tw_of_tankUsed hu)).part .alarms (by decide)
  have hstands : (s.tankReading n v).raised (.highlevel n) := by
    rw [State.raised, halarms]
    exact hraised
  rw [State.raised, (s.tankScanned_watched n v).2.1]
  refine State.watch_highLevel ?_ hstands
  obtain ⟨x, hx⟩ := State.tankScanned_tank hr hu (v := v)
  rw [State.highLevel_used ((hreading.running (by decide)).trans hr) ((hreading.tankUsed (by decide) n).trans hu),
    ← s.tankScanned_reading, hx]
  exact hh

end Scanned

/-- R127: the overfill condition of a tank that is measured. -/
theorem Tank.measured_overfill (a : Tank) (c : TankSetup) (hh : Bool) (v : Nat) :
    (a.measured c hh v).overfill = true ↔ hh = true ∨ c.highHigh ≤ v := by
  simp [Tank.measured]

theorem QualTimer.take_starts {q : QualTimer} (h : q.armed = false) : q.take true = ⟨true, ⟨true, 0⟩⟩ := by
  simp [QualTimer.take, h, Timer.fromZero]

theorem QualTimer.take_stops (q : QualTimer) : q.take false = ⟨false, ⟨false, 0⟩⟩ := rfl

/-- R135: how far a level is from a reference. -/
theorem movedFrom_iff (reference level : Nat) :
    movedFrom reference level = true ↔ reference + 5 < level ∨ level + 5 < reference := decide_eq_true_iff

/-- R135: in SETTLING a tank taking part restarts the window with its first valid level, or one more than 5 mm from its
reference. -/
theorem State.resettles_iff (s : State) (n : Ch) (v : Nat) :
    s.Resettles n v (!(s.ow.tanks.get n).levelValid) ↔ s.ow.receipt = .settling ∧ (s.ow.tanks.get n).takingPart = true
      ∧ ((s.ow.tanks.get n).levelValid = false ∨ (s.ow.tanks.get n).reference + 5 < v
        ∨ v + 5 < (s.ow.tanks.get n).reference) := by
  simp [State.Resettles, movedFrom_iff]

end Sys2Proof.Machine

open Sys2Proof Sys2Proof.Machine

/-- Settles O54: the reading gives the tank its level, the level steps bring it to their outcome, and the receipt is judged
on the tanks as they then are. -/
theorem tankReadings : Obligations.TankReadings := by
  intro s n raw v a c st hr htw hs hu hf hlow hhigh hv ha hc hst
  obtain ⟨ch, hexec⟩ := execScanReading_level hr hu hs hf hlow hhigh hv
  subst ha hc hst
  obtain ⟨x, htank⟩ := State.tankScanned_tank (s := s.readAt n ch) (v := v) hr hu
  have htimer := State.tankScanned_timer (s := s.readAt n ch) (v := v) hr hu
  have hreceipt := State.tankScanned_receipt (s := s.readAt n ch) (v := v) hr hu
  have hframe := State.tankScanned_frame (s := s.readAt n ch) n v htw
  have hcomes {o : LevelOutcome} (ho : s.levelOutcome n v = o) :=
    State.tankScanned_outcome (s := s.readAt n ch) (v := v) hr hu ho
  have hisOpen := (s.ow.tanks.get n).state.isOpen_iff
  have hoverfill := (s.ow.tanks.get n).measured_overfill (s.sl.setup.tanks.get n) (s.inputs.hh.get n) v
  refine ⟨_, hexec, (hframe.part .phase (by decide)).1, by rw [htank]; rfl, by rw [htank]; rfl, by rw [htank]; rfl,
    by rw [htank]; rfl, fun m hm => State.tankScanned_others (s := s.readAt n ch) hr hu hm, fun hle => ?high,
    fun _ hoff => ?low, fun hlt hband => ?band, ?overfill, fun hon harm => ?timed, fun hoff hlt => ?untimed,
    fun hrests => ?rests, fun hp ho => ⟨fun hlt => ?below, fun hle => ⟨fun hother => ?full, fun hlast => ?last⟩⟩,
    State.tankScanned_asks (s := s.readAt n ch) hr hu, hreceipt.full.kept, hreceipt.full.full, hreceipt.full.filling, ?counts,
    hreceipt.uncounted, fun hrec hpart hmoved => ?restarts, fun hn => ?settles, hreceipt.limit, ?frame⟩
  case high =>
    refine ⟨by rw [htank]; exact Tank.highAlarmAfter_on hle, fun hnone => State.raised_mem ?_⟩
    exact State.tankScanned_alarm (s := s.readAt n ch) hr hu (Tank.highAlarmAfter_on hle) hnone
  case low =>
    rw [htank]
    exact Tank.highAlarmAfter_off hoff
  case band =>
    rw [htank]
    exact Tank.highAlarmAfter_kept hlt hband
  case overfill =>
    rw [htank]
    exact hoverfill
  case timed => exact htimer.trans ((congrArg _ (hoverfill.2 hon)).trans (QualTimer.take_starts harm))
  case untimed =>
    have hgone : ((s.ow.tanks.get n).measured (s.sl.setup.tanks.get n) (s.inputs.hh.get n) v).overfill = false := by
      rw [← Bool.not_eq_true, hoverfill]
      simp [hoff, hlt]
    exact htimer.trans ((congrArg _ hgone).trans (QualTimer.take_stops _))
  case rests =>
    obtain ⟨hstate, hclaim, hstays, -⟩ := hcomes (hrests.elim State.levelOutcome_inactive fun hn =>
      State.levelOutcome_shut (Bool.eq_false_iff.2 fun h => hn (hisOpen.1 h)))
    exact ⟨hstate, hclaim, hstays rfl⟩
  case below =>
    obtain ⟨hstate, hclaim, hstays, -⟩ := hcomes (State.levelOutcome_below hr hp hlt)
    exact ⟨hstate, hclaim, hstays rfl⟩
  case full =>
    obtain ⟨m, hm, hused, hopen⟩ := hother
    obtain ⟨hstate, hclaim, -, hcloses⟩ := hcomes (State.levelOutcome_full hr hp (hisOpen.2 ho) hle
      ((s.otherOpen_iff n).2 ⟨m, hm, hused, (TankState.isOpen_iff _).2 hopen⟩))
    exact ⟨hstate, hclaim, hcloses rfl⟩
  case last =>
    have halone : s.otherOpen n = false := Bool.eq_false_iff.2 fun h => by
      obtain ⟨m, hm, hused, hopen⟩ := (s.otherOpen_iff n).1 h
      obtain ⟨h1, h2, h3⟩ := hlast m hm hused
      exact ((TankState.isOpen_iff _).1 hopen).elim h1 fun h => h.elim h2 h3
    obtain ⟨-, -, hstays, -⟩ := hcomes rfl
    refine ⟨hstays (State.levelOutcome_stays hr hp (hisOpen.2 ho) hle halone), fun hw => ?_, fun hw hroute => ?_,
      fun hw hroute => ?_⟩
    · obtain ⟨hstate, hclaim, -⟩ := hcomes (State.levelOutcome_waits hr hp (hisOpen.2 ho) hle halone hw)
      exact ⟨hstate, hclaim⟩
    · obtain ⟨hstate, hclaim, -⟩ := hcomes (State.levelOutcome_claims hr hp (hisOpen.2 ho) hle halone hw hroute)
      exact ⟨hstate, hclaim⟩
    · obtain ⟨hstate, hclaim, -⟩ := hcomes (State.levelOutcome_holds hr hp (hisOpen.2 ho) hle halone hw hroute)
      exact ⟨hstate, hclaim⟩
  case counts =>
    intro hpart hrec
    rw [hreceipt.counts hpart hrec, State.ownReceived, (hframe.part .setup (by decide) : _ = _)]
    rfl
  case restarts => exact hreceipt.restarts ((s.resettles_iff n v).2 ⟨hrec, hpart, hmoved⟩)
  case settles => exact hreceipt.settles fun h => hn ((s.resettles_iff n v).1 h)
  case frame => exact ((s.readAt_frame n ch).mono (by decide)).trans (hframe.mono (by decide))
end
